-- ==== Sys2Proof/Word.lean ====
section
/-! DEFINITION. The word types of the DX8 manual and their plainest arithmetic. -/

namespace Sys2Proof

/-- A byte of device-local memory. -/
abbrev Byte := BitVec 8
/-- A 32-bit word: a Reckoner register, a flag, a slate position, a beam entry. -/
abbrev Word := BitVec 32
/-- A 64-bit word of a descriptor or a register block. -/
abbrev Word64 := BitVec 64
/-- A 40-bit Reckoner accumulator (R175). -/
abbrev Acc := BitVec 40
/-- A package core number, 0 to 127 (R13). -/
abbrev CoreId := BitVec 7
/-- A cluster number, 0 to 15 (R13). -/
abbrev ClusterId := BitVec 4
/-- A hardware stream, 0 to 255 (R125). -/
abbrev StreamId := BitVec 8
/-- A ring slot index (R126). -/
abbrev SlotId := BitVec 16
/-- A flag number, 0 to 4,095 (R131). -/
abbrev FlagId := BitVec 12
/-- A round number (R120). -/
abbrev RoundNo := BitVec 32
/-- A Saeri node ID (R242). -/
abbrev NodeId := BitVec 12
/-- A Saeri port, 0 to 15 (R13). -/
abbrev PortId := BitVec 4
/-- A serial lane, 0 to 127 (R270). -/
abbrev LaneId := BitVec 7
/-- An HBM pseudo-channel, 0 to 255 (R13). -/
abbrev PcId := BitVec 8
/-- An HBM stack, 0 to 7 (R13). -/
abbrev StackId := BitVec 3
/-- A Reckoner register name of an instruction, g0 to g31 (R176). -/
abbrev RegName := BitVec 5
/-- A configuration frame address, 18 bits (R317). -/
abbrev FAddr := BitVec 18
/-- A sparse table: the listed keys hold the listed values, every other key the table's default. -/
abbrev Table (α : Type) := List (Nat × α)

end Sys2Proof
end

