-- ==== Sys2Proof/Machine/Types.lean ====
section
/-! DEFINITION. The plain data types that commands carry: statuses, transports, packets, frames, observations of the
environment. -/

namespace Sys2Proof

/-- The status codes of R6. -/
inductive Status where
  | done | empty | doneFlagged
  | mapOverflow | deadlock | badDescriptor | inputWrite | rescaleExhausted | roundTooLong | address
  | hwUncorrectable | linkLost | peerLost | peerAbort
  | hostAbort | accessActive | icpRange
deriving DecidableEq, Repr

/-- What the guard-code checks of one step find: how many words they correct, and whether some word cannot be corrected (R68, R77,
R117, R202, R208, R216). -/
structure Upset where
  corrected : Nat
  failed : Bool
deriving DecidableEq, Repr

def Upset.clean : Upset := { corrected := 0, failed := false }
def Upset.correctable : Upset := { corrected := 1, failed := false }
def Upset.uncorrectable : Upset := { corrected := 0, failed := true }

/-- An error that strikes the guard-code word of byte address `addr`: one that can be corrected, or one that cannot. -/
structure UpsetAt where
  addr : Nat
  failed : Bool
deriving DecidableEq, Repr

/-- What happens in one core cycle that no command names: errors that strike the memories and, by cluster, the words of a cache part
(R202, R208, R216), objects whose storage takes an uncorrectable error (R357), cycles of bank conflict (R201), errors that the stacks report
(R209) and network words corrected (R232). -/
structure Tick where
  strikes : List UpsetAt
  cacheStrikes : List (Nat × UpsetAt)
  /-- Index * 256 + subindex of each. -/
  objects : List Nat
  conflicts : Nat
  onDie : Nat
  nocCorrected : Nat
deriving DecidableEq, Repr, Inhabited

/-- The pins sampled when RESET_N rises (R418). -/
structure Straps where
  tclkSource : Bool
  cfgMode : BitVec 2
  mgtAddr : BitVec 7
deriving DecidableEq, Repr

/-- The supply rails of R419. -/
inductive Rail where
  | vddCore | vddSram | vddNoc | vddHbm | vddqlHbm | vddLane | vddLaneH | vddIo
deriving DecidableEq, Repr

/-- The three dictionary transports (R359, R361, R362). `pcie` is the mirror and its mailbox. -/
inductive Transport where
  | pcie
  | mgmt
  | saeri (node : NodeId)
deriving DecidableEq, Repr

/-- Where a configuration stream comes from (R326, R340). -/
inductive LoadSource where
  | flash | configStream | icp
deriving DecidableEq, Repr

/-- What a scrubber finds in one frame (R342, R343). -/
structure ScrubObs where
  /-- One scrubber copy disagrees with the vote (R342). -/
  voteMismatch : Bool
  /-- Words corrected and written back. -/
  corrected : Nat
  /-- The first word that cannot be corrected, 0 to 35. -/
  badWord : Option (BitVec 6)
  /-- The frame's CRC does not match after correction. -/
  crcBad : Bool
deriving DecidableEq, Repr

/-- What a generic register write names (R125, R349). -/
inductive RegTarget where
  /-- An object of the dictionary. -/
  | object (index : BitVec 16) (sub : Byte)
  /-- A register of the Sequencer range, by offset. -/
  | sequencer (offset : BitVec 26)
deriving DecidableEq, Repr

/-- A dictionary transfer frame (R363). -/
structure TFrame where
  cmd : Byte
  tid : Byte
  index : BitVec 16
  sub : Byte
  flags : Byte
  seq : BitVec 16
  data : List Byte
deriving DecidableEq, Repr

/-- A carry partial: one row of 64 entries with its tag (R90, R91). -/
structure CarryMsg where
  group : Nat
  round : RoundNo
  ordinal : Nat
  /-- Position of the sender in its carry group. -/
  pos : Nat
  /-- The sender's output shape: M, N and the batch. -/
  shape : Nat × Nat × Nat
  blk : Nat
  row : Nat
  isInt : Bool
  tag : Nat
  mask : Word64
  vals : List Word
deriving DecidableEq, Repr

/-- The header of a weight tile (R64). -/
structure TileHdr where
  format : Nat
  dclass : Nat
  kext : Nat
  oext : Nat
  rep : Bool
deriving DecidableEq, Repr

/-- An exact element value: an integer, or a NaN, an infinity, or (-1)^neg * m * 2^e. -/
inductive Val where
  | int (i : Int)
  | nan
  | inf (neg : Bool)
  | fin (neg : Bool) (m : Nat) (e : Int)
deriving DecidableEq, Repr

/-- A weight tile on a chain: its header, its place, and its elements as scale and code, index k * 64 + c. -/
structure ChainTile where
  hdr : TileHdr
  chain : Nat
  round : RoundNo
  ordinal : Nat
  tile : Nat
  codes : List (Nat × Nat)
deriving DecidableEq, Repr

/-- What an on-chip packet carries besides its control word. -/
inductive NocBody where
  | none
  | bytes (b : List Byte)
  | carry (target : CoreId) (m : CarryMsg)
  /-- Bytes of a tile image for the k-th descriptor of its chain (R229, R424). -/
  | tile (ordinal : Nat) (b : List Byte)
deriving DecidableEq, Repr

/-- An on-chip packet: the control word of R230 and its payload. -/
structure NocPacket where
  vc : BitVec 2
  dest : BitVec 9
  src : BitVec 9
  op : BitVec 6
  tag : BitVec 12
  status : Byte
  lenm1 : Byte
  rslot : BitVec 7
  addr : BitVec 52
  body : NocBody
deriving DecidableEq, Repr

/-- A Saeri packet (R285). `data` holds its data words as bytes. -/
structure SaeriPkt where
  dnode : NodeId
  addr : BitVec 52
  snode : NodeId
  tag : BitVec 12
  lenm1 : Byte
  status : Byte
  op : BitVec 6
  data : List Byte
deriving DecidableEq, Repr

/-- A 66-bit block (R272): its sync header and payload. -/
structure Block where
  header : BitVec 2
  payload : Word64
deriving DecidableEq, Repr

/-- A block as it comes off the line: the 58 payload bits before it, which its descrambler holds, and the block, scrambled (R272). -/
structure LineBlock where
  before : BitVec 58
  block : Block
deriving DecidableEq, Repr

/-- A link frame as it comes off a port's lanes (R282): nine slots of eight blocks, physical lane 0 first, with what the guard-code check of
its 32 words finds: the words it corrects and the bits it flips in them, and whether it cannot correct one. -/
structure RawFrame where
  blocks : List LineBlock
  fixes : List (Nat × BitVec 128)
  failed : Bool
deriving DecidableEq, Repr

/-- A link frame (R282): the fields of its header word, its payload words, and what the receiver's check finds. -/
structure LinkFrame where
  type : BitVec 4
  seq : BitVec 12
  ack : BitVec 12
  nak : Bool
  srcNode : NodeId
  crMg : BitVec 4
  crWt : BitVec 4
  crRs : BitVec 4
  crRq : BitVec 4
  departed : NodeId
  words : List (BitVec 128)
  /-- Words the receiver corrects (R287). -/
  corrected : Nat
  /-- An uncorrectable word, a block error or a reserved type: the frame is discarded (R287). -/
  bad : Bool
deriving DecidableEq, Repr

/-- A fabric-port command word less its OP, and its data beats (R301). -/
structure FabCmd where
  rvalid : Bool
  attempt : BitVec 3
  round : RoundNo
  tag : BitVec 6
  lenm1 : Byte
  rsvd : BitVec 22
  addr : BitVec 52
  beats : List Byte
deriving DecidableEq, Repr

/-- A word at a fabric port with its beats: a command word (R301), a response word (R303), or an event word (R304). -/
structure FabWord where
  word : BitVec 128
  beats : List Byte
deriving DecidableEq, Repr

/-- A core, and what the checks of a step of its array find (R68). -/
structure CoreCheck where
  core : CoreId
  upset : Upset
deriving DecidableEq, Repr

/-- The lanes of a port that carry energy, one bit for each, and for how long they have, in ns (R278). -/
structure LaneEnergy where
  lanes : Byte
  ns : Nat
deriving DecidableEq, Repr

/-- Lanes of a port, one bit for each. -/
structure PortLanes where
  port : PortId
  lanes : Byte
deriving DecidableEq, Repr

/-- A block that reaches a lane's elastic buffer, and the blocks that the buffer holds (R275). -/
structure BufferedBlock where
  line : LineBlock
  depth : Nat
deriving DecidableEq, Repr

/-- The reading of one cluster's ageing monitors (R382). -/
structure Margin where
  /-- Replica slack at the present voltage, ps. -/
  slack : Int
  /-- Replica slack 20 mV below. -/
  slackLow : Int
  /-- Ring-oscillator frequency, kHz. -/
  ringOsc : Nat
deriving DecidableEq, Repr

/-- A declared partition (R333). -/
structure Partition where
  die : Nat
  region : Nat
  colLo : Nat
  colHi : Nat
  bankMask : Byte
  portMask : Byte
  design : Word64
deriving DecidableEq, Repr, Inhabited

/-- A signal of the logic fabric. Cell blocks are numbered cluster * 18432 + block; pins die * 128 + bank * 16 + pin. -/
inductive Net where
  | low
  | high
  /-- The output of a cell (R294). -/
  | cell (block cell : Nat)
  /-- The outputs of the combining paths of a block: of a pair, of two pairs, of all eight cells (R295). -/
  | pair (block k : Nat)
  | quad (block k : Nat)
  | octet (block : Nat)
  /-- A pin read at single rate, and a bit of the word that its deserialiser shows (R314). -/
  | pin (p : Nat)
  | deser (p bit : Nat)
  /-- A signal of a hardened block: the fabric side of a port, the configuration port, a line of the Tally bus. -/
  | hard (n : Nat)
deriving DecidableEq, Repr, Inhabited

/-- A logic cell as its frames set it (R294). -/
structure CellCfg where
  lut : BitVec 16
  i0 : Net
  i1 : Net
  i2 : Net
  i3 : Net
  /-- The flip-flop's D input where it is not the LUT output. -/
  bypass : Option Net
  enable : Net
  setReset : Net
  init : Bool
  /-- The cell's output is the flip-flop's, else the LUT's. -/
  fromFlop : Bool
deriving DecidableEq, Repr, Inhabited

/-- A cell block: its global clock, the region it lies in, the selects of its combining paths (four pairs, two pairs of pairs, the block), its
cells, and the constants that its signals into other regions carry while its own is isolated (R294, R295, R333). -/
structure BlockCfg where
  clock : Nat
  region : Nat
  pairSel : List Net
  quadSel : List Net
  octetSel : Net
  cells : Table CellCfg
  safe : List Net
deriving DecidableEq, Repr, Inhabited

/-- The standard of an I/O bank (R313). -/
inductive IoStandard where
  | lvds | lvcmos18
deriving DecidableEq, Repr, Inhabited

/-- A pin or pair (R313, R314): it is driven while `enable` is 1, at single rate by `out` or by the serialiser's eight inputs, sent first to
last; `slip` is the bit-slip input of its deserialiser. -/
structure PinCfg where
  enable : Net
  out : Net
  serial : Bool
  word : List Net
  slip : Net
deriving DecidableEq, Repr, Inhabited

/-- An I/O bank: its standard, the global clock of its parallel side, and its pins, or the even pins of its pairs. -/
structure BankCfg where
  standard : IoStandard
  clock : Nat
  pins : Table PinCfg
deriving DecidableEq, Repr, Inhabited

/-- What the frames of a design declare (R294, R295, R299, R300, R311, R313, R333). The manual gives no layout of their bits. -/
structure Design where
  partitions : Table Partition
  claims : Table Nat
  clockDiv : Table Nat
  blocks : Table BlockCfg
  /-- By die * 8 + bank. -/
  banks : Table BankCfg
  /-- Drivers of TALLY2 and TALLY3: line, region, net. -/
  tallyDrivers : List (Nat × Nat × Net)
deriving DecidableEq, Repr, Inhabited

end Sys2Proof
end

