-- ==== Sys2Proof/Syntax.lean ====
section
/-! DEFINITION. The commands of the DX8: one constructor per row of spec/opcode_table.json, in the table's order.
A command names a step of the device; its operands are what the outside gives the step (an address, a value, a frame)
and, where the step rests on something that only the environment can tell (a temperature, an elapsed time, an upset that
a guard-code check meets), that observation. -/

namespace Sys2Proof

/-- The commands and events of the device. -/
inductive Instr where
  /-- POWER_ON (R420): The supply rails come up in order and the device starts from power-on reset. -/
  | powerOn (straps : Straps)
  /-- RAIL_FAULT (R421): A rail that leaves its range for more than 1 µs resets the device as at power-on and loses HBM contents. -/
  | railFault (rail : Rail) (lowNs : Nat)
  /-- DEVICE_RESET (R418): A fall of RESET_N resets the device; the strap pins are sampled when RESET_N rises. -/
  | deviceReset (straps : Straps)
  /-- PCIE_PERST (R418): PCIE_PERST_N resets only the host port. -/
  | pciePerst
  /-- PLL_LOCK (R371): The root PLL locks; the derived clocks start, or the device resets after a clock loss. -/
  | pllLock
  /-- CLOCK_LOSS (R371): REFCLK stops or the PLL loses lock; the clocks stop, the management controller falls back to its oscillator and DONE goes low. -/
  | clockLoss
  /-- THERMAL_TRIP (R381): A sensor reaches 110 °C; every clock stops and THERM_TRIP_N is asserted. -/
  | thermalTrip (cluster : ClusterId) (celsius : Int)
  /-- FULL_LOAD (R328): After reset the configuration controller starts a full load from the source that CFG_MODE selects. -/
  | fullLoad
  /-- STREAM_HEADER (R319): A configuration stream header is taken whole and checked; a partial load is accepted or refused. -/
  | streamHeader (src : LoadSource) (bytes : List Byte)
  /-- CLEAR_DONE (R335): The clearing of configuration columns ends, and the controller accepts frames. -/
  | clearDone
  /-- FRAME_RECORD (R321): A frame record arrives; it is decrypted, its address and CRC are checked, and it is written to configuration memory. -/
  | frameRecord (bytes : List Byte)
  /-- STREAM_TAG (R321): The stream tag arrives and is verified; on success the load is activated, and on failure it ends with its result. -/
  | streamTag (bytes : List Byte)
  /-- ICP_ABORT (R341): ICP_ABORT ends the active load with TRUNCATED. -/
  | icpAbort
  /-- DONE_HIGH (R331): In STATE 3 the device samples DONE high on a TCLK edge and begins start-up. -/
  | doneHigh
  /-- STARTUP_STEP_END (R332): A fixed-duration start-up step counts out and the next step begins. -/
  | startupStepEnd
  /-- HBM_TRAINING_DONE (R219): HBM training ends; failed pseudo-channels are marked and the device enters user mode. -/
  | hbmTrainingDone (failed : List PcId)
  /-- REPROGRAM (R329): A write to Reprogram acts as a device reset and restarts the full load. -/
  | reprogram (via : Transport) (value : Byte)
  /-- CONFIG_STREAM (R365): A ConfigStream write segment passes stream bytes to the configuration controller. -/
  | configStream (via : Transport) (bytes : List Byte)
  /-- BBRAM_KEY (R325): A write sets the battery-backed key when allowed. -/
  | bbramKey (via : Transport) (key : List Byte)
  /-- BBRAM_ERASE (R325): A write clears the battery-backed key. -/
  | bbramErase (via : Transport) (value : Byte)
  /-- FUSE_PROGRAM (R325): A write blows the selected security fuses, over the management bus only. -/
  | fuseProgram (via : Transport) (mask : Word)
  /-- EFUSE_KEY (R325): A write blows the eFuse key once. -/
  | efuseKey (via : Transport) (key : List Byte)
  /-- SCRUB_PASS (R343): The scrub period expires and a scrubber starts a pass over its die's frames. -/
  | scrubPass (die : BitVec 1)
  /-- SCRUB_FRAME (R343): A scrubber reads one frame, corrects and writes it back, or marks it bad. -/
  | scrubFrame (frame : FAddr) (obs : ScrubObs)
  /-- REGISTER_WRITE (R349): A write to a register or object that has no row of its own sets its value after its checks. -/
  | registerWrite (via : Transport) (target : RegTarget) (bytes : List Byte)
  /-- STAGED_WRITE (R354): A write to a staged field checks type and length and stores the value in the staging copy. -/
  | stagedWrite (via : Transport) (index : BitVec 16) (sub : Byte) (bytes : List Byte)
  /-- GROUP_COMMIT (R354): A write of 1 to a group's Commit checks the staging copy and makes it the value in force, or refuses it with an abort code. -/
  | groupCommit (via : Transport) (index : BitVec 16)
  /-- STAGING_RESET (R354): A write of 0 to a group's Commit resets the staging copy to the values in force. -/
  | stagingReset (via : Transport) (index : BitVec 16)
  /-- TRANSLATOR_COMMIT (R245): A write to TranslatorCommit checks and applies all translator entries together. -/
  | translatorCommit (via : Transport)
  /-- FORMAT_PROFILE (R47): A write of 0x00 sets group 0x4020 to its defaults and commits it. -/
  | formatProfile (via : Transport) (value : Byte)
  /-- ARRAY_PROFILE (R72): A write of 0x00 clears every weight chain and commits group 0x4031. -/
  | arrayProfile (via : Transport) (value : Byte)
  /-- REDUCTION_PROFILE (R98): A write of 0x00 resets ReductionOrder and the carry groups and commits them. -/
  | reductionProfile (via : Transport) (value : Byte)
  /-- FUSION_PROFILE (R174): A write of 0x00 resets LayerTransition and every handle ring and commits them. -/
  | fusionProfile (via : Transport) (value : Byte)
  /-- MEMORY_PROFILE (R222): A write of 0x00 resets every CcScratch field and commits group 0x4090. -/
  | memoryProfile (via : Transport) (value : Byte)
  /-- HBM_PROFILE (R222): A write of 0x00 resets RetrainPeriod and PatrolPeriod and commits group 0x4410. -/
  | hbmProfile (via : Transport) (value : Byte)
  /-- NOC_PROFILE (R241): A write of 0x00 resets WeightShare and commits group 0x4100. -/
  | nocProfile (via : Transport) (value : Byte)
  /-- SAERI_PROFILE (R269): A write of 0x00 resets PathBudget and empties the node carry, chain node and peer groups. -/
  | saeriProfile (via : Transport) (value : Byte)
  /-- LANE_PROFILE (R293): A write of 0x00 sets every CtlePeaking to 8 and commits group 0x4120. -/
  | laneProfile (via : Transport) (value : Byte)
  /-- FABRIC_PROFILE (R315): A write of 0x00 clears FabricStreams, resets FabricTimeout and commits group 0x4130. -/
  | fabricProfile (via : Transport) (value : Byte)
  /-- CONFIG_PROFILE (R348): A write of 0x00 resets ScrubPeriod and commits group 0x4140. -/
  | configProfile (via : Transport) (value : Byte)
  /-- POWER_PROFILE (R387): A write of 0x00 resets the power objects and groups 0x4160 and 0x4161 and commits them. -/
  | powerProfile (via : Transport) (value : Byte)
  /-- REQLEN_WRITE (R360): A write of a frame length to REQLEN submits the mailbox request frame. -/
  | reqlenWrite (len : Word64)
  /-- RSPLEN_FREE (R360): A write of 0 to RSPLEN frees the mailbox response buffer. -/
  | rsplenFree (value : Word64)
  /-- TRANSFER_READ (R364): A client read command starts a dictionary read transfer. -/
  | transferRead (via : Transport) (frame : TFrame)
  /-- WRITE_SEGMENT (R364): A client write segment is taken; the LAST segment makes the write take effect. -/
  | writeSegment (via : Transport) (frame : TFrame)
  /-- READ_ACKNOWLEDGE (R364): A client read acknowledge lets the device send the next eight read segments. -/
  | readAcknowledge (via : Transport) (frame : TFrame)
  /-- CLIENT_ABORT (R364): A client abort frame ends its transfer. -/
  | clientAbort (via : Transport) (frame : TFrame)
  /-- TRANSFER_TIMEOUT (R364): A transfer with nothing from the client for 100 ms is aborted with TIMEOUT. -/
  | transferTimeout (via : Transport) (tid : Byte) (silentMs : Nat)
  /-- FLAG_ADD (R125): A write to the flag add view adds the value to the flag. -/
  | flagAdd (flag : FlagId) (value : Word)
  /-- FLAG_SET (R125): A write to the flag set view sets the flag. -/
  | flagSet (flag : FlagId) (value : Word)
  /-- STREAM_ENABLE (R127): A write of ENABLE = 1 checks the ring settings and starts or resumes the stream. -/
  | streamEnable (stream : StreamId)
  /-- STREAM_DISABLE (R127): A write of ENABLE = 0 stops fetching new slots. -/
  | streamDisable (stream : StreamId)
  /-- DOORBELL (R126): A write to TAIL rings the doorbell of a stream. -/
  | doorbell (stream : StreamId) (tail : BitVec 16)
  /-- ABORT (R149): A write of a round number to ABORT aborts that round with HOST_ABORT here and in its peer group. -/
  | abort (round : RoundNo)
  /-- HOST_READ (R402): A host memory read request reaches the device and is served. -/
  | hostRead (addr : BitVec 52) (len : Nat)
  /-- HOST_WRITE (R402): A host memory write request reaches the device and is performed. -/
  | hostWrite (addr : BitVec 52) (bytes : List Byte)
  /-- HOST_LINK_DOWN (R403): The host link leaves L0; partial requests are dropped and HostLossAction is applied. -/
  | hostLinkDown
  /-- FUNCTION_LEVEL_RESET (R404): A Function Level Reset disables every stream and aborts every open round. -/
  | functionLevelReset
  /-- DESCRIPTOR_FETCH (R128): The Sequencer fetches the next slot of a stream and acts on its header. -/
  | descriptorFetch (stream : StreamId)
  /-- DESCRIPTOR_ISSUE (R132): Every wait of a descriptor is satisfied and it is issued. -/
  | descriptorIssue (stream : StreamId)
  /-- DESCRIPTOR_DELIVERY (R136): A descriptor whose fences allow it is delivered to its core, which copies it and its view records into the patch image. -/
  | descriptorDelivery (stream : StreamId)
  /-- PATCH_EVENT (R189): A patch event reaches the Reckoner, which switches to the shadow bank and runs the handler. -/
  | patchEvent (core : CoreId)
  /-- PATCH_RELEASE (R190): After PREL the frozen image is checked, locked bytes included, and the descriptor may begin its first operand fetch. -/
  | patchRelease (core : CoreId)
  /-- NOP (R121): A NOP descriptor runs its waits, fences and signal only. -/
  | nop (stream : StreamId) (slot : SlotId)
  /-- COPY (R121): A COPY reads VIEW0, widens it and narrows it into VIEW2. -/
  | copy (stream : StreamId) (slot : SlotId)
  /-- SLATE (R121): A SLATE descriptor loads its inputs into slates and runs its steps once. -/
  | slate (stream : StreamId) (slot : SlotId)
  /-- MATMUL (R121): A MATMUL walks its blocks on the bead array and runs its epilogue on each block. -/
  | matmul (stream : StreamId) (slot : SlotId)
  /-- HANDLE_TAKE (R165): The load engine takes the head handle of a ring for a consumer view once a suitable handle is present. -/
  | handleTake (stream : StreamId) (slot : SlotId)
  /-- FEEDER_WRITE (R54): The load engine writes one activation entry into a feeder queue that has room. -/
  | feederWrite (core : CoreId) (row : BitVec 6)
  /-- VECTOR_RELEASE (R55): All feeder queues release one vector into the bead array in lockstep. -/
  | vectorRelease (core : CoreId) (upset : Upset)
  /-- BEAM_ROW_WRITE (R78): A vector's 64 rod sums reach the beam and are written or added into their row. -/
  | beamRowWrite (core : CoreId) (upset : Upset)
  /-- RESCALE_ATTEMPT_START (R83): After the drain and the reload of tile 0, the next overflow attempt releases its first vector with a larger shift. -/
  | rescaleAttemptStart (check : CoreCheck)
  /-- CHAIN_TILE_ARRIVE (R63): A weight tile arrives at a chain member, whose header is checked and which fills its shadow registers and passes it on. -/
  | chainTileArrive (core : CoreId) (upset : Upset)
  /-- REPEAT_PASS_SEND (R84): The chain head sends all tiles of a block again as a repeat pass. -/
  | repeatPassSend (core : CoreId)
  /-- CARRY_SEND (R90): A carry-group member sends a final row partial to its receiving position. -/
  | carrySend (core : CoreId)
  /-- CARRY_PARTIAL_ARRIVE (R91): A carry partial arrives and the slate engine adds it into the beam row. -/
  | carryPartialArrive (core : CoreId) (upset : Upset)
  /-- STEP_MOV (R106): Slate step MOV copies a. -/
  | stepMov (core : CoreId) (upset : Upset)
  /-- STEP_ADD (R106): Slate step ADD adds a and b. -/
  | stepAdd (core : CoreId) (upset : Upset)
  /-- STEP_SUB (R106): Slate step SUB subtracts b from a. -/
  | stepSub (core : CoreId) (upset : Upset)
  /-- STEP_MUL (R106): Slate step MUL multiplies a and b. -/
  | stepMul (core : CoreId) (upset : Upset)
  /-- STEP_FMA (R106): Slate step FMA forms a × b + c with one rounding. -/
  | stepFma (core : CoreId) (upset : Upset)
  /-- STEP_MAX (R106): Slate step MAX takes the maximum under R45. -/
  | stepMax (core : CoreId) (upset : Upset)
  /-- STEP_MIN (R106): Slate step MIN takes the minimum under R45. -/
  | stepMin (core : CoreId) (upset : Upset)
  /-- STEP_ABS (R106): Slate step ABS takes the absolute value. -/
  | stepAbs (core : CoreId) (upset : Upset)
  /-- STEP_NEG (R106): Slate step NEG negates a. -/
  | stepNeg (core : CoreId) (upset : Upset)
  /-- STEP_RELU (R106): Slate step RELU keeps positive values. -/
  | stepRelu (core : CoreId) (upset : Upset)
  /-- STEP_CLAMP (R106): Slate step CLAMP bounds a by b and c. -/
  | stepClamp (core : CoreId) (upset : Upset)
  /-- STEP_SHL (R109): Slate step SHL shifts left with saturation. -/
  | stepShl (core : CoreId) (upset : Upset)
  /-- STEP_SHR (R109): Slate step SHR shifts right arithmetically with RNE. -/
  | stepShr (core : CoreId) (upset : Upset)
  /-- STEP_AND (R106): Slate step AND. -/
  | stepAnd (core : CoreId) (upset : Upset)
  /-- STEP_OR (R106): Slate step OR. -/
  | stepOr (core : CoreId) (upset : Upset)
  /-- STEP_XOR (R106): Slate step XOR. -/
  | stepXor (core : CoreId) (upset : Upset)
  /-- STEP_CVT_FI (R109): Slate step CVT.FI converts FP32 to INT32 with saturation. -/
  | stepCvtFi (core : CoreId) (upset : Upset)
  /-- STEP_CVT_IF (R106): Slate step CVT.IF converts INT32 to FP32. -/
  | stepCvtIf (core : CoreId) (upset : Upset)
  /-- STEP_CVT_PN (R106): Slate step CVT.PN packs two FP32 slates into one packed slate. -/
  | stepCvtPn (core : CoreId) (upset : Upset)
  /-- STEP_CVT_WL (R106): Slate step CVT.WL widens the low packed elements to FP32. -/
  | stepCvtWl (core : CoreId) (upset : Upset)
  /-- STEP_CVT_WH (R106): Slate step CVT.WH widens the high packed elements to FP32. -/
  | stepCvtWh (core : CoreId) (upset : Upset)
  /-- STEP_EXP2 (R110): Slate step EXP2. -/
  | stepExp2 (core : CoreId) (upset : Upset)
  /-- STEP_LOG2 (R110): Slate step LOG2. -/
  | stepLog2 (core : CoreId) (upset : Upset)
  /-- STEP_RCP (R110): Slate step RCP. -/
  | stepRcp (core : CoreId) (upset : Upset)
  /-- STEP_RSQ (R110): Slate step RSQ. -/
  | stepRsq (core : CoreId) (upset : Upset)
  /-- STEP_TANH (R110): Slate step TANH. -/
  | stepTanh (core : CoreId) (upset : Upset)
  /-- STEP_RSUM (R111): Slate step RSUM sums over the axis in the lane-end tree. -/
  | stepRsum (core : CoreId) (upset : Upset)
  /-- STEP_RMAX (R111): Slate step RMAX takes the maximum over the axis. -/
  | stepRmax (core : CoreId) (upset : Upset)
  /-- STEP_RMIN (R111): Slate step RMIN takes the minimum over the axis. -/
  | stepRmin (core : CoreId) (upset : Upset)
  /-- STEP_PERM (R112): Slate step PERM gathers positions of A by index. -/
  | stepPerm (core : CoreId) (upset : Upset)
  /-- STEP_BEAMREAD (R113): Slate step BEAMREAD reads the next beam row into a quarter and applies its shift tag. -/
  | stepBeamread (core : CoreId) (upset : Upset)
  /-- STEP_STORE (R114): Slate step STORE hands slate values to the store engine, which converts and writes them. -/
  | stepStore (core : CoreId) (upset : Upset)
  /-- DESCRIPTOR_COMPLETE (R137): A descriptor's writes become visible; its record is written, its handle pushed and its signal applied. -/
  | descriptorComplete (stream : StreamId) (slot : SlotId)
  /-- ROUND_COMMIT (R140): A round meets its commit conditions and commits, releasing slots and applying commit-time signals and counts. -/
  | roundCommit (round : RoundNo)
  /-- ROUND_ABORT (R390): A round aborts; its work is cleared, its rings restored and its fetching stopped. -/
  | roundAbort (round : RoundNo) (cause : Option Status)
  /-- FLAG_RESTORE (R134): Once the attempt's traffic has drained, its completion-time increments are subtracted from the flags. -/
  | flagRestore (round : RoundNo)
  /-- ROUND_RESTART (R392): A round that faulted in hardware refetches its unreleased slots for its next attempt. -/
  | roundRestart (round : RoundNo)
  /-- ROUND_TOO_LONG (R148): An attempt reaches its round length limit and the round fails. -/
  | roundTooLong (round : RoundNo) (elapsedUs : Nat)
  /-- DEADLOCK (R151): The quiescence condition holds for 65,536 cycles and the round fails with DEADLOCK. -/
  | deadlock (round : RoundNo) (heldCycles : Nat)
  /-- CORE_HALT (R96): A write of 1 to CoreHalt requests a halt of the core. -/
  | coreHalt (via : Transport) (core : CoreId)
  /-- CORE_HALTED (R96): The halted core's engines become empty and it reads 2. -/
  | coreHalted (core : CoreId)
  /-- CORE_RELEASE (R96): A write of 0 to CoreHalt releases the core. -/
  | coreRelease (via : Transport) (core : CoreId)
  /-- ADD (R181): Reckoner ADD. -/
  | add (core : CoreId)
  /-- SUB (R181): Reckoner SUB. -/
  | sub (core : CoreId)
  /-- AND (R181): Reckoner AND. -/
  | and (core : CoreId)
  /-- OR (R181): Reckoner OR. -/
  | or (core : CoreId)
  /-- XOR (R181): Reckoner XOR. -/
  | xor (core : CoreId)
  /-- SLL (R181): Reckoner shift left logical. -/
  | sll (core : CoreId)
  /-- SRL (R181): Reckoner shift right logical. -/
  | srl (core : CoreId)
  /-- SRA (R181): Reckoner shift right arithmetic. -/
  | sra (core : CoreId)
  /-- SLT (R181): Reckoner set if less than, signed. -/
  | slt (core : CoreId)
  /-- SLTU (R181): Reckoner set if less than, unsigned. -/
  | sltu (core : CoreId)
  /-- MUL (R181): Reckoner multiply, low word. -/
  | mul (core : CoreId)
  /-- MULHS (R181): Reckoner multiply, high word signed. -/
  | mulhs (core : CoreId)
  /-- MULHU (R181): Reckoner multiply, high word unsigned. -/
  | mulhu (core : CoreId)
  /-- MIN (R181): Reckoner signed minimum. -/
  | min (core : CoreId)
  /-- MAX (R181): Reckoner signed maximum. -/
  | max (core : CoreId)
  /-- NORM (R182): Reckoner normalise. -/
  | norm (core : CoreId)
  /-- EXPF (R182): Reckoner FP32 exponent extract. -/
  | expf (core : CoreId)
  /-- EXPB (R182): Reckoner BF16 exponent extract. -/
  | expb (core : CoreId)
  /-- ADDI (R181): Reckoner add immediate. -/
  | addi (core : CoreId)
  /-- SLTI (R181): Reckoner set if less than immediate, signed. -/
  | slti (core : CoreId)
  /-- SLTIU (R181): Reckoner set if less than immediate, unsigned. -/
  | sltiu (core : CoreId)
  /-- ANDI (R181): Reckoner AND immediate. -/
  | andi (core : CoreId)
  /-- ORI (R181): Reckoner OR immediate. -/
  | ori (core : CoreId)
  /-- XORI (R181): Reckoner XOR immediate. -/
  | xori (core : CoreId)
  /-- LUI (R181): Reckoner load upper immediate. -/
  | lui (core : CoreId)
  /-- SLLI (R181): Reckoner shift left immediate. -/
  | slli (core : CoreId)
  /-- SRLI (R181): Reckoner shift right logical immediate. -/
  | srli (core : CoreId)
  /-- SRAI (R181): Reckoner shift right arithmetic immediate. -/
  | srai (core : CoreId)
  /-- LW (R181): Reckoner load word from data memory. -/
  | lw (core : CoreId)
  /-- LH (R181): Reckoner load halfword, signed. -/
  | lh (core : CoreId)
  /-- LHU (R181): Reckoner load halfword, unsigned. -/
  | lhu (core : CoreId)
  /-- LB (R181): Reckoner load byte, signed. -/
  | lb (core : CoreId)
  /-- LBU (R181): Reckoner load byte, unsigned. -/
  | lbu (core : CoreId)
  /-- SW (R181): Reckoner store word. -/
  | sw (core : CoreId)
  /-- SH (R181): Reckoner store halfword. -/
  | sh (core : CoreId)
  /-- SB (R181): Reckoner store byte. -/
  | sb (core : CoreId)
  /-- DLW (R181): Reckoner load word of the patch image. -/
  | dlw (core : CoreId)
  /-- DLB (R181): Reckoner load byte of the patch image. -/
  | dlb (core : CoreId)
  /-- DSW (R181): Reckoner store word into the patch image. -/
  | dsw (core : CoreId)
  /-- DSB (R181): Reckoner store byte into the patch image. -/
  | dsb (core : CoreId)
  /-- BEQ (R181): Reckoner branch if equal. -/
  | beq (core : CoreId)
  /-- BNE (R181): Reckoner branch if not equal. -/
  | bne (core : CoreId)
  /-- BLT (R181): Reckoner branch if less, signed. -/
  | blt (core : CoreId)
  /-- BGE (R181): Reckoner branch if greater or equal, signed. -/
  | bge (core : CoreId)
  /-- BLTU (R181): Reckoner branch if less, unsigned. -/
  | bltu (core : CoreId)
  /-- BGEU (R181): Reckoner branch if greater or equal, unsigned. -/
  | bgeu (core : CoreId)
  /-- LOOP (R181): Reckoner LOOP decrements, rotates the registers and branches. -/
  | loop (core : CoreId)
  /-- JAL (R181): Reckoner jump and link. -/
  | jal (core : CoreId)
  /-- JALR (R181): Reckoner jump and link register. -/
  | jalr (core : CoreId)
  /-- MAC (R181): Reckoner multiply-accumulate with saturation. -/
  | mac (core : CoreId)
  /-- MSU (R181): Reckoner multiply-subtract with saturation. -/
  | msu (core : CoreId)
  /-- MTA (R181): Reckoner move to accumulator. -/
  | mta (core : CoreId)
  /-- RND (R182): Reckoner round accumulator to a register. -/
  | rnd (core : CoreId)
  /-- AHI (R181): Reckoner read accumulator high bits. -/
  | ahi (core : CoreId)
  /-- ALO (R181): Reckoner read accumulator low bits. -/
  | alo (core : CoreId)
  /-- WAIT (R181): Reckoner WAIT idles the main bank until a patch event. -/
  | wait (core : CoreId)
  /-- PREL (R189): Reckoner PREL releases the descriptor in patch and leaves the shadow bank. -/
  | prel (core : CoreId)
  /-- MFS (R179): Reckoner move from special register. -/
  | mfs (core : CoreId)
  /-- MTS (R179): Reckoner move to special register. -/
  | mts (core : CoreId)
  /-- ILLEGAL_ENCODING (R185): An illegal instruction word faults the Reckoner with cause 0x01. -/
  | illegalEncoding (core : CoreId)
  /-- RECKONER_RUN_START (R196): A write of 1 to ReckonerRun clears and starts a stopped or faulted Reckoner. -/
  | reckonerRunStart (via : Transport) (core : CoreId)
  /-- RECKONER_STOP_REQUEST (R196): A write of 0 to ReckonerRun asks a running Reckoner to stop at idle. -/
  | reckonerStopRequest (via : Transport) (core : CoreId)
  /-- RECKONER_STOPPED (R196): A Reckoner asked to stop reaches idle and stops. -/
  | reckonerStopped (core : CoreId)
  /-- IBANK_SELECT (R195): A write to IbankSelect swaps the instruction bank at once or makes the swap pending. -/
  | ibankSelect (via : Transport) (core : CoreId) (value : Byte)
  /-- BANK_SWAP (R195): A pending swap takes effect when the Reckoner is next idle. -/
  | bankSwap (core : CoreId)
  /-- NOC_READ (R230): An on-chip read request reaches its target and is served. -/
  | nocRead (pkt : NocPacket) (upsets : List UpsetAt)
  /-- NOC_WRITE (R230): An on-chip write request reaches its target and is performed. -/
  | nocWrite (pkt : NocPacket)
  /-- NOC_READ_DATA (R230): Read data returns to its initiator. -/
  | nocReadData (pkt : NocPacket) (latency : Nat)
  /-- NOC_WRITE_ACK (R230): A write acknowledgement returns to its initiator. -/
  | nocWriteAck (pkt : NocPacket)
  /-- NOC_FLAG_ADD (R230): A flag add packet reaches the flag store and is applied. -/
  | nocFlagAdd (pkt : NocPacket)
  /-- NOC_CARRY_PARTIAL (R230): A carry partial packet reaches its receiving core. -/
  | nocCarryPartial (pkt : NocPacket)
  /-- NOC_WEIGHT_ROW (R229): A weight-chain tile packet reaches a member in another cluster. -/
  | nocWeightRow (pkt : NocPacket)
  /-- NOC_MANAGEMENT (R230): A management packet carries dictionary, configuration or scrubber traffic. -/
  | nocManagement (pkt : NocPacket)
  /-- FLIT_REPLAY (R232): A receiver's replay request makes the sender resend a flit and those after it, or drop the packet after three failures. -/
  | flitReplay (pkt : NocPacket) (bundle : BitVec 6) (link : BitVec 3) (failures : Nat)
  /-- LINK_REMOVAL (R233): A drained bundle resumes without its failed link. -/
  | linkRemoval (bundle : BitVec 6) (link : BitVec 3)
  /-- CACHE_LINE_FILL (R204): A cluster-cache miss fill returns from HBM and the line is filled. -/
  | cacheLineFill (cluster : ClusterId) (addr : BitVec 52) (upset : Upset)
  /-- CACHE_REMOVAL (R205): A line removal reaches a cluster cache after an HBM write and is acknowledged. -/
  | cacheRemoval (cluster : ClusterId) (addr : BitVec 52)
  /-- HBM_ACCESS (R212): An HBM controller performs an access with activate, bursts and close. -/
  | hbmAccess (addr : BitVec 52) (len : Nat) (write : Option (List Byte)) (upsets : List UpsetAt) (parityErrors : Nat)
  /-- HBM_REFRESH (R214): A per-bank refresh falls due and is issued. -/
  | hbmRefresh (pc : PcId) (bank : BitVec 6)
  /-- HBM_TEMP_READ (R214): The stack temperature is read every 1 ms and the refresh rate set. -/
  | hbmTempRead (stack : StackId) (celsius : BitVec 8)
  /-- RETRAIN_PASS (R221): A retraining pass over a stack's pseudo-channels starts on its period or a temperature change. -/
  | retrainPass (stack : StackId) (failed : List PcId)
  /-- PATROL_READ (R218): The patrol reads an HBM word in an idle cycle and corrects or logs it. -/
  | patrolRead (addr : BitVec 52) (first : Upset) (second : Upset)
  /-- NOC_STATS_CLEAR (R238): A write of 1 to NocStatsClear clears every initiator record. -/
  | nocStatsClear (via : Transport) (value : Byte)
  /-- PROBE_ARM (R239): A write of 1 to ProbeMode arms the probes and clears their counts and trace. -/
  | probeArm (via : Transport)
  /-- PROBE_DISARM (R239): A write of 0 to ProbeMode disarms the probes. -/
  | probeDisarm (via : Transport)
  /-- SAERI_READ (R285): A Saeri read request reaches its target and is checked against the exports. -/
  | saeriRead (pkt : SaeriPkt)
  /-- SAERI_WRITE (R285): A Saeri write request reaches its target and is performed. -/
  | saeriWrite (pkt : SaeriPkt)
  /-- SAERI_READ_DATA (R285): A Saeri read response returns to its source. -/
  | saeriReadData (pkt : SaeriPkt)
  /-- SAERI_WRITE_ACK (R285): A Saeri write acknowledgement returns to its source. -/
  | saeriWriteAck (pkt : SaeriPkt)
  /-- SAERI_FLAG_ADD (R251): A remote flag add arrives and is applied. -/
  | saeriFlagAdd (pkt : SaeriPkt)
  /-- SAERI_CARRY_PARTIAL (R259): A node carry partial or total arrives at a fabric reduction engine. -/
  | saeriCarryPartial (pkt : SaeriPkt)
  /-- SAERI_WEIGHT_ROW (R262): A weight row of a cross-device chain arrives from node PREV. -/
  | saeriWeightRow (pkt : SaeriPkt)
  /-- SAERI_MANAGEMENT (R362): A peer's dictionary transfer frame arrives. -/
  | saeriManagement (pkt : SaeriPkt)
  /-- QUIESCENCE_NOTICE (R151): A peer's quiescence notice is set or withdrawn. -/
  | quiescenceNotice (pkt : SaeriPkt)
  /-- ROUTE_SWITCH (R256): After outstanding requests are answered, the device switches to its new routes. -/
  | routeSwitch
  /-- LEAVE (R266): A write of 1 to Leave sends a leave notice on every port and stops the links. -/
  | leave (via : Transport) (value : Byte)
  /-- PEER_RESUME (R268): A write of a round number to PeerResume releases a held round for restart. -/
  | peerResume (via : Transport) (round : RoundNo)
  /-- PORT_ENABLE (R278): A write of 1 to PortEnable starts bring-up of a Saeri port. -/
  | portEnable (via : Transport) (port : PortId)
  /-- PORT_DISABLE (R278): A write of 0 to PortEnable disables the port at once. -/
  | portDisable (via : Transport) (port : PortId)
  /-- SIGNAL_DETECT (R278): Energy is present on all lanes for 1 µs and CDR lock begins. -/
  | signalDetect (port : PortId) (energy : LaneEnergy)
  /-- CDR_LOCK (R278): All eight lanes lock to their data. -/
  | cdrLock (lanes : PortLanes)
  /-- BIT_SLIP (R279): A write to BitSlip moves a lane's block boundary. -/
  | bitSlip (via : Transport) (lane : LaneId) (value : Byte)
  /-- BLOCK_LOCK (R279): A lane reaches 64 valid headers and enters block lock. -/
  | blockLock (lane : LaneId) (validHeaders : Nat)
  /-- BRINGUP_TIMEOUT (R278): A bring-up step exceeds its limit and the port goes down with its cause. -/
  | bringupTimeout (port : PortId) (elapsedNs : Nat)
  /-- MARK_RECEIVE (R273): A MARK block arrives and drives polarity, reversal, deskew and link start. -/
  | markReceive (lane : LaneId) (block : LineBlock) (skewBlocks : Nat)
  /-- LANE_LOCK_LOSS (R281): A lane loses block or CDR lock and takes its port down. -/
  | laneLockLoss (lane : LaneId) (cdr : Bool) (badHeaders : Nat)
  /-- FILL_RECEIVE (R275): A FILL block is deleted or repeated for rate matching. -/
  | fillReceive (lane : LaneId) (block : BufferedBlock)
  /-- IDLE_FRAME (R282): An idle link frame arrives, carrying ACK, NAK and credits. -/
  | idleFrame (port : PortId) (frame : RawFrame)
  /-- DATA_FRAME (R287): A data frame arrives, is checked and its packets are unpacked or it is discarded. -/
  | dataFrame (port : PortId) (frame : RawFrame)
  /-- LEAVE_NOTICE (R266): A leave notice frame arrives and the neighbour is treated as departed. -/
  | leaveNotice (port : PortId) (frame : RawFrame)
  /-- DEPARTURE_NOTICE (R267): A departure notice arrives; routes are recomputed and affected rounds abort with PEER_LOST. -/
  | departureNotice (port : PortId) (frame : RawFrame)
  /-- NAK_REPLAY (R288): A received NAK makes the sender resend every unacknowledged frame. -/
  | nakReplay (port : PortId) (ack : BitVec 12)
  /-- REPLAY_TIMEOUT (R288): The oldest frame waits 500 ns without acknowledgement and is resent. -/
  | replayTimeout (port : PortId) (waitedNs : Nat)
  /-- PORT_TIMEOUT (R267): A port receives no valid frame for 1 µs and goes down. -/
  | portTimeout (port : PortId) (silentNs : Nat)
  /-- LANE_TEST_START (R291): A write of 1 to LaneTest starts the PRBS31 test. -/
  | laneTestStart (via : Transport) (lane : LaneId)
  /-- LANE_TEST_END (R291): A write of 0 to LaneTest ends the test. -/
  | laneTestEnd (via : Transport) (lane : LaneId)
  /-- READ (R302): Fabric port READ reads bytes at an address. -/
  | read (core : CoreId) (cmd : FabWord)
  /-- WRITE (R302): Fabric port WRITE writes bytes at an address. -/
  | write (core : CoreId) (cmd : FabWord)
  /-- INJECT (R307): Fabric port INJECT appends a descriptor to a marked stream. -/
  | inject (core : CoreId) (cmd : FabWord)
  /-- INJECT_RESUME (R307): An INJECT that waited for a full ring is appended once a slot is released. -/
  | injectResume (core : CoreId)
  /-- TAKE (R308): Fabric port TAKE takes a handle from a ring of its core. -/
  | take (core : CoreId) (cmd : FabWord)
  /-- RELEASE (R309): Fabric port RELEASE returns a taken handle. -/
  | release (core : CoreId) (cmd : FabWord)
  /-- FLAGADD (R302): Fabric port FLAGADD adds to a local or remote flag. -/
  | flagadd (core : CoreId) (cmd : FabWord)
  /-- FABRIC_RESPONSE (R312): Fabric logic answers a delivered command: the response word, its upper half first, and its beats. -/
  | fabricResponse (core : CoreId) (upper lower : Word64) (beats : List Byte)
  /-- FABRIC_TIMEOUT (R312): A delivered command left unanswered at FabricTimeout is answered as reserved space. -/
  | fabricTimeout (core : CoreId) (tag : BitVec 6) (waited : Nat)
  /-- STATE_ENTRY (R373): An idle cluster reaches its hold time and enters its chosen power state. -/
  | stateEntry (cluster : ClusterId) (idleNs : Nat)
  /-- WAKE_REQUEST (R374): An event addressed to a sleeping cluster raises a wake request. -/
  | wakeRequest (cluster : ClusterId)
  /-- WAKE_SLOT_GRANT (R379): The wake ration grants a slot and the cluster begins its exit. -/
  | wakeSlotGrant (cluster : ClusterId) (sinceLastNs : Nat)
  /-- WAKE_COMPLETE (R372): A cluster's exit ends and it is in P0. -/
  | wakeComplete (cluster : ClusterId) (exitNs : Nat)
  /-- STATE_RECOMPUTE (R378): The chosen states are recomputed after a tolerance, enable, commit or WakeRation change. -/
  | stateRecompute
  /-- CAP_SAMPLE (R380): The power capper samples the rail currents every 1 µs. -/
  | capSample (milliWatts : Nat) (averageMw : Nat)
  /-- ALLOWANCE_STEP (R380): Every 10 µs the release allowance is lowered or raised for power or temperature. -/
  | allowanceStep (cluster : ClusterId) (celsius : Int)
  /-- MARGIN_MEASUREMENT (R382): A cluster idle for 10 µs has its ageing monitors measured. -/
  | marginMeasurement (cluster : ClusterId) (idleNs : Nat) (obs : Margin)
  /-- FORCED_MEASUREMENT (R382): MeasureInterval expires without a measurement and one is forced. -/
  | forcedMeasurement (cluster : ClusterId) (sinceHours : Nat) (obs : Margin)
  /-- REPLAN (R383): After a measurement the VDD_CORE setpoint and the trims are re-planned. -/
  | replan
  /-- SETPOINT_STEP (R383): The board setpoint moves one 5 mV step through the regulator bus. -/
  | setpointStep (acked : Bool)
  /-- ABORT_FRAME (R395): An abort frame on TALLY1 completes and every member aborts the round. -/
  | abortFrame (round : RoundNo) (final : Bool) (status : Byte) (stop : Bool)
  /-- COMMIT_VOTE (R400): A commit vote frame on TALLY0 completes and, if it succeeds, the round commits. -/
  | commitVote (round : RoundNo) (group : Byte) (vote : Bool) (stop : Bool)
  /-- RESTART_VOTE (R400): A restart vote frame on TALLY0 completes and, if it succeeds, the next attempt is fetched. -/
  | restartVote (round : RoundNo) (group : Byte) (vote : Bool) (stop : Bool)
  /-- TALLY1_STUCK (R397): TALLY1 reads 0 for 64 cycles; multi-device rounds abort and their restart is held. -/
  | tally1Stuck (lowCycles : Nat)
  /-- TALLY1_RECOVERED (R397): TALLY1 reads 1 for 64 cycles and the held rounds restart. -/
  | tally1Recovered (highCycles : Nat)
  /-- TALLY0_STUCK (R401): TALLY0 reads 0 for 64 cycles; multi-device rounds abort and their restart is held. -/
  | tally0Stuck (lowCycles : Nat)
  /-- TALLY0_RECOVERED (R401): TALLY0 reads 1 for 64 cycles and the hold ends. -/
  | tally0Recovered (highCycles : Nat)
  /-- SHADOW_ROW_LOAD (R53): The load engine of a chain head or unchained core writes one bead row of a weight tile into the shadow registers, checking its guard code. -/
  | shadowRowLoad (core : CoreId) (upset : Upset)
  /-- REFRESH_MANAGEMENT (R209): An HBM stack requests refresh management and its controller issues it. -/
  | refreshManagement (stack : StackId)
  /-- VBATT_REMOVAL (R323): VBATT is removed, and the battery-backed key is lost if VDD_IO is also absent. -/
  | vbattRemoval
  /-- CAN_ERROR_FRAME (R366): A CAN error frame is seen on the management bus and MgmtBusErrors grows by one, saturating. -/
  | canErrorFrame
  /-- LANE_TEST_ERROR (R291): A lane in test mode receives a PRBS31 bit in error and LaneTestErrors grows by one, saturating. -/
  | laneTestError (lane : LaneId)
deriving DecidableEq, Repr

end Sys2Proof
end

