-- ==== Sys2Proof/Config.lean ====
section
/-! DEFINITION. What one DX8 fixes at manufacture and what the manual leaves open. Every constant here is opaque: no proof can
see its value. -/

namespace Sys2Proof.Config

/-! ### Fixed at manufacture -/

/-- The grade is DX8-A16; otherwise DX8-A14 (R1). -/
opaque gradeA16 : Bool
/-- SiliconStep, a fuse (R366). -/
opaque siliconStep : BitVec 16
/-- SerialNumber, a fuse (R366). -/
opaque serialNumber : BitVec 64
/-- RepairMap of a core, a fuse (R71): by core and byte, row 0 first, what the spare replaces, if it is used. -/
opaque repairMap : Nat → Nat → Option (BitVec 6)
/-- The VDD_CORE setpoint fused at test, mV (R383). -/
opaque fusedSetpoint : Nat

/-! ### Free values -/

/-- EXP2 within its bound (R110): the manual gives no bits beyond the exact results. -/
opaque exp2 : Word → Word
/-- LOG2 within its bound (R110). -/
opaque log2 : Word → Word
/-- RCP within its bound (R110). -/
opaque rcp : Word → Word
/-- RSQ within its bound (R110). -/
opaque rsq : Word → Word
/-- TANH of a non-negative operand within its bound (R110). -/
opaque tanh : Word → Word
/-- A slate position that nothing has written in this descriptor (R101): by epoch and slate * 256 + position. -/
opaque slateContents : Nat → Nat → Word
/-- The beam entry that an INT32 overflow leaves (R81): it has no meaning. -/
opaque overflowEntry : Nat → Nat → Word
/-- A byte that a COPY writes where its views overlap (R157): by draw and address. -/
opaque overlapByte : Nat → Nat → Byte
/-- A beam entry after C3 (R372): by draw, row and column. -/
opaque lostBeam : Nat → Nat → Nat → Word
/-- Kind and tag of a beam row after C3: by draw and row. -/
opaque lostBeamKind : Nat → Nat → Bool × Nat
/-- What the frames of configuration memory declare (R294, R333): the manual gives no layout of their bits. -/
opaque designOf : List (Nat × List Byte) → Design
/-- `need` of R383 where the two slack readings are equal: present voltage, target, slack. -/
opaque needWithoutSlope : Int → Int → Int → Int
/-- What a core cycle brings that the manual leaves to the device (R201, R202, R208, R209, R216, R232): by draw. -/
opaque tick : Nat → Tick
/-- CK_NOC cycles that a read takes (R238): by initiator record and the bytes it has read before. -/
opaque readLatency : Nat → Nat → Nat
/-- The bits on a pin that the device does not drive, oldest first (R313): by draw and pin. -/
opaque padBits : Nat → Nat → BitVec 8
/-- A signal of a hardened block into the logic fabric: by draw and number. -/
opaque hardSignal : Nat → Nat → Bool
/-- A signal in a loop of look-up tables that no flip-flop cuts (R294): by draw. -/
opaque loopSignal : Nat → Bool
/-- Whether a flip-flop's set/reset acts only while its clock enable is 1 (R294). -/
opaque resetNeedsEnable : Bool
/-- Predicted hours of R385, from the slack trend: cluster, slack, measurements. -/
opaque predictedLife : Nat → Int → Nat → BitVec 32

end Sys2Proof.Config
end

