-- ==== Sys2Proof/Machine/State.lean ====
section
/-! DEFINITION. The state of the DX8 as plain data, the reasons a command can stop, and the state after reset.
Sparse tables list only what differs from a default that the reading operation names. -/

namespace Sys2Proof.Machine

/-- Names a descriptor: its stream and its ring slot. -/
structure DescKey where
  stream : Nat
  slot : Nat
deriving DecidableEq, Repr

/-! ### The Reckoner (R175 to R198) -/

/-- One register bank of a Reckoner (R175). Unlisted registers hold 0. `regs` is keyed by physical number. -/
structure Bank where
  regs : Table Word
  a0 : Acc
  a1 : Acc
  rot : BitVec 4
  sat : Bool
  pc : Word
deriving DecidableEq, Repr

/-- Whether a Reckoner is stopped, running or faulted (R185, R196). Idle and in patch are read from the other fields. -/
inductive RkMode where
  | stopped | running | faulted
deriving DecidableEq, Repr

/-- A core's Reckoner. Its data and instruction memories lie in the device's memory (R19). -/
structure Reckoner where
  main : Bank
  shadow : Bank
  mode : RkMode
  /-- The main bank is in WAIT. -/
  waiting : Bool
  /-- The shadow bank is in use. -/
  inShadow : Bool
  cause : Byte
  faultPc : BitVec 14
  abank : Bool
  /-- A swap that waits for idle, and the bank it names. -/
  swap : Option Bool
  /-- A stop that waits for idle. -/
  stopReq : Bool
deriving DecidableEq, Repr

/-! ### The engines of a core -/

/-- A beam row (R73): 64 entries, their kind and shift tag, the round that owns them (R75), whether the slate engine has
still to read them (R76), the descriptor that wrote them and the block they belong to. -/
structure BeamRow where
  isInt : Bool
  tag : Nat
  vals : List Word
  owner : Option RoundNo
  unread : Bool
  writer : Option DescKey
  blk : Nat
deriving DecidableEq, Repr

/-- A handle in a queue (R164): a buffer, the round that pushed it and whether that round has committed (R146). -/
structure Handle where
  buf : Nat
  round : RoundNo
  committed : Bool
deriving DecidableEq, Repr

/-- Who holds a buffer that is neither free nor queued (R164, R166, R309). -/
inductive Holder where
  /-- Taken by a producer that has not pushed it. -/
  | producer (d : DescKey) (round : RoundNo)
  /-- Taken by a consumer descriptor. -/
  | consumer (d : DescKey) (round : RoundNo)
  /-- Taken by the fabric port. -/
  | port (rvalid : Bool) (round : RoundNo) (released : Bool) (roundDone : Bool)
deriving DecidableEq, Repr

/-- A held buffer of a ring with the handle it was taken under. -/
structure Held where
  handle : Handle
  holder : Holder
deriving DecidableEq, Repr

/-- One handle ring of a core (R162 to R167). A buffer that is neither queued nor held is free. -/
structure Ring where
  queue : List Handle
  held : List Held
deriving DecidableEq, Repr

/-- The slate engine's work on one descriptor (R102, R115). -/
structure SlateJob where
  key : DescKey
  round : RoundNo
  isMat : Bool
  /-- The next step of the list. -/
  pc : Nat
  /-- The store cursor of a SLATE descriptor (R114). -/
  cursor : Nat
  /-- Values handed over that do not yet fill a byte group or a block. -/
  buffer : List Val
  /-- The block of a MATMUL epilogue, and its next unread row by position in the unmasked list. -/
  blk : Nat
  next : Nat
  /-- The side vectors of the block are loaded. -/
  loaded : Bool
  /-- Quarter and row (by position in the unmasked list) of every beam row this pass has read. -/
  reads : List (Nat × Nat)
deriving DecidableEq, Repr

/-- The slate engine (R99 to R118). `pos` is keyed by slate * 256 + position; an unlisted position holds an undefined value,
the free value of `epoch` (R101). -/
structure SlateEngine where
  job : Option SlateJob
  pos : Table Word
  epoch : Nat
deriving DecidableEq, Repr

/-- The walk of one MATMUL (R159, R82). -/
structure MatJob where
  key : DescKey
  round : RoundNo
  m : Nat
  n : Nat
  k : Nat
  batch : Nat
  /-- Beam rows of the window (R160). -/
  window : Nat
  base : Nat
  /-- The unmasked rows, rising (R59). -/
  rows : List Nat
  /-- It is on a weight chain. -/
  chained : Bool
  /-- N is not yet known: the tile headers have still to tell it (R158). -/
  nOpen : Bool
  /-- The weight format, 0 until the first tile of a chain member. -/
  wfmt : Nat
  afmt : Nat
  accumulate : Bool
  /-- The block whose tiles are being loaded or received. -/
  loadBlk : Nat
  /-- The reduction tile that is loaded next, the number of tiles where the pass is complete. -/
  loadTile : Nat
  /-- Bead rows of it already loaded. -/
  loadRow : Nat
  /-- The pass at the load side is a repeat pass (R84). -/
  repeating : Bool
  /-- The tile of block `loadBlk` that the attempt in progress needs next; any other tile is only passed on (R84). -/
  useTile : Nat
  /-- The block, tile and vector (by position in `rows`) released next. -/
  blk : Nat
  tile : Nat
  vec : Nat
  /-- Attempt at the block, 1 to 4 (R82), and the cycle in which its first vector was released. -/
  attempt : Nat
  began : Nat
  /-- The block has overflowed in this attempt. -/
  overflow : Bool
  /-- Blocks whose rows are final in this core's beam, and rows of the next block that are. -/
  finished : Nat
  rowsFinal : Nat
  /-- Passes over block `loadBlk` before the one at hand; what the devices downstream have reported of a block after a pass (whether they need
  another), and the reports sent upstream: block and pass (R84, R262). -/
  pass : Nat
  asks : List (Nat × Nat × Bool)
  told : List (Nat × Nat)
  /-- Carry partials received: block, row, position of the sender (R90). -/
  got : List (Nat × Nat × Nat)
  /-- Carry partials sent: block, row. -/
  sent : List (Nat × Nat)
  /-- Node totals received: block, row (R259). -/
  nodeDone : List (Nat × Nat)
  /-- Rows the epilogue has read, and whether it has ended. -/
  readRows : Nat
  stored : Bool
deriving DecidableEq, Repr

/-- A weight tile in the shadow or active registers: its MATMUL, its place, its output extent, its elements as scale and code, index
k * 64 + c, and whether every row is loaded. -/
structure TileLoad where
  key : DescKey
  blk : Nat
  tile : Nat
  oext : Nat
  full : Bool
  codes : List (Nat × Nat)
deriving DecidableEq, Repr

/-- A feeder queue (R54): the next vector it is to receive, counted over blocks, tiles and unmasked rows, and its entries. -/
structure Feeder where
  next : Nat
  entries : List (Nat × List Val)
deriving DecidableEq, Repr

/-- A vector in the array on its way to the beam: its MATMUL, its activations in order of k, and the tile it meets. -/
structure VecSlot where
  key : DescKey
  blk : Nat
  tile : Nat
  m : Nat
  /-- Discarded: the block overflowed before it arrived (R83). -/
  drop : Bool
  oext : Nat
  acts : List Val
  weights : List Val
deriving DecidableEq, Repr

/-- The bead array and its load side (R48 to R72). -/
structure ArrayEngine where
  job : Option MatJob
  /-- The MATMUL behind it, which the load engine already serves, and its feeder entries (R172). -/
  next : Option MatJob
  nextFeeders : Table Feeder
  /-- MATMULs whose blocks are final and whose rows the carry tree or the slate engine still reads, oldest first. -/
  waiting : List MatJob
  shadow : Option TileLoad
  active : Option TileLoad
  /-- Keyed by bead row. -/
  feeders : Table Feeder
  flight : List VecSlot
  /-- The beam holds the array (R56). -/
  hold : Bool
deriving DecidableEq, Repr

/-- Who issued a memory access and where its answer goes. -/
inductive Origin where
  | host
  | fabric (core : CoreId) (op : BitVec 4) (cmd : FabCmd)
  | noc (pkt : NocPacket)
  | saeri (pkt : SaeriPkt)
  /-- The load or store engine, or the core that reads view records, for a descriptor of an attempt. -/
  | engine (key : DescKey) (round : RoundNo) (attempt : Nat)
  /-- The Sequencer fetching for a stream. -/
  | fetch (stream : Nat)
  /-- The Sequencer writing a completion record of a stream (R141). -/
  | record (stream : Nat)
deriving DecidableEq, Repr

/-- A memory access as its initiator issued it: a read of `len` bytes, or a write of `data`. -/
structure Access where
  origin : Origin
  addr : Nat
  len : Nat
  data : Option (List Byte)
deriving DecidableEq, Repr

/-- A part of an access that one place serves: the access, where the part lies in it, and the part itself. -/
structure Part where
  id : Nat
  off : Nat
  addr : Nat
  len : Nat
  data : Option (List Byte)
deriving DecidableEq, Repr

/-- An access in progress: its parts not yet answered, the worst status so far, and the data read so far. -/
structure OpenAccess where
  id : Nat
  access : Access
  parts : Nat
  status : Status
  data : List Byte
deriving DecidableEq, Repr

/-- A core's fabric port (R301 to R312). -/
structure FabricPort where
  /-- Commands not yet answered, with their OP. -/
  outstanding : List (BitVec 4 × FabCmd)
  /-- Commands outstanding when the port was isolated: they complete, and their responses are discarded (R335). -/
  orphans : List (BitVec 4 × FabCmd)
  /-- INJECTs that wait for a full ring (R307). -/
  injects : List FabCmd
  /-- What the port has answered, oldest first. -/
  responses : List FabWord
  /-- Event words queued (R310). -/
  events : List (BitVec 128)
  /-- An event word was dropped since the last one delivered. -/
  lost : Bool
  /-- Accesses delivered into user space and not yet answered (R311): the command word and the part. -/
  delivered : List (BitVec 128 × Part)
deriving DecidableEq, Repr

/-- A tile that is arriving: its header and place, the bytes of its image so far, and the packet or row expected next (R229, R285). -/
structure TilePart where
  net : Bool
  tile : ChainTile
  bytes : List Byte
  next : Nat
deriving DecidableEq, Repr

/-- A core (R11): its Reckoner, slate engine, bead array, beam, handle rings, queues, chain and carry links, fabric port. -/
structure Core where
  rk : Reckoner
  slate : SlateEngine
  array : ArrayEngine
  /-- Unlisted rows hold +0 in FP32 with tag 0 (R73), or, after `beamLost`, undefined contents. -/
  beam : Table BeamRow
  /-- The beam was lost in C3 (R372): the draw of its free values. -/
  beamLost : Option Nat
  /-- Unlisted rings are empty with every buffer free. -/
  rings : Table Ring
  /-- Descriptors in the order the load engine takes them (R168). -/
  loadQ : List DescKey
  /-- Descriptors that await or are in a patch, oldest first (R188). -/
  patchQ : List DescKey
  /-- A tile on its way to the successor of a weight chain (R63). -/
  chainOut : Option ChainTile
  /-- Tiles that have arrived over the network or Saeri. -/
  chainIn : List ChainTile
  /-- Tiles that are arriving over the network or Saeri. -/
  chainParts : List TilePart
  /-- Descriptors delivered to this core. -/
  deliveries : Nat
  /-- Chain descriptors delivered: round, chain, how many (R424). -/
  chainOrd : List (RoundNo × Nat × Nat)
  /-- Carry descriptors delivered: round, group, how many (R91). -/
  carryOrd : List (RoundNo × Nat × Nat)
  carryIn : List CarryMsg
  /-- CoreHalt as it reads: 0, 1 or 2 (R96). -/
  halt : Nat
  port : FabricPort
deriving DecidableEq, Repr

/-! ### The Sequencer (R119 to R153) -/

/-- The stages of a descriptor (R136). -/
inductive Stage where
  | fetched
  | issued
  /-- Delivered with PATCH: the image waits for its patch or is in it. -/
  | patching
  /-- The patch has ended: the frozen image awaits its check (R190). -/
  | frozen
  /-- Checked: the first operand fetch may begin. -/
  | ready
  /-- The engines hold it. -/
  | running
  /-- Executed: its completion is due. -/
  | executed
  /-- Completed with its status. -/
  | completed
deriving DecidableEq, Repr

/-- A fetched descriptor. `image` holds its 128 bytes and, from delivery, the 320 bytes of R186. -/
structure Desc where
  key : DescKey
  round : RoundNo
  attempt : Nat
  /-- PHASE of the pass of its slot (R141). -/
  phase : Bool
  stage : Stage
  image : List Byte
  /-- The image as delivered, for the locked bytes of R187. -/
  original : List Byte
  status : Option Status
  sat : Bool
  resc : Bool
  under : Bool
  lane : Bool
  nSat : Nat
  nUnder : Nat
  nResc : Nat
  nLane : Nat
  inBuf0 : Option Nat
  inBuf1 : Option Nat
  outBuf : Option Nat
  /-- Bytes that have arrived for its reads of other nodes, of user space and of clusters that slept. -/
  remote : List Host.Cell
  chainOrd : Nat
  carryOrd : Nat
  /-- Its place among the descriptors delivered to its core. -/
  seq : Nat
  /-- The load engine has begun it (R96). -/
  begun : Bool
  recorded : Bool
deriving DecidableEq, Repr

/-- A slot that a restart refetches: its PHASE and the round it belongs to (R392). -/
structure Refetch where
  slot : Nat
  phase : Bool
  round : RoundNo
deriving DecidableEq, Repr

/-- A stream and its control block (R126). -/
structure Stream where
  ringBase : BitVec 52
  cplBase : BitVec 52
  size : BitVec 13
  enable : Bool
  tail : BitVec 16
  fetch : BitVec 16
  release : BitVec 16
  status : Byte
  tolerance : Word
  /-- PHASE of the pass at FETCH (R141). -/
  phase : Bool
  /-- The run in progress: the round whose ROUND_COMMIT it has not fetched (R427). -/
  run : Option RoundNo
  /-- Slots a restart refetches, oldest first (R392). -/
  refetch : List Refetch
  /-- Slots released out of order, ahead of RELEASE (R129). -/
  freed : List Nat
  /-- Holds a ROUND_OPEN that waits at fetch (R145, R239). -/
  openWait : Bool
  /-- Bytes that have arrived for its fetches, as for a descriptor. -/
  remote : List Host.Cell
  /-- A fetch that failed (R426). -/
  remoteStatus : Option Status
  /-- The latest INJECT appended to its ring: core cycle and core (R307). -/
  injected : Option (Nat × Nat)
deriving DecidableEq, Repr

/-- Why the restart of an aborted round is held (R268, R344, R397, R401). -/
inductive Hold where
  | none | peer | region | tally1 | tally0
deriving DecidableEq, Repr

/-- Where an open round stands (R145, R390 to R398). -/
inductive RoundPhase where
  /-- Running, unless a cause is set. -/
  | running
  /-- Aborted; its increments await subtraction (R134). -/
  | aborted
  /-- Restored: it may restart. -/
  | restored
deriving DecidableEq, Repr

/-- A run of a round in one stream: its first slot, its ROUND_COMMIT slot once fetched, and whether its fetch at FETCH has failed, so
that a restart fetches that slot too (R426). -/
structure Run where
  stream : Nat
  first : Nat
  commitSlot : Option Nat
  stuck : Bool
deriving DecidableEq, Repr

/-- An increment that a completion-time signal has added (R134). -/
structure Incr where
  node : NodeId
  flag : FlagId
  amount : Word
deriving DecidableEq, Repr

/-- An open round (R144 to R153). `settings` is the dictionary as it stood at the open (R355). -/
structure Round where
  number : RoundNo
  rslot : Nat
  rrec : Nat
  peerGroup : Nat
  inputs : List (Nat × Nat)
  streams : Nat
  runs : List Run
  attempt : Nat
  settings : Table (List Byte)
  phase : RoundPhase
  /-- The cause detected and not yet acted on (R8, R395). -/
  cause : Option Status
  /-- Nodes with which the present attempt has had Saeri transactions (R267). -/
  nodesUsed : List NodeId
  /-- The core cycle in which it was detected (R8). -/
  causeAt : Nat
  /-- A program fault or control status detected in a later cycle: it ends the round after the abort (R392). -/
  later : Option Status
  /-- Status with which the latest attempt aborted (R306). -/
  lastStatus : Option Status
  /-- Attempts that have aborted and the status of each, latest first (R306). -/
  endings : List (Nat × Status)
  /-- Descriptors of the aborted attempt that were never delivered (R136). -/
  undelivered : List DescKey
  /-- Descriptors of the aborted attempt whose records were written (R143). -/
  recorded : List DescKey
  hold : Hold
  increments : List Incr
  /-- Regions the attempt depends on: a partition, 0 for the static region (R334). -/
  deps : List Nat
  /-- Regions a held restart waits for (R344). -/
  waitRegions : List Nat
deriving DecidableEq, Repr

/-- Increments of an ended attempt that await subtraction (R134). -/
structure Restore where
  round : RoundNo
  rslot : Nat
  increments : List Incr
deriving DecidableEq, Repr

/-! ### Memory side -/

/-- A cluster: its power state, cache, held accesses and ageing data (R203, R372, R382). -/
structure Cluster where
  /-- 0 P0, 1 C1, 2 C2, 3 C3. -/
  state : Nat
  /-- In C3 without retention. -/
  noRetention : Bool
  chosen : Nat
  rank : Nat
  /-- A wake is pending. -/
  wake : Bool
  /-- Its wake slot has been granted. -/
  granted : Bool
  /-- Release allowance of the capper, 1 to 16 (R380). -/
  capAllowance : Nat
  /-- Thermal allowance by steps, 1 to 16 (R381); at 105 °C it counts as 0. -/
  allowance : Nat
  /-- It has reached 100 °C and not yet come down to 98 °C. -/
  cooling : Bool
  celsius : Int
  /-- Cache part: set to its lines, most recently used first. -/
  cache : Table (List Nat)
  /-- Lines that misses have asked for and that have not yet returned (R204). -/
  fills : List Nat
  /-- Words of lines in the cache part, by HBM address / 16, that hold an error: whether it cannot be corrected (R208). -/
  cacheErrors : List (Nat × Bool)
  /-- Accesses that wait for P0 (R23). -/
  waiting : List Part
  trim : Int
  limit : Bool
  slack : Int
  slackLow : Int
  forced : Bool
  ringOsc : Nat
  measurements : Nat
  /-- TIMESTAMP of the first measurement. -/
  firstTime : Nat
deriving DecidableEq, Repr

/-- An entry of HbmErrorLog (R217). -/
structure HbmLogEntry where
  addr : Nat
  pc : Nat
  source : Nat
  time : Nat
deriving DecidableEq, Repr

/-- The last access of an HBM controller (R210, R212). -/
structure HbmLast where
  pc : Nat
  bank : Nat
  row : Nat
  column : Nat
  status : Status
  data : List Byte
deriving DecidableEq, Repr

/-- The HBM3E controllers (R209 to R222). -/
structure Hbm where
  trained : Bool
  /-- Failed pseudo-channels, rising. -/
  failed : List Nat
  /-- Stack temperatures as the stacks report them, two's complement. -/
  temps : Table Byte
  /-- Temperature at the last retraining pass. -/
  passTemps : Table Byte
  /-- TIMESTAMP at the last retraining pass. -/
  passTimes : Table Nat
  /-- Consecutive failed passes of a pseudo-channel. -/
  passFails : Table Nat
  /-- Refreshes issued: pseudo-channel * 64 + bank. -/
  refreshes : Table Nat
  /-- Refresh-management commands issued, by stack. -/
  managed : Table Nat
  log : List HbmLogEntry
  mapLocked : Bool
  last : Option HbmLast
  /-- Accesses that wait for the end of training (R219). -/
  waiting : List Part
deriving DecidableEq, Repr

/-! ### Network -/

/-- An initiator record (R238). -/
structure InitStats where
  read : Nat
  written : Nat
  bins : Table Nat
deriving DecidableEq, Repr

/-- An entry of the probe trace (R240). -/
structure TraceEntry where
  control : BitVec 128
  cycle : Nat
  probe : Nat
deriving DecidableEq, Repr

/-- The on-chip network (R223 to R241). -/
structure Noc where
  /-- Packets in the network, in the order they were sent. -/
  flight : List NocPacket
  /-- Packets that wait before a draining bundle (R233). -/
  held : List NocPacket
  /-- Requests served whose response has not yet reached its initiator (R230). -/
  outstanding : List NocPacket
  /-- Responses handed to their initiators, oldest first. -/
  received : List NocPacket
  /-- Removed links, by bundle byte of LinkHealth. -/
  health : Table Byte
  /-- Links that leave their bundle once it has drained: bundle and link. -/
  draining : List (Nat × Nat)
  /-- Initiator records: core * 3 + (0 load, 1 store, 2 fabric), 384 + cluster, 400 + port, 416 to 419 host, configuration,
  management, scrubber. -/
  stats : Table InitStats
  trace : List TraceEntry
deriving DecidableEq, Repr

/-! ### Saeri -/

/-- What an outstanding Saeri request is for. -/
inductive SaeriUse where
  | part (p : Part)
  /-- A flag add, and the fabric-port command that it answers. -/
  | flagAdd (reply : Option (CoreId × FabCmd))
  /-- A completion-time signal of a descriptor of an attempt (R133). -/
  | signal (key : DescKey) (round : RoundNo) (attempt : Nat)
  /-- A subtraction for an aborted attempt (R134). -/
  | restore (round : RoundNo) (rslot : Nat)
deriving DecidableEq, Repr

/-- An outstanding Saeri request. -/
structure SaeriReq where
  tag : BitVec 12
  node : NodeId
  len : Nat
  use : SaeriUse
  /-- The port it was sent by, once it has left. -/
  port : Option Nat
deriving DecidableEq, Repr

/-- A row that the fabric reduction engine combines (R259): its own value, the levels received, whether it was sent. -/
structure NodeRow where
  group : Nat
  round : RoundNo
  ordinal : Nat
  blk : Nat
  row : Nat
  core : Nat
  isInt : Bool
  tag : Nat
  vals : List Word
  levels : Nat
  sentUp : Bool
  /-- Nodes that sent a partial, to which the total returns. -/
  children : List NodeId
  /-- Nodes asked for their row. -/
  asked : List NodeId
deriving DecidableEq, Repr

/-- The Saeri fabric (R242 to R269). -/
structure Saeri where
  /-- NodeState bytes by node ID; unlisted is unknown. -/
  nodeState : Table Byte
  departed : List NodeId
  outstanding : List SaeriReq
  nextTag : BitVec 12
  /-- Packets that wait at their port for a credit: port and packet. -/
  queue : List (Nat × SaeriPkt)
  /-- A new topology waits for outstanding requests (R256). -/
  switching : Bool
  /-- Topology and PortRole that the routes follow. -/
  routeTopo : List Byte
  routeRole : List Byte
  /-- Requests held while routes switch. -/
  heldOut : List SaeriPkt
  /-- Packets delivered to this node and not yet served, with the port whose slot they hold. -/
  inbox : List (Nat × SaeriPkt)
  /-- Leave and departure notices handed to the ports: port, frame type, node. -/
  noticesOut : List (Nat × Nat × NodeId)
  /-- Quiescence notices set by peers: round and node (R151). -/
  notices : List (RoundNo × NodeId)
  rows : List NodeRow
  /-- Rows that the nodes above have asked for (R259): round, node, group, row ordinal. -/
  rowAsks : List (RoundNo × NodeId × Nat × Nat)
  /-- Packets for other nodes that wait here, with the port whose receive slot each holds (R286). -/
  transit : List (Nat × SaeriPkt)
  /-- Neighbours to which frames of a port that went down are sent again before anything new (R289). -/
  recovering : List NodeId
  left : Bool
deriving DecidableEq, Repr

/-- A data frame in the replay buffer (R288). -/
structure SentFrame where
  seq : BitVec 12
  words : List (BitVec 128)
  /-- The packets with words in it. -/
  packets : List SaeriPkt
  /-- The first of them began in the frame before. -/
  cont : Bool
  sends : Nat
deriving DecidableEq, Repr

/-- A Saeri port (R278 to R293). -/
structure Port where
  enabled : Bool
  step : Nat
  cause : Nat
  reversed : Bool
  inverted : Byte
  txSeq : BitVec 12
  rxSeq : BitVec 12
  nak : Bool
  replay : List SentFrame
  /-- Credits held for management, response, request, weight. -/
  crMg : Nat
  crRs : Nat
  crRq : Nat
  crWt : Nat
  /-- Receive slots in use, by class. -/
  inUse : Table Nat
  /-- Credits to be returned, by class (R286). -/
  owed : Table Nat
  /-- Words of a packet whose other words have not arrived (R285). -/
  rxWords : List (BitVec 128)
  /-- The header word of the frame sent last (R282). -/
  sentHeader : BitVec 128
  peerNode : NodeId
  peerPort : Nat
  /-- Consecutive MARK periods with RXREADY and consistent NODE and PORT. -/
  readyMarks : Nat
  /-- PERIOD of the last of them. -/
  readyPeriod : Nat
deriving DecidableEq, Repr

/-- A serial lane (R270 to R291). -/
structure Lane where
  signal : Bool
  cdr : Bool
  lock : Bool
  /-- Block boundary in bits, as slipped. -/
  boundary : Nat
  /-- Peaking in force since the port's last enable (R276). -/
  peaking : Nat
  /-- The lane's latest MARK: node, port, lane, period, ready; and whether it was inverted. -/
  mark : Option (Nat × Nat × Nat × Nat × Bool × Bool)
  marks : Nat
  deleted : Nat
  repeated : Nat
  test : Bool
  testErrors : Nat
deriving DecidableEq, Repr

/-! ### Configuration -/

/-- A configuration frame in memory (R318, R343). -/
structure Frame where
  bytes : List Byte
  bad : Bool
  encrypted : Bool
deriving DecidableEq, Repr

/-- Who writes to ConfigStream: a transport, and the transfer on it. -/
abbrev StreamWriter := Transport × Option Byte

/-- What a writer of ConfigStream has brought (R340, R365): bytes short of a whole unit, bytes still to come of a stream whose load has ended,
which are discarded, and whether all the rest is. -/
structure Feed where
  who : StreamWriter
  bytes : List Byte
  skip : Nat
  spent : Bool
deriving DecidableEq, Repr

/-- A load in progress (R319 to R340). -/
structure Load where
  src : LoadSource
  /-- The writer of ConfigStream that brings it. -/
  feeder : Option StreamWriter
  kind : Nat
  keySrc : Nat
  partition : Nat
  frames : Nat
  die : Nat
  region : Nat
  colLo : Nat
  colHi : Nat
  iv : List Byte
  header : List Byte
  designId : Word64
  /-- Columns are being cleared. -/
  clearing : Bool
  /-- Frame records taken. -/
  taken : Nat
  /-- The load has failed; what remains is discarded. -/
  failed : Nat
  /-- Running GHASH value (R320). -/
  hash : BitVec 128
  /-- Frames this load has written. -/
  written : List Nat
deriving DecidableEq, Repr

/-- The I/O cell of a pin or pair (R314): the word that its serialiser sends or the level it holds, whether it drives, the bits that the
deserialiser has received, the last 16, oldest first, and how far its word is slipped. -/
structure IoCell where
  word : BitVec 8
  drives : Bool
  window : BitVec 16
  /-- What the pin carried last. -/
  line : BitVec 8
  slip : Nat
deriving DecidableEq, Repr

/-- The logic fabric (R294, R314). A flip-flop that is not listed holds its initial value. -/
structure Logic where
  /-- By block * 8 + cell. -/
  flops : Table Bool
  io : Table IoCell
deriving DecidableEq, Repr

/-- An entry of ScrubLog (R345). -/
structure ScrubEntry where
  frame : Nat
  word : Nat
  partition : Nat
  time : Nat
deriving DecidableEq, Repr

/-- The configuration controller and the scrubbers (R316 to R348). -/
structure Cfg where
  state : Nat
  result : Nat
  phase : Nat
  fallback : Bool
  /-- The full load from the source that CFG_MODE selects has begun (R326). -/
  started : Bool
  /-- The fallback stream is being read. -/
  second : Bool
  load : Option Load
  loadResult : Nat
  feeds : List Feed
  frames : Table Frame
  design : Design
  designIds : Table Word64
  /-- Region state by partition: state, cause; 0 is the static region. -/
  regions : Table (Nat × Nat)
  /-- The last full stream was encrypted (R346). -/
  fullEncrypted : Bool
  /-- Partitions whose present columns an encrypted partial load has filled (R346). -/
  encryptedParts : List Nat
  /-- ICP_STATUS shown for the load that ended last (R341). -/
  icpStatus : Option Byte
  scrubLog : List ScrubEntry
  /-- Next frame of each die's pass. -/
  scrubAt : Table Nat
deriving DecidableEq, Repr

/-! ### Dictionary -/

/-- An active transfer (R363, R364). -/
structure Transfer where
  via : Transport
  tid : Byte
  index : BitVec 16
  sub : Byte
  write : Bool
  /-- Write: the length announced, and the bytes so far. Read: the whole value. -/
  len : Nat
  data : List Byte
  /-- Next segment expected or sent. -/
  next : Nat
deriving DecidableEq, Repr

/-- The dictionary's transports (R359 to R365). -/
structure Dict where
  lastAbort : Word64
  transfers : List Transfer
  /-- Frames for the clients, oldest first. -/
  out : List (Transport × TFrame)
  /-- The mailbox's request buffer; unlisted bytes are 0. -/
  request : Table Byte
  response : List Byte
deriving DecidableEq, Repr

/-! ### Power, Tally bus, pins -/

/-- The capper and the regulator (R380, R383, R384). -/
structure Power where
  /-- 100 µs average of package power, mW. -/
  average : Nat
  /-- Last 1 µs sample, mW. -/
  sample : Nat
  /-- Board setpoint in force, mV. -/
  setpoint : Nat
  /-- Vb that the last re-plan wants, mV. -/
  target : Nat
  /-- Trims of the last re-plan that are not yet in force, by cluster. -/
  newTrims : Table Int
  writeFailed : Bool
  tries : Nat
  replanTime : Nat
  /-- RegulatorBus and MeasureInterval as the last re-plan took them (R387). -/
  bus : Nat
  interval : Nat
deriving DecidableEq, Repr

/-- An entry of FaultLog (R406). -/
structure FaultEntry where
  round : RoundNo
  status : Status
  attempt : Nat
  outcome : Nat
  time : Nat
deriving DecidableEq, Repr

/-- The Tally bus side of a device (R394 to R401). -/
structure Tally where
  stuck1 : Bool
  stuck0 : Bool
  /-- Abort frames that wait for the bus: round, FINAL, status. -/
  frames : List (RoundNo × Bool × Status)
deriving DecidableEq, Repr

/-- Clocks, resets and pins (R330, R371, R381, R413 to R421). -/
structure Pins where
  /-- The rails are up. -/
  powered : Bool
  /-- The device releases DONE. -/
  doneReleased : Bool
  /-- THERM_TRIP_N is driven low. -/
  thermTrip : Bool
  straps : Straps
  pllLocked : Bool
  clocks : Bool
  /-- The management controller runs on its own oscillator. -/
  oscillator : Bool
  resetCause : Nat
  vddIo : Bool
  vbatt : Bool
  /-- Resets of the PCIe configuration space so far. -/
  pcieResets : Nat
deriving DecidableEq, Repr

/-- What the host port answers (R402): the status and the data of a read. -/
structure HostReply where
  status : Status
  data : List Byte
deriving DecidableEq, Repr

/-- What is blown once and kept for good: the security fuses of R324 and the eFuse key of R323. -/
structure Fuses where
  security : BitVec 6
  efuseKey : Option (List Byte)
deriving DecidableEq, Repr

/-- The device, less its fuses and the queue of commands. -/
structure Dev where
  /-- Bytes of HBM, scratch, tile and Reckoner memory by device-local address (R18), in the canonical form of `memWf`. An
  unlisted byte reads 0 (R425, R219, R196, R206). -/
  mem : List Host.Cell
  /-- Guard-code words (address / 16) that hold an uncorrectable error. -/
  badWords : List Nat
  /-- Guard-code words that hold a correctable error which no check has met yet. -/
  latent : List Nat
  /-- Objects in force, key index * 256 + subindex; unlisted objects hold their default. -/
  objs : Table (List Byte)
  /-- Staging copies; an unlisted field equals the value in force. -/
  staging : Table (List Byte)
  /-- Objects (index * 256 + subindex) whose storage holds an uncorrectable error (R357). -/
  badObjs : List Nat
  /-- Counters of the status objects, same keys; unlisted counters are 0. -/
  counters : Table Nat
  flags : Table Word
  streams : Table Stream
  descs : List Desc
  rounds : List Round
  restores : List Restore
  cores : Table Core
  clusters : Table Cluster
  hbm : Hbm
  noc : Noc
  saeri : Saeri
  ports : Table Port
  lanes : Table Lane
  cfg : Cfg
  logic : Logic
  /-- The battery-backed key (R323): kept across every reset, lost when VDD_IO and VBATT are both absent. -/
  bbramKey : Option (List Byte)
  dict : Dict
  power : Power
  tally : Tally
  pins : Pins
  hostOut : List HostReply
  accesses : List OpenAccess
  /-- Number of the next access. -/
  nextAccess : Nat
  faultLog : List FaultEntry
  deadlockRecord : List Byte
  /-- CK_CORE cycles since device reset (R125). -/
  cycles : Nat
  /-- Counts the free values drawn so far: the model's own field, no state of the manual. -/
  draws : Nat
deriving DecidableEq, Repr

/-- The machine: the commands that wait, first in first out; what survives a reset; the device. -/
structure State where
  pending : List Instr
  fuses : Fuses
  dev : Dev
deriving DecidableEq, Repr

/-- The reasons a command can fault. The DX8 has none: every command of the table takes a next state, so the one constructor
is raised by nothing (safe). -/
inductive Fault where
  /-- Raised by nothing: no rule of the manual stops the device for good on a command (safe). -/
  | never
deriving DecidableEq, Repr

/-- The reasons the model can refuse a command. -/
inductive Refusal where
  /-- Raised by an arm of `exec` that has no meaning yet (safe). -/
  | notModelled (mnemonic : String)
deriving DecidableEq, Repr

/-! ### Reset -/

/-- Every register, both accumulators, ROT, SAT and the PC 0. (DESIGN CHOICE, log entry 13) -/
def Bank.reset : Bank := { regs := [], a0 := 0, a1 := 0, rot := 0, sat := false, pc := 0 }

/-- After device reset every Reckoner is stopped and bank 0 is active (R196). -/
def Reckoner.reset : Reckoner :=
  { main := Bank.reset, shadow := Bank.reset, mode := .stopped, waiting := false, inShadow := false, cause := 0, faultPc := 0,
    abank := false, swap := none, stopReq := false }

/-- A beam row after device reset: +0 in FP32 with tag 0 (R73). -/
def BeamRow.reset : BeamRow :=
  { isInt := false, tag := 0, vals := List.replicate 64 0, owner := none, unread := false, writer := none, blk := 0 }

def Ring.reset : Ring := { queue := [], held := [] }

def FabricPort.reset : FabricPort :=
  { outstanding := [], orphans := [], injects := [], responses := [], events := [], lost := false, delivered := [] }

def ArrayEngine.reset : ArrayEngine :=
  { job := none, next := none, nextFeeders := [], waiting := [], shadow := none, active := none, feeders := [], flight := [], hold := false }

def Core.reset : Core :=
  { rk := Reckoner.reset, slate := { job := none, pos := [], epoch := 0 }, array := ArrayEngine.reset, beam := [], beamLost := none, rings := [],
    loadQ := [], patchQ := [], chainOut := none, chainIn := [], chainParts := [], deliveries := 0, chainOrd := [], carryOrd := [], carryIn := [],
    halt := 0, port := FabricPort.reset }

/-- The reset values of a stream control block (R126). -/
def Stream.reset : Stream :=
  { ringBase := 0, cplBase := 0, size := 0, enable := false, tail := 0, fetch := 0, release := 0, status := 0,
    tolerance := 0xFFFFFFFF, phase := true, run := none, refetch := [], freed := [], openWait := false, remote := [], remoteStatus := none,
    injected := none }

/-- A cluster after device reset. Temperature and ageing readings have no reset value in the manual.
(DESIGN CHOICE, log entry 12) -/
def Cluster.reset : Cluster :=
  { state := 0, noRetention := false, chosen := 0, rank := 0, wake := false, granted := false, capAllowance := 16, allowance := 16, cooling := false, celsius := 0,
    cache := [], fills := [], cacheErrors := [], waiting := [], trim := 0, limit := false, slack := 0, slackLow := 0, forced := false, ringOsc := 0,
    measurements := 0, firstTime := 0 }

/-- Untrained, no temperature reported yet. (DESIGN CHOICE, log entry 12) -/
def Hbm.reset : Hbm :=
  { trained := false, failed := [], temps := [], passTemps := [], passTimes := [], passFails := [], refreshes := [], managed := [], log := [],
    mapLocked := false, last := none, waiting := [] }

def Noc.reset : Noc := { flight := [], held := [], outstanding := [], received := [], health := [], draining := [], stats := [], trace := [] }

/-- PortRole and Topology default to all 0xFF and to kind 0 with N 0 (R269). -/
def Saeri.reset : Saeri :=
  { nodeState := [], departed := [], outstanding := [], nextTag := 0, queue := [], switching := false, routeTopo := [0, 0, 0],
    routeRole := List.replicate 32 0xFF, heldOut := [], inbox := [], noticesOut := [], notices := [],
    rows := [], rowAsks := [], transit := [], recovering := [], left := false }

/-- A port after reset is disabled with every field 0 (R292). A sender starts with the 16 credits of R286 per class. -/
def Port.reset : Port :=
  { enabled := false, step := 0, cause := 0, reversed := false, inverted := 0, txSeq := 0, rxSeq := 0, nak := false, replay := [],
    crMg := 16, crRs := 16, crRq := 16, crWt := 16, inUse := [], owed := [], rxWords := [], sentHeader := 0,
    peerNode := 0xFFF, peerPort := 0, readyMarks := 0, readyPeriod := 0 }

/-- A lane that has seen nothing. (DESIGN CHOICE, log entry 13) -/
def Lane.reset : Lane :=
  { signal := false, cdr := false, lock := false, boundary := 0, peaking := 8, mark := none, marks := 0, deleted := 0,
    repeated := 0, test := false, testErrors := 0 }

def Design.empty : Design := { partitions := [], claims := [], clockDiv := [], blocks := [], banks := [], tallyDrivers := [] }

def Cfg.reset : Cfg :=
  { state := 0, result := 0, phase := 0, fallback := false, started := false, second := false, load := none, loadResult := 0, feeds := [],
    frames := [], design := Design.empty, designIds := [], regions := [], fullEncrypted := false, encryptedParts := [],
    icpStatus := none, scrubLog := [], scrubAt := [] }

/-- An I/O cell that no clock has reached yet. (DESIGN CHOICE, log entry 13) -/
def IoCell.reset : IoCell := { word := 0, drives := false, window := 0, line := 0, slip := 0 }

/-- Every flip-flop holds its initial value (R294). -/
def Logic.reset : Logic := { flops := [], io := [] }

def Dict.reset : Dict :=
  { lastAbort := 0, transfers := [], out := [], request := [], response := [] }

/-- VDD_CORE starts at 800 mV (R420). (DESIGN CHOICE, log entry 12) -/
def Power.reset : Power :=
  { average := 0, sample := 0, setpoint := 800, target := 800, newTrims := [], writeFailed := false, tries := 0,
    replanTime := 0, bus := 1, interval := 24 }

def Tally.reset : Tally := { stuck1 := false, stuck0 := false, frames := [] }

/-- The pins right after a power-on reset (R330, R416, R417): DONE low, straps read as 0. (DESIGN CHOICE, log entry 10) -/
def Pins.reset : Pins :=
  { powered := true, doneReleased := false, thermTrip := false, straps := { tclkSource := false, cfgMode := 0, mgtAddr := 0 },
    pllLocked := false, clocks := false, oscillator := false, resetCause := 0, vddIo := true, vbatt := true,
    pcieResets := 0 }

/-- The device right after device reset (R352). -/
def Dev.reset : Dev :=
  { mem := [], badWords := [], latent := [], objs := [], staging := [], badObjs := [], counters := [], flags := [], streams := [], descs := [], rounds := [],
    restores := [], cores := [], clusters := [], hbm := Hbm.reset, noc := Noc.reset, saeri := Saeri.reset, ports := [], lanes := [],
    cfg := Cfg.reset, logic := Logic.reset, bbramKey := none, dict := Dict.reset, power := Power.reset,
    tally := Tally.reset, pins := Pins.reset, hostOut := [], accesses := [], nextAccess := 0,
    faultLog := [], deadlockRecord := [], cycles := 0, draws := 0 }

/-- The machine right after reset: an empty queue, unblown fuses and no keys (DESIGN CHOICE for a part as it leaves test), the
device reset. (DESIGN CHOICE, log entry 11) -/
def State.reset : State :=
  { pending := [], fuses := { security := 0, efuseKey := none }, dev := Dev.reset }

end Sys2Proof.Machine
end

