-- ==== Sys2Proof/Machine/Bits.lean ====
section
/-! DEFINITION. Bytes, fields and sparse tables: the byte order of R3, bit fields, and the tables the state is held in. -/

namespace Sys2Proof.Machine

/-- The `n` bytes of `v`, byte 0 first (R3). -/
def leBytes : Nat → Nat → List Byte
  | 0, _ => []
  | n + 1, v => BitVec.ofNat 8 v :: leBytes n (v / 256)

/-- The number that little-endian bytes hold (R3). -/
def leNat : List Byte → Nat
  | [] => 0
  | b :: t => b.toNat + 256 * leNat t

/-- `n` bytes of `l` from byte `i`; bytes beyond its end read 0. -/
def slice (l : List Byte) (i n : Nat) : List Byte :=
  (List.range n).map fun j => l.getD (i + j) 0

/-- The little-endian number in `n` bytes of `l` from byte `i`. -/
def field (l : List Byte) (i n : Nat) : Nat := leNat (slice l i n)

/-- Bits [hi:lo] of a number. -/
def bits (v hi lo : Nat) : Nat := v / 2 ^ lo % 2 ^ (hi + 1 - lo)

/-- Bit [i] of a number. -/
def bit (v i : Nat) : Bool := v / 2 ^ i % 2 == 1

/-- `l` with the bytes `b` from index `i` on; bytes beyond its end are dropped. -/
def patchBytes (l : List Byte) (i : Nat) (b : List Byte) : List Byte :=
  (List.range l.length).map fun j => if i ≤ j ∧ j < i + b.length then b.getD (j - i) 0 else l.getD j 0

/-- A signed number from its `w` low bits. -/
def signed (w v : Nat) : Int := if v % 2 ^ w < 2 ^ (w - 1) then (v % 2 ^ w : Nat) else (v % 2 ^ w : Nat) - (2 ^ w : Nat)

/-- The `w`-bit two's complement code of an integer. -/
def unsigned (w : Nat) (i : Int) : Nat := (i % (2 ^ w : Nat)).toNat

/-- Rounds `m / 2^k` half to even (R5). -/
def rneShift (m k : Nat) : Nat :=
  let q := m / 2 ^ k
  let r := m % 2 ^ k
  if 2 * r > 2 ^ k then q + 1 else if 2 * r = 2 ^ k ∧ 0 < k then q + q % 2 else q

/-- Rounds an integer divided by `2^k` half to even (R5). -/
def rneShiftInt (i : Int) (k : Nat) : Int := if i < 0 then -(rneShift i.natAbs k : Nat) else (rneShift i.natAbs k : Nat)

/-- ⌈a / b⌉. -/
def ceilDiv (a b : Nat) : Nat := (a + b - 1) / b

/-! ### Sparse tables -/

/-- The value a table lists for a key. -/
def tabFind {α : Type} : Table α → Nat → Option α
  | [], _ => none
  | (k', v) :: t, k => if k' = k then some v else tabFind t k

/-- The value of a key, `d` where the table lists none. -/
def tabGet {α : Type} (d : α) (t : Table α) (k : Nat) : α := (tabFind t k).getD d

/-- A table without a key. -/
def tabErase {α : Type} (t : Table α) (k : Nat) : Table α := t.filter fun e => e.1 ≠ k

/-- An entry put before the first greater key. -/
def tabInsert {α : Type} (k : Nat) (v : α) : Table α → Table α
  | [] => [(k, v)]
  | (k', v') :: t => if k < k' then (k, v) :: (k', v') :: t else (k', v') :: tabInsert k v t

/-- A table with the value of one key replaced. -/
def tabSet {α : Type} (t : Table α) (k : Nat) (v : α) : Table α := tabInsert k v (tabErase t k)

end Sys2Proof.Machine
end

