-- ==== Sys2Proof/Machine/Objects.lean ====
section
/-! DEFINITION. The objects of the dictionary: type, access right and default of every index and subindex (R349 to R351, R366,
R367 and the object table of each chapter). -/

namespace Sys2Proof.Machine

/-- The types of R351. -/
inductive OType where
  | unsigned (bytes : Nat)
  | real32
  | boolean
  /-- An OCTET_STRING of one length. -/
  | octets (n : Nat)
  /-- An OCTET_STRING whose length depends on its contents (R354). -/
  | octetsVar
  | domain
deriving DecidableEq, Repr

/-- The access rights of R349. -/
inductive OAccess where
  | ro | rw | wo | const | staged
deriving DecidableEq, Repr

/-- What the dictionary fixes about an object. -/
structure OInfo where
  type : OType
  access : OAccess
  dflt : List Byte
deriving DecidableEq, Repr

/-- Size in bytes of a value of a fixed-size type; none for strings and domains (R351, R359). -/
def OType.size : OType → Option Nat
  | .unsigned n => some n
  | .real32 => some 4
  | .boolean => some 1
  | _ => none

/-- The lengths a write of this type may have (R351, R354). -/
def OType.lengthOk (t : OType) (n : Nat) : Bool :=
  match t with
  | .unsigned k => n == k
  | .real32 => n == 4
  | .boolean => n == 1
  | .octets k => n == k
  | .octetsVar => n ≤ 65535
  | .domain => true

/-- One row of the object tables: an index (range), its subindices, and the object. -/
structure ORow where
  index : Nat
  lastIndex : Nat
  lo : Nat
  hi : Nat
  info : OInfo
deriving DecidableEq, Repr

/-- An unsigned object of `n` bytes. -/
def rowNum (i lo hi n : Nat) (a : OAccess) (v : Nat) : ORow :=
  { index := i, lastIndex := i, lo := lo, hi := hi, info := { type := .unsigned n, access := a, dflt := leBytes n v } }
/-- A write-only Boolean. -/
def rowAction (i s : Nat) : ORow :=
  { index := i, lastIndex := i, lo := s, hi := s, info := { type := .boolean, access := .wo, dflt := [0] } }
/-- A string of fixed length. -/
def rowStr (i lo hi n : Nat) (a : OAccess) (fill : Byte) : ORow :=
  { index := i, lastIndex := i, lo := lo, hi := hi, info := { type := .octets n, access := a, dflt := List.replicate n fill } }
/-- A read-only domain. -/
def rowDom (i lo hi : Nat) : ORow :=
  { index := i, lastIndex := i, lo := lo, hi := hi, info := { type := .domain, access := .ro, dflt := [] } }
/-- A staged string whose length depends on its contents. -/
def rowVar (i lo hi : Nat) (dflt : List Byte) : ORow :=
  { index := i, lastIndex := i, lo := lo, hi := hi, info := { type := .octetsVar, access := .staged, dflt := dflt } }

/-- The expert groups, each committed by its subindex 0 (R354). -/
def groups : List Nat :=
  [0x4020, 0x4031, 0x4040, 0x4041, 0x4070, 0x4071, 0x4090, 0x4100, 0x4111, 0x4112, 0x4113, 0x4114, 0x4120, 0x4130, 0x4140,
   0x4160, 0x4161, 0x4410]

/-- Identity, transport and control objects, 0x1000 to 0x2FFF. -/
def rowsControl : List ORow :=
  [{ index := 0x1000, lastIndex := 0x1000, lo := 1, hi := 2, info := { type := .octetsVar, access := .const, dflt := [] } },
   rowNum 0x1000 3 3 1 .const 0,
   rowNum 0x1000 4 4 2 .const 0,
   rowNum 0x1000 5 5 8 .const 0,
   rowNum 0x1000 6 6 2 .const 0x0100,
   rowNum 0x1020 1 1 8 .ro 0,
   rowNum 0x1110 1 1 2 .rw 0x0FFF,
   rowNum 0x1120 1 1 1 .ro 0,
   rowNum 0x1120 2 2 4 .ro 0,
   rowNum 0x1130 1 1 1 .rw 1,
   rowNum 0x2020 1 1 1 .rw 0,
   rowNum 0x2030 1 1 1 .rw 0,
   rowNum 0x2040 1 1 1 .rw 0,
   rowNum 0x2070 1 1 1 .rw 0,
   rowNum 0x2090 1 1 1 .rw 0,
   rowNum 0x2100 1 1 1 .rw 0,
   rowNum 0x2110 1 1 1 .rw 0,
   rowNum 0x2122 1 1 1 .rw 0,
   rowNum 0x2130 1 1 1 .rw 0,
   rowNum 0x2140 1 1 1 .rw 0,
   rowNum 0x2160 1 1 1 .rw 0,
   rowNum 0x2410 1 1 1 .rw 0,
   rowNum 0x2060 1 1 4 .rw 2000,
   rowNum 0x2080 1 128 1 .rw 0,
   rowNum 0x2081 1 128 1 .rw 0,
   rowAction 0x2100 2,
   rowAction 0x2110 3,
   rowAction 0x2140 3,
   rowAction 0x2140 5,
   rowNum 0x2110 2 2 4 .rw 4000,
   rowNum 0x2110 4 4 4 .wo 0,
   rowNum 0x2140 6 6 4 .wo 0,
   rowNum 0x2120 1 16 1 .rw 0,
   rowNum 0x2121 1 128 1 .wo 0,
   { index := 0x2140, lastIndex := 0x2140, lo := 2, hi := 2, info := { type := .domain, access := .wo, dflt := [] } },
   rowStr 0x2140 4 4 32 .wo 0,
   rowStr 0x2140 7 7 32 .wo 0,
   { index := 0x2160, lastIndex := 0x2160, lo := 2, hi := 2, info := { type := .real32, access := .rw, dflt := leBytes 4 0x43480000 } },
   rowNum 0x2160 3 3 2 .rw 900,
   rowNum 0x2170 1 1 1 .rw 3,
   rowNum 0x2170 2 2 1 .rw 1,
   rowNum 0x2410 2 2 1 .rw 0,
   rowNum 0x2410 3 3 1 .rw 10]

/-- Status objects, 0x3000 to 0x3FFF. -/
def rowsStatus : List ORow :=
  [rowNum 0x3020 1 2 8 .ro 0,
   rowNum 0x3030 1 3 8 .ro 0,
   rowNum 0x3040 1 4 8 .ro 0,
   rowNum 0x3050 1 2 8 .ro 0,
   rowNum 0x3060 1 2 8 .ro 0,
   rowNum 0x3070 1 2 8 .ro 0,
   rowNum 0x3081 1 4 8 .ro 0,
   rowNum 0x3090 1 4 8 .ro 0,
   rowNum 0x3100 1 3 8 .ro 0,
   rowNum 0x3110 1 5 8 .ro 0,
   rowNum 0x3121 1 3 8 .ro 0,
   rowNum 0x3130 3 4 8 .ro 0,
   rowNum 0x3150 1 4 8 .ro 0,
   rowNum 0x3160 2 3 8 .ro 0,
   rowNum 0x3161 2 2 8 .ro 0,
   rowNum 0x3170 1 4 8 .ro 0,
   rowNum 0x3170 7 8 8 .ro 0,
   rowNum 0x3410 1 2 8 .ro 0,
   rowNum 0x3410 4 4 8 .ro 0,
   rowNum 0x3060 3 3 2 .ro 0,
   rowNum 0x3160 4 4 2 .ro 0,
   rowNum 0x3080 1 128 4 .ro 0,
   rowNum 0x3110 6 7 4 .ro 0,
   rowNum 0x3140 1 1 4 .ro 0,
   rowNum 0x3150 6 6 4 .ro 0,
   rowNum 0x3120 1 16 8 .ro 0,
   rowNum 0x3140 2 2 4 .const 0,
   rowNum 0x3140 6 6 1 .ro 0,
   rowNum 0x3160 6 6 1 .ro 0,
   rowNum 0x3170 5 5 1 .ro 0,
   rowStr 0x3100 4 4 52 .ro 0,
   rowStr 0x3130 2 2 32 .ro 0,
   rowStr 0x3410 7 7 32 .ro 0,
   rowStr 0x3140 3 3 8 .ro 0,
   rowStr 0x3410 5 5 8 .ro 0,
   rowStr 0x3140 5 5 16 .ro 0,
   rowStr 0x3160 1 1 16 .ro 0,
   rowStr 0x3160 5 5 16 .ro 0,
   rowDom 0x3101 1 128,
   rowDom 0x3102 1 16,
   rowDom 0x3103 1 20,
   rowDom 0x3111 1 1,
   rowDom 0x3130 1 1,
   rowDom 0x3140 4 4,
   rowDom 0x3150 5 5,
   rowDom 0x3161 1 1,
   rowDom 0x3170 6 6,
   rowDom 0x3410 3 3,
   { index := 0x3410, lastIndex := 0x3410, lo := 6, hi := 6, info := { type := .boolean, access := .ro, dflt := [0] } }]

/-- Expert groups, 0x4000 to 0x5FFF, and the translator entries. -/
def rowsExpert : List ORow :=
  [{ index := 0x6000, lastIndex := 0x60FF, lo := 0, hi := 255, info := { type := .octets 16, access := .staged, dflt := List.replicate 16 0 } },
   rowNum 0x4020 1 1 1 .staged 0,
   rowNum 0x4040 1 1 1 .staged 0,
   rowNum 0x4070 1 1 1 .staged 0,
   rowVar 0x4031 1 64 [0],
   rowVar 0x4041 1 64 [0],
   rowStr 0x4071 1 128 128 .staged 0,
   rowNum 0x4090 1 16 1 .staged 0,
   rowNum 0x4100 1 1 1 .staged 8,
   rowNum 0x4110 1 1 1 .wo 0,
   rowVar 0x4111 1 1 [0, 0, 0],
   rowStr 0x4111 2 2 32 .staged 0xFF,
   rowVar 0x4112 1 64 [0, 0],
   rowStr 0x4113 1 64 4 .staged 0xFF,
   rowVar 0x4114 1 255 [0],
   rowNum 0x4120 1 128 1 .staged 8,
   rowStr 0x4130 1 1 32 .staged 0,
   rowNum 0x4130 2 2 4 .staged 65536,
   rowNum 0x4140 1 1 2 .staged 50,
   rowNum 0x4160 1 1 1 .staged 3,
   rowNum 0x4160 2 2 1 .staged 1,
   rowStr 0x4160 3 3 512 .staged 0xFF,
   rowNum 0x4161 1 1 1 .staged 30,
   rowNum 0x4161 2 2 1 .staged 1,
   rowNum 0x4161 3 3 1 .staged 0,
   rowNum 0x4161 4 4 1 .staged 24,
   rowNum 0x4410 1 1 2 .staged 100,
   rowNum 0x4410 2 2 2 .staged 24]

/-- Diagnostics, 0x7000 to 0x7FFF. -/
def rowsDiag : List ORow :=
  [rowNum 0x7030 1 128 4 .const 0,
   rowDom 0x7040 1 128,
   rowDom 0x7041 1 128,
   rowDom 0x7070 1 128,
   rowDom 0x7060 1 1,
   rowDom 0x7103 1 1,
   rowDom 0x7140 2 2,
   rowNum 0x7042 1 128 1 .rw 0,
   rowNum 0x7100 1 1 1 .rw 0,
   rowStr 0x7101 1 8 40 .rw 0,
   rowNum 0x7102 1 8 8 .ro 0,
   rowNum 0x7120 1 128 1 .rw 0,
   rowNum 0x7121 1 128 4 .ro 0,
   rowNum 0x7140 1 1 4 .rw 0]

/-- The object at an index and subindex, if the manual lists one (R349). -/
def objInfo (i s : Nat) : Option OInfo :=
  if s = 0 ∧ i ∈ groups then some { type := .unsigned 1, access := .rw, dflt := [0] }
  else
    let rows := if i < 0x3000 then rowsControl else if i < 0x4000 then rowsStatus else if i < 0x7000 then rowsExpert else rowsDiag
    (rows.find? fun r => r.index ≤ i && i ≤ r.lastIndex && r.lo ≤ s && s ≤ r.hi).map ORow.info

/-- The key of an object in the tables of the state. -/
def okey (i s : Nat) : Nat := i * 256 + s

/-- The default of an object, by key (R352). -/
def objDefault (k : Nat) : List Byte := ((objInfo (k / 256) (k % 256)).map OInfo.dflt).getD []

/-- The value of an object in a table of values in force. -/
def objIn (t : Table (List Byte)) (i s : Nat) : List Byte := (tabFind t (okey i s)).getD (objDefault (okey i s))

end Sys2Proof.Machine
end

