-- ==== Sys2Proof/Machine/Ops.lean ====
section
/-! DEFINITION. The named operations on the state: units by number, objects and counters, time, and the memories with their
guard-code words. -/

namespace Sys2Proof.Machine

/-- A command that acts on the device alone. -/
def State.onDev (s : State) (f : Dev → Dev) : Host.Outcome State Fault Refusal := .next { s with dev := f s.dev }

/-- Does something only where a condition holds. -/
def Dev.when (d : Dev) (c : Bool) (f : Dev → Dev) : Dev := if c then f d else d

/-- A command that acts on the device only while its clocks run (R371). -/
def State.onClock (s : State) (f : Dev → Dev) : Host.Outcome State Fault Refusal := s.onDev fun d => d.when d.pins.clocks f

/-! ### Units by number -/

def Dev.core (d : Dev) (n : Nat) : Core := tabGet Core.reset d.cores n
def Dev.updCore (d : Dev) (n : Nat) (f : Core → Core) : Dev := { d with cores := tabSet d.cores n (f (d.core n)) }
def Dev.stream (d : Dev) (n : Nat) : Stream := tabGet Stream.reset d.streams n
def Dev.updStream (d : Dev) (n : Nat) (f : Stream → Stream) : Dev := { d with streams := tabSet d.streams n (f (d.stream n)) }
def Dev.cluster (d : Dev) (n : Nat) : Cluster := tabGet Cluster.reset d.clusters n
def Dev.updCluster (d : Dev) (n : Nat) (f : Cluster → Cluster) : Dev := { d with clusters := tabSet d.clusters n (f (d.cluster n)) }
def Dev.port (d : Dev) (n : Nat) : Port := tabGet Port.reset d.ports n
def Dev.updPort (d : Dev) (n : Nat) (f : Port → Port) : Dev := { d with ports := tabSet d.ports n (f (d.port n)) }
def Dev.lane (d : Dev) (n : Nat) : Lane := tabGet Lane.reset d.lanes n
def Dev.updLane (d : Dev) (n : Nat) (f : Lane → Lane) : Dev := { d with lanes := tabSet d.lanes n (f (d.lane n)) }
def Dev.updRk (d : Dev) (n : Nat) (f : Reckoner → Reckoner) : Dev := d.updCore n fun c => { c with rk := f c.rk }
def Dev.updArray (d : Dev) (n : Nat) (f : ArrayEngine → ArrayEngine) : Dev := d.updCore n fun c => { c with array := f c.array }
def Dev.updSlate (d : Dev) (n : Nat) (f : SlateEngine → SlateEngine) : Dev := d.updCore n fun c => { c with slate := f c.slate }
def Dev.updFab (d : Dev) (n : Nat) (f : FabricPort → FabricPort) : Dev := d.updCore n fun c => { c with port := f c.port }
def Dev.ring (d : Dev) (n r : Nat) : Ring := tabGet Ring.reset (d.core n).rings r
def Dev.updRing (d : Dev) (n r : Nat) (f : Ring → Ring) : Dev :=
  d.updCore n fun c => { c with rings := tabSet c.rings r (f (tabGet Ring.reset c.rings r)) }

/-- The core's cluster (R13). -/
def clusterOf (core : Nat) : Nat := core / 8
/-- The core's die (R13). -/
def dieOf (core : Nat) : Nat := core / 64

def Dev.desc? (d : Dev) (k : DescKey) : Option Desc := d.descs.find? fun x => x.key = k
def Dev.updDesc (d : Dev) (k : DescKey) (f : Desc → Desc) : Dev :=
  { d with descs := d.descs.map fun x => if x.key = k then f x else x }
def Dev.round? (d : Dev) (n : RoundNo) : Option Round := d.rounds.find? fun r => r.number = n
def Dev.updRound (d : Dev) (n : RoundNo) (f : Round → Round) : Dev :=
  { d with rounds := d.rounds.map fun r => if r.number = n then f r else r }
/-- Acts on a descriptor if it is in flight. -/
def Dev.withDesc (d : Dev) (k : DescKey) (f : Desc → Dev) : Dev := match d.desc? k with | some x => f x | none => d
/-- Acts on a round if it is open. -/
def Dev.withRound (d : Dev) (n : RoundNo) (f : Round → Dev) : Dev := match d.round? n with | some r => f r | none => d

/-! ### Objects, counters, flags, time -/

/-- The value in force of an object held in the table. -/
def Dev.obj (d : Dev) (i s : Nat) : List Byte := objIn d.objs i s
def Dev.objNat (d : Dev) (i s : Nat) : Nat := leNat (d.obj i s)
/-- Sets a value in force; a default is not listed. A word of its storage that was in error is good again. -/
def Dev.setObj (d : Dev) (i s : Nat) (v : List Byte) : Dev :=
  { d with
    objs := if v = objDefault (okey i s) then tabErase d.objs (okey i s) else tabSet d.objs (okey i s) v
    badObjs := d.badObjs.filter fun k => k ≠ okey i s }
/-- A setting as a round sees it: as it stood when the round opened (R355). -/
def Round.setting (r : Round) (i s : Nat) : List Byte := objIn r.settings i s
def Round.settingNat (r : Round) (i s : Nat) : Nat := leNat (r.setting i s)

def Dev.count (d : Dev) (i s : Nat) : Nat := tabGet 0 d.counters (okey i s)
/-- A counter of 64 bits grows by `n`. -/
def Dev.bump (d : Dev) (i s n : Nat) : Dev :=
  if n = 0 then d else { d with counters := tabSet d.counters (okey i s) ((d.count i s + n) % 2 ^ 64) }
/-- A 32-bit counter that saturates grows by one. -/
def Dev.bumpSat32 (d : Dev) (i s : Nat) : Dev :=
  { d with counters := tabSet d.counters (okey i s) (min (d.count i s + 1) (2 ^ 32 - 1)) }

def Dev.flag (d : Dev) (f : Nat) : Word := tabGet 0 d.flags f
def Dev.setFlag (d : Dev) (f : Nat) (v : Word) : Dev := { d with flags := tabSet d.flags f v }

/-- TIMESTAMP: nanoseconds since device reset (R125), from core cycles of 1.6 or 1.4 GHz (R1). -/
def Dev.timestamp (d : Dev) : Nat := if Config.gradeA16 then d.cycles * 5 / 8 else d.cycles * 5 / 7

/-- An entry put at the end of a log of the last 64. -/
def logPush {α : Type} (l : List α) (e : α) : List α := (l ++ [e]).drop (l.length + 1 - 64)

/-! ### Memory cells -/

/-- A byte of memory; one that nothing has written reads 0. (DESIGN CHOICE, log entry 9) -/
def memGet (m : List Host.Cell) (a : Nat) : Byte := tabGet 0 m a
/-- Writes one byte; a zero byte is not listed. -/
def memPut (m : List Host.Cell) (a : Nat) (b : Byte) : List Host.Cell := if b = 0 then tabErase m a else tabSet m a b
def memRead (m : List Host.Cell) (a n : Nat) : List Byte := (List.range n).map fun i => memGet m (a + i)
def memWrite (m : List Host.Cell) : Nat → List Byte → List Host.Cell
  | _, [] => m
  | a, b :: t => memWrite (memPut m a b) (a + 1) t
/-- Bytes [lo, hi) read 0. -/
def memClear (m : List Host.Cell) (lo hi : Nat) : List Host.Cell := m.filter fun e => !(lo ≤ e.1 && e.1 < hi)

/-- The canonical form: addresses strictly rising, no listed zero. -/
def memWf (m : List Host.Cell) : Bool := decide (m.Pairwise fun x y => x.1 < y.1) && m.all fun e => e.2 != 0

/-! ### The address map (R18, R19) -/

inductive Region where
  | hbm
  | scratch (c : Nat)
  | tile (n : Nat)
  | rk (n : Nat)
  | sequencer
  | user
  | mirror
  | reserved
deriving DecidableEq, Repr

def scratchBase : Nat := 0x100000000000
def tileBase : Nat := 0x200000000000
def rkBase : Nat := 0x300000000000
def seqBase : Nat := 0x400000000000
def userBase : Nat := 0x500000000000
def mirrorBase : Nat := 0x600000000000

/-- Scratch bytes of a cluster in force (R19, R206). -/
def Dev.scratchSize (d : Dev) (c : Nat) : Nat := d.objNat 0x4090 (c + 1) * 0x100000

/-- The populated range that holds an address (R18, R19). -/
def Dev.regionOf (d : Dev) (a : Nat) : Region :=
  if a < 0x4800000000 then .hbm
  else if scratchBase ≤ a ∧ a < scratchBase + 0x10000000 then
    let o := a - scratchBase
    if o % 0x1000000 < d.scratchSize (o / 0x1000000) then .scratch (o / 0x1000000) else .reserved
  else if tileBase ≤ a ∧ a < tileBase + 0x10000000 then
    let o := a - tileBase
    if o % 0x200000 < 0x100000 then .tile (o / 0x200000) else .reserved
  else if rkBase ≤ a ∧ a < rkBase + 0x2000000 then
    let o := a - rkBase
    if o % 0x40000 < 0x18000 then .rk (o / 0x40000) else .reserved
  else if seqBase ≤ a ∧ a < seqBase + 0x4000000 then .sequencer
  else if userBase ≤ a ∧ a < userBase + 0x10000000000 then .user
  else if mirrorBase ≤ a ∧ a < mirrorBase + 0x10000000 then .mirror
  else .reserved

/-- The region of a whole access: reserved unless it lies in one populated range (R22). -/
def Dev.regionOfRange (d : Dev) (a n : Nat) : Region :=
  let r := d.regionOf a
  if n = 0 ∨ d.regionOf (a + n - 1) = r then r else .reserved

/-- What reserved space reads (R21): 0xDEAD_DEAD_DEAD_DEAD in every aligned word. -/
def deadBytes (a n : Nat) : List Byte := (List.range n).map fun i => if (a + i) % 2 = 0 then 0xAD else 0xDE

/-- The cluster whose power state an access must find in P0 (R23). -/
def Region.cluster? : Region → Option Nat
  | .scratch c => some c
  | .tile n => some (clusterOf n)
  | .rk n => some (clusterOf n)
  | _ => none

/-! ### HBM mapping (R210) -/

/-- Pseudo-channel and offset of an HBM address. -/
def Dev.hbmMap (d : Dev) (a : Nat) : Nat × Nat :=
  let g := 2 ^ d.objNat 0x2410 3
  if d.objNat 0x2410 2 = 0 then
    let b := a / g
    let q := b / 256
    (Nat.xor (b % 256) (q % 256), q * g + a % g)
  else
    let h := a / 0x2400000000
    let b := a % 0x2400000000 / g
    let q := b / 128
    (128 * h + Nat.xor (b % 128) (q % 128), q * g + a % g)

/-- Bank, row and column byte of an offset in a pseudo-channel. -/
def hbmPlace (offset : Nat) : Nat × Nat × Nat := (offset / 1024 % 48, offset / 1024 / 48, offset % 1024)

/-! ### Guard-code words -/

/-- The guard-code words that [a, a + n) touches. -/
def wordsOf (a n : Nat) : List Nat := if n = 0 then [] else (List.range ((a + n - 1) / 16 + 1 - a / 16)).map fun i => a / 16 + i

/-- The object that counts corrected words of a memory (R202, R208, R216, R197). -/
def Region.correctedObj : Region → Nat × Nat
  | .hbm => (0x3410, 1)
  | .scratch _ => (0x3090, 2)
  | .rk _ => (0x3081, 4)
  | _ => (0x3090, 1)

/-- A region whose words the guard code protects. -/
def Region.guarded : Region → Bool
  | .hbm | .scratch _ | .tile _ | .rk _ => true
  | _ => false

/-- An error strikes a word of memory: the first check that meets it corrects it, or finds the word bad. (DESIGN CHOICE, log entry 63) -/
def Dev.strike (d : Dev) (u : UpsetAt) : Dev :=
  let w := u.addr / 16
  if !(d.regionOf (w * 16)).guarded then d
  else if u.failed then { d with badWords := w :: d.badWords.filter fun x => x ≠ w, latent := d.latent.filter fun x => x ≠ w }
  else if d.badWords.contains w ∨ d.latent.contains w then d
  else { d with latent := d.latent ++ [w] }

def Dev.strikes (d : Dev) (us : List UpsetAt) : Dev := us.foldl Dev.strike d

/-- Words are checked: each correctable error is corrected in place and counted (R197, R202, R208, R216). -/
def Dev.correct (d : Dev) (ws : List Nat) : Dev :=
  (d.latent.filter fun w => ws.contains w).foldl (fun d w => let o := (d.regionOf (w * 16)).correctedObj; d.bump o.1 o.2 1)
    { d with latent := d.latent.filter fun w => !ws.contains w }

/-- An uncorrectable HBM event enters its counter and log (R216, R217). An access that fails because its pseudo-channel has failed is no
such event. (DESIGN CHOICE, log entry 76) -/
def Dev.hbmEvent (d : Dev) (word source : Nat) : Dev :=
  let d := d.bump 0x3410 2 1
  let e : HbmLogEntry := { addr := word * 16, pc := (d.hbmMap (word * 16)).1, source := source, time := d.timestamp }
  { d with hbm := { d.hbm with log := logPush d.hbm.log e } }

/-- The first HBM access fixes grain and locality (R211). -/
def Dev.lockMap (d : Dev) : Dev := { d with hbm := { d.hbm with mapLocked := true } }

/-- Some pseudo-channel of an HBM range has failed (R220). -/
def Dev.hbmFailed (d : Dev) (a n : Nat) : Bool := (wordsOf a n).any fun w => d.hbm.failed.contains (d.hbmMap (w * 16)).1

/-- A controller reads words (R211, R216, R220): whether it delivers them, and the device. -/
def Dev.readHbm (d : Dev) (ws : List Nat) : Bool × Dev :=
  let bad := ws.filter fun w => d.badWords.contains w
  (bad == [] && !ws.any fun w => d.hbm.failed.contains (d.hbmMap (w * 16)).1, bad.foldl (fun d w => d.hbmEvent w 0) (d.lockMap.correct ws))

/-- A read of memory proper: status, data, device (R202, R216, R220). -/
def Dev.readMem (d : Dev) (a n : Nat) : Status × List Byte × Dev :=
  let ws := wordsOf a n
  match d.regionOfRange a n with
  | .hbm =>
    let r := d.readHbm ws
    if r.1 then (.done, memRead d.mem a n, r.2) else (.hwUncorrectable, deadBytes a n, r.2)
  | .scratch _ | .tile _ | .rk _ =>
    if ws.any fun w => d.badWords.contains w then (.hwUncorrectable, deadBytes a n, d.correct ws) else (.done, memRead d.mem a n, d.correct ws)
  | _ => (.address, deadBytes a n, d)

/-- A line leaves every cluster cache that holds it (R205). Lines are 256 bytes. -/
def Dev.dropLine (d : Dev) (line : Nat) : Dev :=
  { d with clusters := d.clusters.map fun e =>
      (e.1, { e.2 with cache := (e.2.cache.map fun s => (s.1, s.2.filter fun l => l ≠ line)).filter fun s => s.2 ≠ [] }) }

/-- The aligned 64-byte pieces of [a, a + n): start and length of each part. -/
def piecesOf (a n : Nat) : List (Nat × Nat) :=
  if n = 0 then [] else (List.range ((a + n - 1) / 64 + 1 - a / 64)).map fun i =>
    let lo := max a ((a / 64 + i) * 64)
    (lo, min (a + n) ((a / 64 + i) * 64 + 64) - lo)

/-- One piece is written unless it covers part of a bad word or its pseudo-channel has failed (R202, R216, R220). -/
def Dev.writePiece (hbm : Bool) (d : Dev) (a : Nat) (b : List Byte) : Bool × Dev :=
  let n := b.length
  let partly := (wordsOf a n).filter fun w => w * 16 < a || a + n < w * 16 + 16
  let bad := partly.filter fun w => d.badWords.contains w
  if hbm ∧ d.hbmFailed a n then (false, d)
  else
    let e := d.correct partly
    if bad ≠ [] then (false, if hbm then bad.foldl (fun d w => d.hbmEvent w 1) e else e)
    else
      let whole := (wordsOf a n).filter fun w => a ≤ w * 16 && w * 16 + 16 ≤ a + n
      (true, { e with mem := memWrite e.mem a b, badWords := e.badWords.filter fun w => !whole.contains w,
                      latent := e.latent.filter fun w => !whole.contains w })

/-- A write of memory proper (R202, R205, R216): pieces that cannot be written are left, the others are performed. -/
def Dev.writeMem (d : Dev) (a : Nat) (b : List Byte) : Status × Dev :=
  let n := b.length
  let r := d.regionOfRange a n
  let go (hbm : Bool) (d : Dev) : Status × Dev :=
    (piecesOf a n).foldl
      (fun (acc : Status × Dev) p =>
        let w := acc.2.writePiece hbm p.1 (slice b (p.1 - a) p.2)
        (if w.1 then acc.1 else .hwUncorrectable, w.2))
      (.done, d)
  match r with
  | .hbm =>
    let out := go true d.lockMap
    if n = 0 then out
    else (out.1, (List.range ((a + n - 1) / 256 + 1 - a / 256)).foldl (fun d i => d.dropLine (a / 256 + i)) out.2)
  | .scratch _ | .tile _ | .rk _ => go false d
  | _ => (.address, d)

/-- A range of memory reads 0 with valid check bits (R425, R219, R206). -/
def Dev.zeroRange (d : Dev) (lo hi : Nat) : Dev :=
  { d with mem := memClear d.mem lo hi, badWords := d.badWords.filter fun w => !(lo ≤ w * 16 && w * 16 < hi),
           latent := d.latent.filter fun w => !(lo ≤ w * 16 && w * 16 < hi) }

/-- A write of [a, a + n) touches a Reckoner instruction bank that accepts no write now (R194). -/
def Dev.bankBusy (d : Dev) (a n : Nat) : Bool :=
  match d.regionOf a with
  | .rk k =>
    let o := (a - rkBase) % 0x40000
    let rk := (d.core k).rk
    let hits (b : Bool) : Bool := let lo := if b then 0x14000 else 0x10000; o < lo + 0x4000 && lo < o + n
    rk.mode = .running && 0 < n && (if rk.swap.isSome then hits false || hits true else hits rk.abank)
  | _ => false

/-! ### The cluster cache (R203, R204, R206) -/

/-- Set of a line (R203). -/
def cacheSet (line : Nat) : Nat := Nat.xor line (line * 256 / 524288) % 2048

/-- Ways of every set that form the cache part (R206). -/
def Dev.cacheWays (d : Dev) (c : Nat) : Nat := 16 - min 16 (2 * d.objNat 0x4090 (c + 1))

/-- The cache part of a cluster holds a line. -/
def Dev.resident (d : Dev) (c line : Nat) : Bool := (tabGet [] (d.cluster c).cache (cacheSet line)).contains line

/-- A read of words of a line in a cluster's cache part. A hit corrects what it can, counts it, and makes the line the most recently used;
a word that it cannot correct drops the line, which is fetched again (R208). A miss asks for the line (R204). -/
def Dev.cacheTouch (d : Dev) (c : Nat) (ws : List Nat) (line : Nat) : Dev :=
  let k := d.cluster c
  let mine := k.cacheErrors.filter fun e => e.1 / 16 == line && ws.contains e.1
  let lines := tabGet [] k.cache (cacheSet line)
  let rest := lines.filter fun l => l ≠ line
  let ask (k : Cluster) : Cluster := if k.fills.contains line ∨ d.cacheWays c = 0 then k else { k with fills := k.fills ++ [line] }
  if !d.resident c line then d.updCluster c ask
  else if mine.any fun e => e.2 then
    Dev.updCluster (d.bump 0x3090 3 1) c fun k =>
      ask { k with cache := if rest = [] then tabErase k.cache (cacheSet line) else tabSet k.cache (cacheSet line) rest
                   cacheErrors := k.cacheErrors.filter fun e => e.1 / 16 ≠ line }
  else
    Dev.updCluster (d.bump 0x3090 2 mine.length) c fun k =>
      { k with cache := tabSet k.cache (cacheSet line) (line :: rest), cacheErrors := k.cacheErrors.filter fun e => !mine.contains e }

/-- A line is filled: it replaces the least recently used way where the set is full. -/
def Dev.cacheFill (d : Dev) (c line : Nat) : Dev :=
  let lines := (tabGet [] (d.cluster c).cache (cacheSet line)).filter fun l => l ≠ line
  let kept := (line :: lines).take (d.cacheWays c)
  d.updCluster c fun k =>
    { k with cache := if kept = [] then tabErase k.cache (cacheSet line) else tabSet k.cache (cacheSet line) kept
             cacheErrors := k.cacheErrors.filter fun e => e.1 / 16 ≠ line }

/-- An error strikes a word of a cluster's cache part, if it holds the word's line (R208). -/
def Dev.cacheStrike (d : Dev) (c : Nat) (u : UpsetAt) : Dev :=
  let w := u.addr / 16
  if c < 16 ∧ d.resident c (w / 16) then
    d.updCluster c fun k => { k with cacheErrors := (w, u.failed || k.cacheErrors.contains (w, true)) :: k.cacheErrors.filter fun e => e.1 ≠ w }
  else d

/-- The lines of an HBM range. -/
def linesOf (a n : Nat) : List Nat := if n = 0 then [] else (List.range ((a + n - 1) / 256 + 1 - a / 256)).map fun i => a / 256 + i

/-- A read by the load engine or the fabric port of a core (R161, R204): resident lines come from its cluster's cache part, the others from
HBM. -/
def Dev.readCached (d : Dev) (core a n : Nat) : Status × List Byte × Dev :=
  if d.regionOfRange a n = .hbm then
    let c := clusterOf core
    let ws := wordsOf a n
    let d1 := (linesOf a n).foldl (fun d l => d.cacheTouch c ws l) d
    let r := d1.readHbm (ws.filter fun w => !d1.resident c (w / 16))
    if r.1 then (.done, memRead d.mem a n, r.2) else (.hwUncorrectable, deadBytes a n, r.2)
  else d.readMem a n

/-- An event addressed to a cluster that is not in P0 raises a wake request (R374). -/
def Dev.requestWake (d : Dev) (c : Nat) : Dev :=
  if (d.cluster c).state = 0 then d else d.updCluster c fun k => { k with wake := true }

/-- The cluster of an access that is not in P0, if any (R23). -/
def Dev.sleeping? (d : Dev) (a n : Nat) : Option Nat :=
  match (d.regionOfRange a n).cluster? with
  | some c => if (d.cluster c).state = 0 then none else some c
  | none => none

/-- The cluster of a core is in P0, so that its engines may work (R372). -/
def Dev.awake (d : Dev) (core : Nat) : Bool := (d.cluster (clusterOf core)).state = 0

end Sys2Proof.Machine
end

