-- ==== Sys2Proof/Machine/Flags.lean ====
section
/-! DEFINITION. Status codes, their classes and precedence (R6 to R9), the sticky flags of a descriptor, its completion record
(R141), and the waits on flags (R131). -/

namespace Sys2Proof

/-- The code of a status (R6). -/
def Status.code : Status → Nat
  | .done => 0x00 | .empty => 0x01 | .doneFlagged => 0x02
  | .mapOverflow => 0x10 | .deadlock => 0x11 | .badDescriptor => 0x12 | .inputWrite => 0x13 | .rescaleExhausted => 0x14
  | .roundTooLong => 0x15 | .address => 0x16
  | .hwUncorrectable => 0x20 | .linkLost => 0x21 | .peerLost => 0x22 | .peerAbort => 0x23
  | .hostAbort => 0x30 | .accessActive => 0x31 | .icpRange => 0x32

/-- Every status of R6. -/
def Status.all : List Status :=
  [.done, .empty, .doneFlagged, .mapOverflow, .deadlock, .badDescriptor, .inputWrite, .rescaleExhausted, .roundTooLong, .address,
   .hwUncorrectable, .linkLost, .peerLost, .peerAbort, .hostAbort, .accessActive, .icpRange]

/-- The status of a code; reserved codes are treated as HW_UNCORRECTABLE (R10). -/
def Status.ofCode (c : Nat) : Status := (Status.all.find? fun s => s.code = c).getD .hwUncorrectable

def Status.isSuccess (s : Status) : Bool := s.code < 0x10
def Status.isProgram (s : Status) : Bool := 0x10 ≤ s.code && s.code < 0x20
def Status.isHardware (s : Status) : Bool := 0x20 ≤ s.code && s.code < 0x30
def Status.isControl (s : Status) : Bool := 0x30 ≤ s.code

/-- Rank of the class of a status: program fault, control status, hardware fault, success (R8). -/
def Status.rank (s : Status) : Nat := if s.isProgram then 0 else if s.isControl then 1 else if s.isHardware then 2 else 3

/-- Which of two statuses detected in one cycle stands (R8): the higher class, in it the lower code. -/
def Status.worse (a b : Status) : Status :=
  if a.rank < b.rank then a else if b.rank < a.rank then b else if a.code ≤ b.code then a else b

/-- A status joined to what stands already. -/
def Status.join (a : Option Status) (b : Status) : Option Status := some (match a with | some a => a.worse b | none => b)

end Sys2Proof

namespace Sys2Proof.Machine

/-! ### The descriptor's words (R119, R120) -/

def Desc.word (x : Desc) (i : Nat) : Nat := field x.image (8 * i) 8
def Desc.op (x : Desc) : Nat := bits (x.word 0) 7 0
def Desc.isOpen (x : Desc) : Bool := bit (x.word 0) 8
def Desc.isCommit (x : Desc) : Bool := bit (x.word 0) 9
def Desc.isPatch (x : Desc) : Bool := bit (x.word 0) 10
def Desc.fenceLocal (x : Desc) : Bool := bit (x.word 0) 11
def Desc.fenceFabric (x : Desc) : Bool := bit (x.word 0) 12
def Desc.accumulate (x : Desc) : Bool := bit (x.word 0) 13
def Desc.core (x : Desc) : Nat := bits (x.word 0) 22 16
def Desc.nSteps (x : Desc) : Nat := bits (x.word 0) 27 24
def Desc.roundField (x : Desc) : RoundNo := BitVec.ofNat 32 (bits (x.word 0) 63 32)
def Desc.rrec (x : Desc) : Nat := bits (x.word 1) 51 0
def Desc.viewPresent (x : Desc) (v : Nat) : Bool := bit (x.word (2 + v)) 63
def Desc.viewAddr (x : Desc) (v : Nat) : Nat := bits (x.word (2 + v)) 51 0
def Desc.signal (x : Desc) : Nat := x.word 9
def Desc.mask (x : Desc) : Nat := x.word 10
def Desc.beamBase (x : Desc) : Nat := bits (x.word 11) 10 0
def Desc.beamRows (x : Desc) : Nat := bits (x.word 11) 22 12 + 1
def Desc.chain (x : Desc) : Nat := bits (x.word 11) 29 24
def Desc.chainEn (x : Desc) : Bool := bit (x.word 11) 30
def Desc.carry (x : Desc) : Nat := bits (x.word 11) 37 32
def Desc.carryEn (x : Desc) : Bool := bit (x.word 11) 38
def Desc.vl (x : Desc) : Nat := bits (x.word 11) 47 40 + 1
def Desc.step (x : Desc) (i : Nat) : Nat := field x.image (0x60 + 4 * i) 4

/-- A wait that is active and not satisfied by the flags: (int32)(v − t) < 0 (R131). -/
def Dev.waitOpen (d : Dev) (w : Nat) : Bool :=
  bit w 63 && (d.flag (bits w 43 32) - BitVec.ofNat 32 w).msb
/-- The first wait of a descriptor that is not satisfied. -/
def Dev.firstWait (d : Dev) (x : Desc) : Option Nat := (List.range 4).find? fun i => d.waitOpen (x.word (5 + i))

/-! ### Sticky flags and the record -/

/-- The sticky-flag nibble of a record: SATURATED, RESCALED, BLOCK_UNDERFLOW, LANE_RANGE (R141). -/
def Desc.sticky (x : Desc) : Nat :=
  (if x.sat then 8 else 0) + (if x.resc then 4 else 0) + (if x.under then 2 else 0) + (if x.lane then 1 else 0)

/-- The status a record carries: a fault or control status replaces the others; DONE_FLAGGED where a flag is set (R6, R8). -/
def Desc.finalStatus (x : Desc) : Status :=
  match x.status with
  | some .done | some .doneFlagged | none => if x.sticky = 0 then .done else .doneFlagged
  | some s => s

/-- The flags a record reports: none on an EMPTY completion (R9). -/
def Desc.finalSticky (x : Desc) : Nat := if x.finalStatus = .empty then 0 else x.sticky

/-- The 16 bytes of a completion record (R141). -/
def recordBytes (status : Status) (sticky attempt : Nat) (phase : Bool) (round : RoundNo) (time : Nat) : List Byte :=
  leBytes 1 status.code ++ leBytes 1 sticky ++ leBytes 1 (2 * min attempt 7 + if phase then 1 else 0) ++ leBytes 1 0
    ++ leBytes 4 round.toNat ++ leBytes 8 time

end Sys2Proof.Machine
end

