-- ==== Sys2Proof/Machine/Routes.lean ====
section
/-! DEFINITION. The paths of the on-chip network (R223 to R233): routers and endpoints, routes, bundles and their links, control words, the
probes that watch them, initiator records, and sending. -/

namespace Sys2Proof.Machine

/-! ### Routes (R223, R224, R227) -/

/-- The output ports from one router to another, at most `fuel` of them: along the row, then along the column. -/
def hops : Nat → Nat → Nat → List (Nat × Nat)
  | 0, _, _ => []
  | fuel + 1, a, b =>
    if a % 8 < b % 8 then (a, 1) :: hops fuel (a + 1) b
    else if b % 8 < a % 8 then (a, 3) :: hops fuel (a - 1) b
    else if a / 8 < b / 8 then (a, 2) :: hops fuel (a + 8) b
    else if b / 8 < a / 8 then (a, 0) :: hops fuel (a - 8) b
    else []

def endRouter (e : BitVec 9) : Nat := bits e.toNat 8 4
def endPort (e : BitVec 9) : Nat := bits e.toNat 3 0

/-- Every output port that a packet leaves by, the last one at its destination. -/
def nocPath (k : NocPacket) : List (Nat × Nat) :=
  hops 16 (endRouter k.src) (endRouter k.dest) ++ [(endRouter k.dest, endPort k.dest)]

/-- The byte of LinkHealth of a router's output port toward a neighbour (R233). -/
def bundleOf (r p : Nat) : Option Nat :=
  let y := r / 8
  let ew (x : Nat) : Nat := if x = 3 then 48 + y else 24 * (x / 4) + 3 * y + x % 4
  let ns (y : Nat) : Nat := 24 * (r % 8 / 4) + 12 + 4 * y + r % 4
  if p = 1 then some (ew (r % 8)) else if p = 3 then some (ew (r % 8 - 1))
  else if p = 2 then some (ns y) else if p = 0 then some (ns (y - 1)) else none

/-- Ports to the neighbours, and the ports that the table of R224 gives a router. -/
def nocEnd (router port : Nat) : BitVec 9 := BitVec.ofNat 9 (router * 16 + port)
def endExists (e : BitVec 9) : Bool :=
  let r := endRouter e
  let p := endPort e
  (4 ≤ p && p ≤ 8) || (p == 9 && (r / 8 == 0 || r / 8 == 3)) || ((p == 13 || p == 14) && (r % 8 == 0 || r % 8 == 7))
    || (p == 15 && (r == 0 || r == 7))

/-- Removed links of a bundle, and the links that work, rising (R233). -/
def Dev.workingLinks (d : Dev) (b : Nat) : List Nat := (List.range 6).filter fun k => !(tabGet 0 d.noc.health b).getLsbD k
/-- A bundle has no working link. -/
def Dev.bundleDead (d : Dev) (b : Nat) : Bool := (d.workingLinks b).isEmpty
/-- The link of a bundle that a packet uses: number (SRC + DEST) mod L of the working ones (R225). (DEDUCED, log entry 78) -/
def Dev.linkOf (d : Dev) (k : NocPacket) (b : Nat) : Option Nat :=
  let l := d.workingLinks b
  l[(k.src.toNat + k.dest.toNat) % max 1 l.length]?

/-- The bundles of a packet's route. -/
def bundlesOf (k : NocPacket) : List Nat := (nocPath k).filterMap fun h => bundleOf h.1 h.2
/-- A packet's route passes a bundle with no working link. -/
def Dev.pathDead (d : Dev) (k : NocPacket) : Bool := !d.noc.health.isEmpty && (bundlesOf k).any d.bundleDead
/-- A packet's route passes a bundle that accepts no new packet (R233). -/
def Dev.pathDraining (d : Dev) (k : NocPacket) : Bool := !d.noc.draining.isEmpty && (bundlesOf k).any fun b => d.noc.draining.any fun e => e.1 == b

/-- The core whose port this endpoint is, if it is a core's (R223, R224). -/
def coreOfEnd (e : BitVec 9) : Option Nat :=
  let r := endRouter e
  let p := endPort e
  let cluster := 8 * (r % 8 / 4) + 4 * (r / 16) + r % 4
  if 4 ≤ p ∧ p ≤ 7 then some (8 * cluster + 4 * (r / 8 % 2) + (p - 4)) else none

/-- The endpoint of a core. -/
def endOfCore (n : Nat) : BitVec 9 :=
  let k := clusterOf n % 8
  let r := 8 * (2 * (k / 4) + n % 8 / 4) + 4 * dieOf n + k % 4
  BitVec.ofNat 9 (r * 16 + 4 + n % 4)

/-! ### Endpoints of the units (R223, R224) -/

/-- Router 0's port 15: the host port and the other masters of die 0, and, as the table gives it no port, the Sequencer; the slaves of
die 1. (DESIGN CHOICE, log entry 79) -/
def hostEnd : BitVec 9 := nocEnd 0 15
def slaveEnd : BitVec 9 := nocEnd 7 15
/-- The cluster cache, at a core's router. -/
def cacheEnd (core : Nat) : BitVec 9 := nocEnd (endRouter (endOfCore core)) 8
/-- The scratch part of a cluster, at its router A. (DESIGN CHOICE, log entry 79) -/
def scratchEnd (c : Nat) : BitVec 9 := cacheEnd (8 * c)
/-- The controller port of an HBM address: the router of its pseudo-channel. -/
def Dev.hbmEnd (d : Dev) (a : Nat) : BitVec 9 :=
  let p := (d.hbmMap a).1
  let j := p / 32 % 4
  nocEnd (8 * (if j < 2 then 0 else 3) + 4 * (p / 128) + 2 * (j % 2) + p % 32 / 16) 9
/-- A Saeri port. -/
def saeriEnd (p : Nat) : BitVec 9 := nocEnd (8 * (p % 8 / 2) + if p < 8 then 0 else 7) (13 + p % 2)

/-! ### Control word and probes (R229, R230, R239, R240) -/

/-- Flits of a packet. -/
def flitsOf (k : NocPacket) : Nat :=
  if k.op = 0x02 ∨ k.op = 0x03 ∨ k.op = 0x06 ∨ k.op = 0x07 ∨ k.op = 0x08 then ceilDiv (k.lenm1.toNat + 1) 64 else 1

/-- The control word of a packet's first flit. -/
def controlWord (k : NocPacket) : BitVec 128 :=
  k.vc ++ (1 : BitVec 1) ++ BitVec.ofBool (flitsOf k == 1) ++ k.dest ++ k.src ++ k.op ++ k.tag ++ k.status ++ k.lenm1 ++ (0 : BitVec 1)
    ++ k.rslot ++ (0 : BitVec 12) ++ k.addr

/-- The virtual channel of an operation (R226). -/
def vcOf (op : BitVec 6) : BitVec 2 :=
  if op = 0x03 ∨ op = 0x04 then 1 else if op = 0x07 then 2 else if op = 0x08 then 3 else 0

/-- A packet that the network can carry (R224, R226, R230): its ports exist and its operation goes on its channel. -/
def nocOk (k : NocPacket) : Bool :=
  endExists k.src && endExists k.dest && 0x01 ≤ k.op && k.op ≤ 0x08 && k.vc == vcOf k.op

/-- CK_NOC cycles since reset, from core cycles of 1.6 or 1.4 GHz. -/
def Dev.nocCycles (d : Dev) : Nat := if Config.gradeA16 then d.cycles * 3 / 2 else d.cycles * 12 / 7

/-- One probe looks at a packet that has left some ports (R240). -/
def Dev.probe (d : Dev) (k : NocPacket) (left : List (Nat × Nat)) (q : Nat) : Dev :=
  let c := d.obj 0x7101 (q + 1)
  let w := (controlWord k).toNat
  let hit := field c 3 1 ≠ 0 ∧ left.contains (field c 0 1, field c 1 1) ∧ bit (field c 2 1) k.vc.toNat
    ∧ Nat.land w (field c 8 16) = field c 24 16
  if !decide hit then d
  else
    let d1 := d.bump 0x7102 (q + 1) 1
    if field c 3 1 = 2 ∧ d1.noc.trace.length < 2048 then
      { d1 with noc := { d1.noc with trace := d1.noc.trace ++ [{ control := controlWord k, cycle := d.nocCycles, probe := q }] } }
    else d1

/-- Armed probes look at a packet that has left some ports. -/
def Dev.probesAt (d : Dev) (k : NocPacket) (left : List (Nat × Nat)) : Dev :=
  if d.objNat 0x7100 1 = 1 then (List.range 8).foldl (fun e q => e.probe k left q) d else d
/-- Armed probes look at a packet that goes all its way. -/
def Dev.probes (d : Dev) (k : NocPacket) : Dev := d.probesAt k (nocPath k)
/-- Armed probes look at a packet that gets as far as a bundle; `past`: it has left by it. -/
def Dev.probesTo (d : Dev) (k : NocPacket) (stop : Nat → Bool) (past : Bool) : Dev :=
  let path := nocPath k
  let before := path.takeWhile fun h => !((bundleOf h.1 h.2).any stop)
  d.probesAt k (if past then path.take (before.length + 1) else before)

/-! ### Initiator records (R238) -/

/-- The record of an initiator, by its endpoint. The control word does not tell a core's engines apart: reads enter the load engine's
record, writes the store engine's. -/
def statKey (e : BitVec 9) (vc : BitVec 2) (write : Bool) : Option Nat :=
  match coreOfEnd e with
  | some n => some (3 * n + if write then 1 else 0)
  | none =>
    let r := endRouter e
    let p := endPort e
    if p = 8 then some (384 + 8 * (r % 8 / 4) + 4 * (r / 16) + r % 4)
    else if p = 13 ∨ p = 14 then some (400 + (if r % 8 = 0 then 0 else 8) + 2 * (r / 8) + (p - 13))
    else if p = 15 then some (if vc = 3 then 418 else 416)
    else none

/-- Histogram bin of a latency. -/
def latencyBin (cycles : Nat) : Nat := if cycles < 64 then 0 else min 15 (Nat.log2 (cycles / 64) + 1)

/-- Bytes enter an initiator's record; a read also enters its histogram. -/
def Dev.statAdd (d : Dev) (key : Nat) (write : Bool) (n : Nat) (latency : Option Nat) : Dev :=
  let r := tabGet { read := 0, written := 0, bins := [] } d.noc.stats key
  let b := latencyBin (latency.getD (Config.readLatency key r.read))
  let r' : InitStats := if write then { r with written := r.written + n }
    else { r with read := r.read + n, bins := tabSet r.bins b (min (tabGet 0 r.bins b + 1) (2 ^ 32 - 1)) }
  { d with noc := { d.noc with stats := tabSet d.noc.stats key r' } }

/-! ### Sending -/

/-- The answer to an on-chip request (R230): read data or a write acknowledgement, with the request's tag. -/
def nocAnswer (pkt : NocPacket) (st : Status) (data : List Byte) : NocPacket :=
  { vc := 1, dest := pkt.src, src := pkt.dest, op := if pkt.op = 0x01 then 0x03 else 0x04, tag := pkt.tag,
    status := BitVec.ofNat 8 st.code, lenm1 := pkt.lenm1, rslot := pkt.rslot, addr := pkt.addr,
    body := if pkt.op = 0x01 then .bytes data else .none }

/-- Packets that have been sent and have not arrived, in order. -/
def Noc.packets (n : Noc) : List NocPacket := n.flight ++ n.held

/-- Sends a packet. One whose route passes a draining bundle waits before it (R233). -/
def Dev.nocSend (d : Dev) (pkt : NocPacket) : Dev :=
  if d.pathDraining pkt then { d with noc := { d.noc with held := d.noc.held ++ [pkt] } }
  else { d with noc := { d.noc with flight := d.noc.flight ++ [pkt] } }

/-- A packet with its answer, which together carry `n` bytes at an address: a read or a write of a unit (R230). -/
def nocRequest (src dest : BitVec 9) (op : BitVec 6) (tag rslot a n : Nat) : NocPacket :=
  { vc := vcOf op, dest := dest, src := src, op := op, tag := BitVec.ofNat 12 tag, status := 0, lenm1 := BitVec.ofNat 8 (n - 1),
    rslot := BitVec.ofNat 7 rslot, addr := BitVec.ofNat 52 a, body := .none }

/-- A packet crosses the network in the step that sends it: the probes see it, and whether it gets there. -/
def Dev.cross (d : Dev) (k : NocPacket) : Bool × Dev := if d.pathDead k then (false, d.probesTo k d.bundleDead false) else (true, d.probes k)
/-- Packets cross; whether all of them get there. -/
def Dev.crossAll (d : Dev) (ks : List NocPacket) : Bool × Dev :=
  ks.foldl (fun acc k => let r := acc.2.cross k; (acc.1 && r.1, r.2)) (true, d)

end Sys2Proof.Machine
end

