-- ==== Sys2Proof/Machine/Rounds.lean ====
section
/-! DEFINITION. What a round holds and how causes reach it: detection of a cause (R8, R395), protected inputs (R147, R166), the
handle rings (R162 to R167), round events (R310), the fault log (R406), and the clearing of an aborted attempt's work (R390). -/

namespace Sys2Proof.Machine

/-- A cause reaches an open round in core cycle `now`. A running round is suspended (R395) with the cause that stands under R8 among those
of one cycle; what held the restart of a cause that no longer stands is gone, and PEER_LOST holds it (R268). A cause of a later cycle leaves
the round its status (R267); unless it is a hardware fault it ends the round whatever the attempt (R392). (DESIGN CHOICE, log entry 8) -/
def Round.raise (r : Round) (now : Nat) (st : Status) : Round :=
  if r.phase = .running then
    if r.cause.isNone ∨ r.causeAt = now then
      (let c := Status.join r.cause st
       if c = r.cause then r
       else { r with cause := c, causeAt := now, hold := if c = some .peerLost then .peer else .none, waitRegions := [] })
    else if st.isHardware then r
    else { r with later := Status.join r.later st }
  else if st.isHardware then r
  else { r with cause := Status.join r.cause st }

def Dev.raise (d : Dev) (n : RoundNo) (st : Status) : Dev := d.updRound n fun r => r.raise d.cycles st
/-- A cause whose restart is held (R268, R344, R397, R401). -/
def Dev.raiseHeld (d : Dev) (n : RoundNo) (st : Status) (h : Hold) (regions : List Nat) : Dev :=
  d.updRound n fun r =>
    let r' := r.raise d.cycles st
    if r.phase = .running ∧ r'.cause = some st then { r' with hold := h, waitRegions := r'.waitRegions ++ regions } else r'

/-- A round that may work: running, no cause detected. -/
def Round.active (r : Round) : Bool := r.phase = .running && r.cause.isNone
def Dev.roundActive (d : Dev) (n : RoundNo) : Bool := match d.round? n with | some r => r.active | none => false

/-- A descriptor fails: it takes the status, is due to complete, leaves its core's load engine, and its round takes the cause
(R7, R8). A write that fails after its descriptor has completed fails the round. -/
def Dev.failDesc (d : Dev) (k : DescKey) (st : Status) : Dev :=
  match d.desc? k with
  | some x =>
    if x.stage = .completed then d.raise x.round st
    else
      let joined := match x.status with | some s => if s.isSuccess then st else s.worse st | none => st
      let d := d.updDesc k fun x => { x with status := some joined, stage := .executed }
      (d.updCore x.core fun c => { c with loadQ := c.loadQ.filter fun q => q ≠ k }).raise x.round st
  | none => d

/-- Marks a descriptor. -/
def Dev.setStage (d : Dev) (k : DescKey) (st : Stage) : Dev := d.updDesc k fun x => { x with stage := st }

/-! ### Handle rings -/

/-- An entry of HandleRings (R162). -/
structure RingCfg where
  port : Bool
  count : Nat
  size : Nat
  base : Nat
deriving DecidableEq, Repr

/-- Ring `q` of a HandleRings string. -/
def ringCfgOf (v : List Byte) (q : Nat) : RingCfg :=
  let e := field v (8 * q) 8
  { port := bit e 56, count := bits e 55 52, size := (bits e 43 32 + 1) * 256, base := bits e 19 0 }

def Dev.ringCfg (d : Dev) (core q : Nat) : RingCfg := ringCfgOf (d.obj 0x4071 (core + 1)) q

/-- The ring whose address an access base names: core and ring (R163). -/
def Dev.ringAt (d : Dev) (a : Nat) : Option (Nat × Nat) :=
  if tileBase ≤ a ∧ a < tileBase + 0x10000000 then
    let n := (a - tileBase) / 0x200000
    ((List.range 16).find? fun q => 1 ≤ (d.ringCfg n q).count && (d.ringCfg n q).base == (a - tileBase) % 0x200000).map fun q => (n, q)
  else none

/-- Address of buffer `h` of a ring. -/
def Dev.bufAddr (d : Dev) (core q h : Nat) : Nat := let c := d.ringCfg core q; tileBase + core * 0x200000 + c.base + h * c.size

/-- Buffers of a ring that are neither queued nor held, rising. -/
def Dev.freeBufs (d : Dev) (core q : Nat) : List Nat :=
  let r := d.ring core q
  (List.range (d.ringCfg core q).count).filter fun h => !(r.queue.any (·.buf == h)) && !(r.held.any (·.handle.buf == h))

/-- Whether a held buffer is held on behalf of an open round. -/
def Holder.round? : Holder → Option RoundNo
  | .producer _ r => some r
  | .consumer _ r => some r
  | .port rv r _ done => if rv && !done then some r else none

/-- The round for which a held buffer is protected as an input (R166, R308). -/
def Holder.protects? : Holder → Option RoundNo
  | .producer _ _ => none
  | h => h.round?

/-- A ring after the abort of an attempt of round `n` (R167). -/
def Ring.restore (g : Ring) (n : RoundNo) : Ring :=
  let mine (h : Handle) : Bool := h.round == n && !h.committed
  let back := (g.held.filter fun e => e.holder.protects? = some n && !mine e.handle).map Held.handle
  { queue := back ++ g.queue.filter fun h => !mine h, held := g.held.filter fun e => e.holder.round? ≠ some n }

/-- A ring after round `n` commits (R146, R166, R309). -/
def Ring.commit (g : Ring) (n : RoundNo) : Ring :=
  let mark (h : Handle) : Handle := if h.round = n then { h with committed := true } else h
  let keep (e : Held) : Option Held :=
    match e.holder with
    | .port rv r released _ => if rv && r == n then (if released then none else some { handle := mark e.handle, holder := .port rv r released true })
        else some { e with handle := mark e.handle }
    | h => if h.round? = some n then none else some { e with handle := mark e.handle }
  { queue := g.queue.map mark, held := g.held.filterMap keep }

/-- Every ring of every core. -/
def Dev.mapRings (d : Dev) (f : Ring → Ring) : Dev :=
  { d with cores := d.cores.map fun e => (e.1, { e.2 with rings := e.2.rings.map fun g => (g.1, f g.2) }) }

/-! ### Protected inputs (R147, R166) -/

/-- [a, a + n) and [b, b + m) overlap. -/
def overlaps (a n b m : Nat) : Bool := a < b + m && b < a + n

/-- The open rounds for which some byte of a range is protected. -/
def Dev.protectors (d : Dev) (a n : Nat) : List RoundNo :=
  if n = 0 then [] else
  let declared := (d.rounds.filter fun r => r.inputs.any fun i => overlaps a n i.1 i.2).map Round.number
  let taken := d.cores.flatMap fun e => e.2.rings.flatMap fun g => g.2.held.filterMap fun h =>
    match h.holder.protects? with
    | some r => if overlaps a n (d.bufAddr e.1 g.1 h.handle.buf) (d.ringCfg e.1 g.1).size then some r else none
    | none => none
  declared ++ taken

/-- Each round of a list fails with INPUT_WRITE. -/
def Dev.failInputs (d : Dev) (rs : List RoundNo) : Dev := rs.foldl (fun d r => d.raise r .inputWrite) d

/-! ### Fabric-port words (R303, R304, R310) -/

/-- A response word (R303). -/
def responseWord (op : BitVec 4) (tag : BitVec 6) (st : Status) (handle : BitVec 3) (result : BitVec 52) : BitVec 128 :=
  op ++ tag ++ BitVec.ofNat 8 st.code ++ (0 : BitVec 55) ++ handle ++ result

/-- The port answers a command: it is outstanding no more. -/
def FabricPort.answer (p : FabricPort) (op : BitVec 4) (tag : BitVec 6) (st : Status) (handle : BitVec 3) (result : BitVec 52)
    (beats : List Byte) : FabricPort :=
  { p with
    outstanding := p.outstanding.filter fun o => o.2.tag ≠ tag
    responses := p.responses ++ [{ word := responseWord op tag st handle result, beats := beats }] }

/-- An event word joins a port's queue of 256; one that finds it full is dropped (R310). -/
def FabricPort.event (p : FabricPort) (kind : BitVec 2) (attempt : Nat) (round : RoundNo) (st : Status) : FabricPort :=
  if 256 ≤ p.events.length then { p with lost := true }
  else
    let w : BitVec 128 := (0xF : BitVec 4) ++ BitVec.ofBool p.lost ++ BitVec.ofNat 3 (min attempt 7) ++ round ++ kind
      ++ BitVec.ofNat 8 st.code ++ (0 : BitVec 78)
    { p with events := p.events ++ [w], lost := false }

/-- State and cause of a region: partition `p`, or 0 for the static region (R348). -/
def Dev.regionState (d : Dev) (p : Nat) : Nat × Nat := tabGet (0, 0) d.cfg.regions p
/-- A region that is not VALID is isolated, and so is every partition while the static region is (R335, R344). -/
def Dev.isolated (d : Dev) (p : Nat) : Bool := (d.regionState 0).1 != 1 || (d.regionState p).1 != 1
/-- The partition that owns a core's fabric port, 0 for the static region (R333). -/
def Dev.portRegion (d : Dev) (core : Nat) : Nat :=
  match d.cfg.design.partitions.find? fun e =>
      e.2.die == dieOf core && e.2.region == clusterOf core % 8 && e.2.portMask.getLsbD (core % 8) with
  | some e => e.1
  | none => 0
/-- The fabric port works: user mode, its region not isolated (R332, R335). -/
def Dev.portLive (d : Dev) (core : Nat) : Bool := d.cfg.state == 5 && !d.isolated (d.portRegion core)

/-- A round depends on the region of a port (R334). -/
def Dev.dependOn (d : Dev) (n : RoundNo) (core : Nat) : Dev :=
  d.updRound n fun r => if r.deps.contains (d.portRegion core) then r else { r with deps := r.deps ++ [d.portRegion core] }

/-- Every working fabric port is given an event word (R310). -/
def Dev.eventAll (d : Dev) (kind : BitVec 2) (attempt : Nat) (round : RoundNo) (st : Status) : Dev :=
  ((List.range 128).filter d.portLive).foldl (fun d n => d.updFab n fun p => p.event kind attempt round st) d

/-- The hold of a round's restart ends: an aborted round delivers a further event word (R310). (DEDUCED, log entry 51) -/
def Dev.endHold (d : Dev) (n : RoundNo) : Dev :=
  d.withRound n fun r =>
    let d1 := d.updRound n fun r => { r with hold := .none, waitRegions := [] }
    if r.phase ≠ .running ∧ (r.hold = .peer ∨ r.hold = .region) then d1.eventAll 1 r.attempt n (r.lastStatus.getD .hwUncorrectable) else d1

/-- An entry of the fault log (R406): outcome bits are ended, received on TALLY1, held. -/
def Dev.logFault (d : Dev) (round : RoundNo) (st : Status) (attempt : Nat) (ended received held : Bool) : Dev :=
  let o := (if ended then 1 else 0) + (if received then 2 else 0) + (if held then 4 else 0)
  let e : FaultEntry := { round := round, status := st, attempt := attempt, outcome := o, time := d.timestamp }
  { d with faultLog := logPush d.faultLog e }

/-! ### Clearing an attempt (R390) -/

/-- The Reckoner leaves the shadow bank, as PREL does (R189, R191, R197). -/
def Reckoner.leaveShadow (k : Reckoner) : Reckoner := { k with inShadow := false }

/-- The Reckoner of a core reads as idle (R193). -/
def Core.rkIdle (c : Core) : Bool := c.rk.waiting && !c.rk.inShadow && c.patchQ.isEmpty

/-- A fabric command of the attempt of a round (R306). -/
def cmdOfRound (c : FabCmd) (n : RoundNo) : Bool := c.rvalid && c.round == n

/-- Where the MATMUL in the array has gone, the one behind it takes its place (R172). -/
def ArrayEngine.promote (a : ArrayEngine) : ArrayEngine :=
  if a.job.isSome then a else { a with job := a.next, next := none, feeders := a.nextFeeders, nextFeeders := [] }

/-- The array after the abort of an attempt of a round (R69). -/
def ArrayEngine.clearRound (a : ArrayEngine) (n : RoundNo) : ArrayEngine :=
  let other (j : MatJob) : Bool := j.round != n
  let keys := ((a.job.toList ++ a.next.toList).filter other).map MatJob.key
  let left := { a with
    job := a.job.filter other, next := a.next.filter other, waiting := a.waiting.filter other
    shadow := a.shadow.filter fun t => keys.contains t.key, active := a.active.filter fun t => keys.contains t.key
    flight := a.flight.filter fun s => keys.contains s.key
    feeders := if (a.job.filter other).isSome then a.feeders else [], nextFeeders := if (a.next.filter other).isSome then a.nextFeeders else []
    hold := a.hold && (a.job.filter other).isSome }
  left.promote

/-- A core after the abort of an attempt of round `n`: its engine slots, feeder entries, tiles, steps, patch and fabric-port
commands of the round are gone and its beam rows released (R69, R75, R117, R191, R306). `mine` tells the round's descriptors. -/
def Core.clearRound (c : Core) (n : RoundNo) (st : Status) (mine : DescKey → Bool) : Core :=
  let slateMine := match c.slate.job with | some j => j.round == n | none => false
  let inPatch := match c.patchQ with | k :: _ => c.rk.inShadow && mine k | [] => false
  let gone := c.port.outstanding.filter fun o => cmdOfRound o.2 n
  let port := gone.foldl (fun p o => p.answer o.1 o.2.tag st 0 0 []) c.port
  { c with
    rk := if inPatch then c.rk.leaveShadow else c.rk
    slate := if slateMine then { c.slate with job := none } else c.slate
    array := c.array.clearRound n
    beam := c.beam.map fun b => (b.1, if b.2.owner = some n then { b.2 with owner := none, unread := false, writer := none } else b.2)
    loadQ := c.loadQ.filter fun k => !mine k
    patchQ := c.patchQ.filter fun k => !mine k
    chainOut := match c.chainOut with | some t => if t.round = n then none else some t | none => none
    chainParts := c.chainParts.filter fun t => t.tile.round ≠ n
    chainIn := c.chainIn.filter fun t => t.round ≠ n
    chainOrd := c.chainOrd.filter fun o => o.1 ≠ n
    carryOrd := c.carryOrd.filter fun o => o.1 ≠ n
    carryIn := c.carryIn.filter fun m => m.round ≠ n
    port := { port with injects := port.injects.filter (fun i => !cmdOfRound i n), orphans := port.orphans.filter fun o => !cmdOfRound o.2 n } }

/-- The device after the abort of an attempt: every core cleared, every ring put back, the reduction rows of the round dropped
and its descriptors gone (R390). (DEDUCED, log entry 74) -/
def Dev.clearRound (d : Dev) (n : RoundNo) (st : Status) : Dev :=
  let mine (k : DescKey) : Bool := match d.desc? k with | some x => x.round == n | none => false
  let d1 : Dev := { d with cores := d.cores.map fun e => (e.1, e.2.clearRound n st mine) }
  let d2 := d1.mapRings fun g => g.restore n
  { d2 with descs := d2.descs.filter fun x => x.round ≠ n,
            saeri := { d2.saeri with rows := d2.saeri.rows.filter (fun r => r.round ≠ n), rowAsks := d2.saeri.rowAsks.filter fun q => q.1 ≠ n } }

end Sys2Proof.Machine
end

