-- ==== Sys2Proof/Machine/Cells.lean ====
section
/-! DEFINITION. The logic fabric as a design sets it: cells, combining paths, global clocks, user I/O (R294 to R299, R313, R314). -/

namespace Sys2Proof.Machine

/-! ### What a design says -/

/-- The cluster and the die of a cell block (R295). -/
def blockCluster (b : Nat) : Nat := b / 18432
def blockDie (b : Nat) : Nat := blockCluster b / 8

/-- The loaded design uses a cell of a cluster (R298). -/
def Dev.usesCluster (d : Dev) (c : Nat) : Bool := d.cfg.design.blocks.any fun e => blockCluster e.1 == c && !e.2.cells.isEmpty

def Dev.block (d : Dev) (b : Nat) : BlockCfg := (tabFind d.cfg.design.blocks b).getD default
def cellOf (k : BlockCfg) (i : Nat) : CellCfg := (tabFind k.cells i).getD default
def Dev.bank (d : Dev) (b : Nat) : Option BankCfg := tabFind d.cfg.design.banks b

/-- The partition that owns an I/O bank, 0 for the static region (R333). -/
def Dev.bankRegion (d : Dev) (b : Nat) : Nat :=
  match d.cfg.design.partitions.find? fun e => e.2.die == b / 8 && e.2.bankMask.getLsbD (b % 8) with
  | some e => e.1
  | none => 0

/-- Edges of a global clock up to a core cycle: 800 MHz / DIV from core cycles of 1.6 or 1.4 GHz (R299). -/
def gclkEdges (div cycles : Nat) : Nat := if Config.gradeA16 then cycles / (2 * div) else cycles * 4 / (7 * div)
/-- DIV of a clock of a die (R299). -/
def Dev.clockDiv (d : Dev) (die k : Nat) : Nat := tabGet 0 d.cfg.design.clockDiv (16 * die + k) + 1
/-- A global clock has an edge in the core cycle at hand. -/
def Dev.gclk (d : Dev) (die k : Nat) : Bool :=
  let v := d.clockDiv die k
  gclkEdges v d.cycles != gclkEdges v (d.cycles + 1)

/-! ### Signals -/

def Dev.flop (d : Dev) (b i : Nat) : Bool := tabGet (cellOf (d.block b) i).init d.logic.flops (8 * b + i)
def Dev.ioCell (d : Dev) (p : Nat) : IoCell := tabGet IoCell.reset d.logic.io p

/-- The output of a look-up table: bit [I3 I2 I1 I0] of its truth table (R294). -/
def lutOut (c : CellCfg) (at_ : Net → Bool) : Bool :=
  c.lut.getLsbD ((at_ c.i0).toNat + 2 * (at_ c.i1).toNat + 4 * (at_ c.i2).toNat + 8 * (at_ c.i3).toNat)

/-- The word that a deserialiser shows: eight of the last 16 bits (R314). -/
def IoCell.shown (c : IoCell) : BitVec 8 := BitVec.extractLsb' (c.slip % 8) 8 c.window

/-- The block that drives a net. -/
def netBlock : Net → Option Nat
  | .cell b _ | .pair b _ | .quad b _ | .octet b => some b
  | _ => none

/-- A net as a reader of die `die` and region `p` sees it. No net crosses the seam (R297); from an isolated region come its safe constants
(R333, R335). Each combining path selects between the two below it (R295). A loop of look-up tables settles on nothing that the manual
states. (DEDUCED, log entry 95) -/
def Dev.net (d : Dev) : Nat → Nat → Nat → Net → Bool
  | 0, _, _, _ => Config.loopSignal d.draws
  | fuel + 1, die, p, n =>
    match n with
    | .low => false
    | .high => true
    | .pin k => (d.ioCell k).line.getLsbD 7 && k / 128 == die
    | .deser k i => (d.ioCell k).shown.getLsbD i && k / 128 == die
    | .hard k => Config.hardSignal d.draws k
    | _ =>
      match netBlock n with
      | none => false
      | some b =>
        let k := d.block b
        if blockDie b ≠ die then false
        else if k.region ≠ p ∧ d.isolated k.region then k.safe.contains n
        else
          let at_ := d.net fuel die k.region
          let lut (i : Nat) : Bool := lutOut (cellOf k i) at_
          let pair (j : Nat) : Bool := if at_ (k.pairSel.getD j .low) then lut (2 * j + 1) else lut (2 * j)
          let quad (j : Nat) : Bool := if at_ (k.quadSel.getD j .low) then pair (2 * j + 1) else pair (2 * j)
          match n with
          | .cell _ i => if (cellOf k i).fromFlop then d.flop b i else lut i
          | .pair _ j => pair j
          | .quad _ j => quad j
          | _ => if at_ k.octetSel then quad 1 else quad 0

/-- More levels of look-up tables than any path without a loop can have. -/
def Dev.netFuel (d : Dev) : Nat := (d.cfg.design.blocks.map fun e => 8 * e.2.cells.length + 7).foldl (· + ·) 2
def Dev.signal (d : Dev) (die p : Nat) (n : Net) : Bool := d.net d.netFuel die p n

/-! ### Clocking -/

/-- The flip-flops and the fabric clocks run: in user mode, and in start-up once step 2 has released the flip-flops (R332). -/
def Dev.fabricRuns (d : Dev) : Bool := d.cfg.state == 5 || (d.cfg.state == 4 && 3 ≤ d.cfg.phase)

/-- A flip-flop after an edge of its block's clock (R294). (DESIGN CHOICE, log entry 100) -/
def Dev.flopNext (d : Dev) (b : Nat) (k : BlockCfg) (i : Nat) (c : CellCfg) : Bool :=
  let at_ := d.signal (blockDie b) k.region
  if at_ c.setReset ∧ (at_ c.enable ∨ !Config.resetNeedsEnable) then c.init
  else if at_ c.enable then (match c.bypass with | some n => at_ n | none => lutOut c at_)
  else d.flop b i

/-- The flip-flops whose clock has an edge in the core cycle at hand, and what they take. -/
def Dev.flopsNext (d : Dev) : List (Nat × Bool) :=
  (d.cfg.design.blocks.filter fun e => d.gclk (blockDie e.1) e.2.clock).flatMap fun e =>
    e.2.cells.map fun c => (8 * e.1 + c.1, d.flopNext e.1 e.2 c.1 c.2)

/-! ### User I/O (R313, R314) -/

/-- A bank is driven as configured: user mode, and its region not isolated. -/
def Dev.bankLive (d : Dev) (b : Nat) : Bool := d.cfg.state == 5 && !d.isolated (d.bankRegion b)

/-- What a pin puts on the board in this cycle, oldest bit first; nothing while it is high-impedance (R313). The odd pin of a pair carries the
complement. -/
def Dev.pad (d : Dev) (p : Nat) : Option (BitVec 8) :=
  match d.bank (p / 16) with
  | none => none
  | some k =>
    let q := if k.standard = .lvds then p / 2 * 2 else p
    let c := d.ioCell q
    if d.bankLive (p / 16) && (tabFind k.pins (q % 16)).isSome && c.drives then some (if q = p then c.word else ~~~c.word) else none

/-- An I/O cell after a core cycle. `edge`: the parallel clock has one. A bit-slip moves the shown word by one bit. (DEDUCED, log entry 96) -/
def Dev.ioNext (d : Dev) (p : Nat) (k : BankCfg) (c : PinCfg) : IoCell :=
  let at_ := d.signal (p / 128) (d.bankRegion (p / 16))
  let x := d.ioCell p
  let line := (d.pad p).getD (Config.padBits d.draws p)
  let edge := d.gclk (p / 128) k.clock
  let word := BitVec.ofNat 8 (((List.range 8).map fun i => (at_ (c.word.getD i .low)).toNat * 2 ^ i).foldl (· + ·) 0)
  { word := if c.serial then (if edge then word else x.word) else if at_ c.out then 0xFF else 0
    drives := at_ c.enable
    window := if edge then line ++ BitVec.extractLsb' 8 8 x.window else x.window
    line := line
    slip := if edge ∧ at_ c.slip then (x.slip + 1) % 8 else x.slip }

/-- The I/O cells of the configured banks after a core cycle. -/
def Dev.iosNext (d : Dev) : List (Nat × IoCell) :=
  d.cfg.design.banks.flatMap fun b => b.2.pins.map fun c => (16 * b.1 + c.1, d.ioNext (16 * b.1 + c.1) b.2 c.2)

/-- The device pulls a user line of the Tally bus low: line 2 or 3, by a driver whose region is not isolated (R335, R414). -/
def Dev.pullsTally (d : Dev) (line : Nat) : Bool :=
  d.cfg.state == 5 && d.cfg.design.tallyDrivers.any fun e =>
    e.1 == line && !d.isolated e.2.1 && ((List.range 2).any fun die => d.signal die e.2.1 e.2.2)

/-- A core cycle of the logic fabric. -/
def Dev.fabricCycle (d : Dev) : Dev :=
  if !d.fabricRuns then d
  else
    { d with logic := { flops := d.flopsNext.foldl (fun t e => tabSet t e.1 e.2) d.logic.flops
                        io := d.iosNext.foldl (fun t e => tabSet t e.1 e.2) d.logic.io } }

/-- The flip-flops of a region take their initial values (R338, R339). -/
def Dev.initRegion (d : Dev) (p : Nat) : Dev :=
  { d with logic := { d.logic with flops := d.logic.flops.filter fun e => (d.block (e.1 / 8)).region != p } }

end Sys2Proof.Machine
end

