-- ==== Sys2Proof/Machine/Crypto.lean ====
section
/-! DEFINITION. AES-256, GCM and CRC-64/ECMA-182, which R318, R320 and R323 name. PRESUMED: the manual names the algorithms; their
steps are those of the public standards (FIPS 197, SP 800-38D, ECMA-182). -/

namespace Sys2Proof.Machine

/-! ### The field of AES -/

def xtime (b : Byte) : Byte := (b <<< 1) ^^^ (if b.msb then 0x1B else 0)

/-- Product in GF(2^8), over the low `n` bits of the second factor. -/
def gfMulAux : Nat → Byte → Byte → Byte
  | 0, _, _ => 0
  | n + 1, a, b => (if b.getLsbD 0 then a else 0) ^^^ gfMulAux n (xtime a) (b >>> 1)
def gfMul (a b : Byte) : Byte := gfMulAux 8 a b

/-- b^254, the inverse (0 for 0). -/
def gfInv (b : Byte) : Byte :=
  let b2 := gfMul b b
  let b3 := gfMul b2 b
  let b6 := gfMul b3 b3
  let b12 := gfMul b6 b6
  let b15 := gfMul b12 b3
  let b30 := gfMul b15 b15
  let b60 := gfMul b30 b30
  let b120 := gfMul b60 b60
  let b126 := gfMul b120 b6
  let b252 := gfMul b126 b126
  gfMul b252 b2

/-- The S-box. -/
def aesSbox (b : Byte) : Byte :=
  let i := gfInv b
  i ^^^ i.rotateLeft 1 ^^^ i.rotateLeft 2 ^^^ i.rotateLeft 3 ^^^ i.rotateLeft 4 ^^^ 0x63

/-- The S-box as a list, so that it is computed once. -/
def sboxList : List Byte := (List.range 256).map fun i => aesSbox (BitVec.ofNat 8 i)
def subByte (b : Byte) : Byte := sboxList.getD b.toNat 0

def xorBytes (a b : List Byte) : List Byte := (a.zip b).map fun p => p.1 ^^^ p.2

/-! ### AES-256 -/

/-- Key words, latest first; `i` counts from 8. -/
def keyExpand : Nat → Nat → Byte → List (List Byte) → List (List Byte)
  | 0, _, _, ws => ws
  | n + 1, i, rc, ws =>
    let t := ws.headD []
    let t' := if i % 8 = 0 then
        let r := (t.drop 1 ++ t.take 1).map subByte
        xorBytes r [rc, 0, 0, 0]
      else if i % 8 = 4 then t.map subByte else t
    let w := xorBytes (ws.getD 7 []) t'
    keyExpand n (i + 1) (if i % 8 = 0 then xtime rc else rc) (w :: ws)

/-- The 15 round keys of a 32-byte key. -/
def roundKeys (key : List Byte) : List (List Byte) :=
  let first := ((List.range 8).map fun i => slice key (4 * i) 4).reverse
  let ws := (keyExpand 52 8 1 first).reverse
  (List.range 15).map fun r => ((List.range 4).flatMap fun j => ws.getD (4 * r + j) [])

def shiftRows (s : List Byte) : List Byte := (List.range 16).map fun i => s.getD ((i + 4 * (i % 4)) % 16) 0

def mixColumn (c : List Byte) : List Byte :=
  let a (i : Nat) : Byte := c.getD (i % 4) 0
  (List.range 4).map fun i => xtime (a i) ^^^ (xtime (a (i + 1)) ^^^ a (i + 1)) ^^^ a (i + 2) ^^^ a (i + 3)

def mixColumns (s : List Byte) : List Byte := (List.range 4).flatMap fun c => mixColumn (slice s (4 * c) 4)

/-- The middle rounds and the last one. -/
def aesRounds : List (List Byte) → List Byte → List Byte
  | [], s => s
  | [k], s => xorBytes (shiftRows (s.map subByte)) k
  | k :: ks, s => aesRounds ks (xorBytes (mixColumns (shiftRows (s.map subByte))) k)

/-- AES-256 of one block. -/
def aesEncrypt (key block : List Byte) : List Byte :=
  match roundKeys key with
  | k :: ks => aesRounds ks (xorBytes block k)
  | [] => block

/-! ### GCM -/

/-- A block as a 128-bit string, first byte in the highest bits. -/
def blockBits (b : List Byte) : BitVec 128 := BitVec.ofNat 128 ((slice b 0 16).foldl (fun n x => n * 256 + x.toNat) 0)
def bitsBlock (v : BitVec 128) : List Byte := (leBytes 16 v.toNat).reverse

/-- Product in GF(2^128) as GCM defines it, over `n` bits from the highest of `x`. -/
def ghashMulAux : Nat → BitVec 128 → BitVec 128 → BitVec 128 → BitVec 128
  | 0, _, _, z => z
  | n + 1, x, v, z =>
    ghashMulAux n (x <<< 1) ((v >>> 1) ^^^ (if v.getLsbD 0 then BitVec.ofNat 128 (0xE1 * 2 ^ 120) else 0)) (if x.msb then z ^^^ v else z)
def ghashMul (x y : BitVec 128) : BitVec 128 := ghashMulAux 128 x y 0

/-- The hash after the whole blocks of some bytes. -/
def ghash (h : BitVec 128) (y : BitVec 128) (b : List Byte) : BitVec 128 :=
  (List.range (ceilDiv b.length 16)).foldl (fun y i => ghashMul (y ^^^ blockBits (slice b (16 * i) 16)) h) y

/-- The counter block of an IV. -/
def gcmCounter (iv : List Byte) (c : Nat) : List Byte := slice iv 0 12 ++ (leBytes 4 c).reverse

/-- Bytes under the key stream from counter `c` on. -/
def gcmCrypt (key iv : List Byte) (c : Nat) (b : List Byte) : List Byte :=
  (List.range (ceilDiv b.length 16)).flatMap fun i => xorBytes (b.drop (16 * i) |>.take 16) (aesEncrypt key (gcmCounter iv (c + i)))

/-- The hash key. -/
def gcmH (key : List Byte) : BitVec 128 := blockBits (aesEncrypt key (List.replicate 16 0))

/-- The tag from the hash over header and body. -/
def gcmTag (key iv : List Byte) (y : BitVec 128) (aadLen bodyLen : Nat) : List Byte :=
  let h := gcmH key
  let y := ghashMul (y ^^^ BitVec.ofNat 128 (8 * aadLen * 2 ^ 64 + 8 * bodyLen)) h
  xorBytes (bitsBlock y) (aesEncrypt key (gcmCounter iv 1))

/-! ### CRC-64 -/

def crcStep : Nat → BitVec 64 → BitVec 64
  | 0, c => c
  | n + 1, c => crcStep n ((c <<< 1) ^^^ (if c.msb then 0x42F0E1EBA9EA3693 else 0))

/-- CRC-64 with the ECMA-182 polynomial, most significant bit first, start value 0. -/
def crc64 (b : List Byte) : BitVec 64 :=
  b.foldl (fun c x => crcStep 8 (c ^^^ BitVec.ofNat 64 (x.toNat * 2 ^ 56))) 0

end Sys2Proof.Machine
end

