-- ==== Sys2Proof/Machine/SeqRange.lean ====
section
/-! DEFINITION. The Sequencer range (R125): flags, stream control blocks (R126, R127), ABORT (R149) and TIMESTAMP; and which fabric
user space is populated (R20, R311). -/

namespace Sys2Proof.Machine

/-! ### Fabric user space -/

/-- The core whose live fabric port claims the slice of a user-space address (R311, R20). -/
def Dev.sliceOwner (d : Dev) (a : Nat) : Option Nat :=
  match tabGet 0 d.cfg.design.claims ((a - userBase) / 0x100000000) with
  | 0 => none
  | n + 1 => if d.portLive n then some n else none

/-- Every slice of a range of user space is claimed and live. -/
def Dev.userLive (d : Dev) (a n : Nat) : Bool :=
  n != 0 && (List.range ((a + n - 1 - userBase) / 0x100000000 + 1 - (a - userBase) / 0x100000000)).all fun i =>
    (d.sliceOwner (a + i * 0x100000000)).isSome

/-- A range lies wholly in populated space outside the Sequencer range and the dictionary mirror (R127). -/
def Dev.ringSpace (d : Dev) (a n : Nat) : Bool :=
  match d.regionOfRange a n with
  | .hbm | .scratch _ | .tile _ | .rk _ => true
  | .user => d.userLive a n
  | _ => false

/-! ### Streams -/

/-- Ring entries of a stream. -/
def Stream.entries (x : Stream) : Nat := x.size.toNat * 16
/-- An index modulo the ring size. -/
def Stream.wrap (x : Stream) (i : Nat) : Nat := if x.entries = 0 then 0 else i % x.entries
/-- The stream has unreleased slots. -/
def Stream.unreleased (x : Stream) : Bool := x.release != x.fetch
/-- The ring is empty (R128). -/
def Stream.empty (x : Stream) : Bool := x.wrap x.tail.toNat == x.fetch.toNat
/-- Place of a slot counted from RELEASE. -/
def Stream.place (x : Stream) (slot : Nat) : Nat := x.wrap (slot + x.entries - x.release.toNat)

/-- An enable is refused (R127, R332). -/
def Dev.enableBad (d : Dev) (x : Stream) : Bool :=
  let n := x.size.toNat
  d.cfg.state != 5 || n == 0 || n != 2 ^ Nat.log2 n || 4096 < n || x.ringBase.toNat % 128 != 0 || x.cplBase.toNat % 16 != 0
    || !d.ringSpace x.ringBase.toNat (128 * x.entries) || !d.ringSpace x.cplBase.toNat (16 * x.entries)

/-- A write of ENABLE = 1 (R127). A stream that runs already is left as it is. -/
def streamEnable (s : Nat) (d : Dev) : Dev :=
  let x := d.stream s
  if x.enable then d
  else if d.enableBad x then d.updStream s fun x => { x with status := 0x12 }
  else if x.unreleased then d.updStream s fun x => { x with enable := true, status := 0 }
  else d.updStream s fun x =>
    { x with enable := true, status := 0, fetch := 0, release := 0, tail := 0, phase := true, freed := [], refetch := [], openWait := false,
             remote := [], remoteStatus := none }

/-- A write of ENABLE = 0 (R127). -/
def streamDisable (s : Nat) (d : Dev) : Dev := d.updStream s fun x => { x with enable := false }

/-- Descriptors in flight (R130): from fetch to completion. -/
def Dev.inFlight (d : Dev) : Nat := (d.descs.filter fun x => x.stage != .completed).length

/-- The oldest fetched descriptor of a stream that is not issued (R132). -/
def Dev.oldestUnissued (d : Dev) (s : Nat) : Option Desc :=
  let x := d.stream s
  (d.descs.filter fun q => q.key.stream == s && q.stage == .fetched).foldl
    (fun best q => match best with
      | none => some q
      | some b => if x.place q.key.slot < x.place b.key.slot then some q else some b) none

/-- The stream is blocked on a wait (R132). -/
def Dev.blockedOnWait (d : Dev) (s : Nat) : Bool := match d.oldestUnissued s with | some x => (d.firstWait x).isSome | none => false

/-- STATE of R126. A stream that is blocked on a wait reads 2 also while 1,024 descriptors are in flight. (DESIGN CHOICE, log entry 77) -/
def Dev.streamState (d : Dev) (s : Nat) : Nat :=
  let x := d.stream s
  if !x.enable then 0
  else if (x.openWait && !(x.empty && x.refetch.isEmpty)) || d.blockedOnWait s then 2
  else if x.empty && x.refetch.isEmpty then 3
  else if 1024 ≤ d.inFlight then 4
  else 1

/-- Streams that FabricStreams marks (R307). -/
def Dev.fabricStream (d : Dev) (s : Nat) : Bool := bit (field (d.obj 0x4130 1) (s / 8) 1) (s % 8)

/-- Word `w` of a stream control block as read (R126). -/
def Dev.blockRead (d : Dev) (s w : Nat) : Nat :=
  let x := d.stream s
  match w with
  | 0 => x.ringBase.toNat
  | 1 => x.cplBase.toNat
  | 2 => x.size.toNat + if x.enable then 2 ^ 63 else 0
  | 3 => x.tail.toNat
  | 4 => x.release.toNat * 2 ^ 16 + x.fetch.toNat
  | 5 => d.streamState s * 2 ^ 8 + x.status.toNat
  | 6 => x.tolerance.toNat
  | _ => 0

/-- The doorbell: TAIL is taken modulo the ring size (R126). -/
def doorbell (s : Nat) (tail : BitVec 16) (d : Dev) : Dev :=
  d.updStream s fun x => { x with tail := BitVec.ofNat 16 (if x.entries = 0 then tail.toNat else x.wrap tail.toNat) }

/-- A write of a word of a stream control block (R126, R127). `ext`: from the host or a Saeri peer (R307). -/
def Dev.blockWrite (d : Dev) (s w v : Nat) (ext : Bool) : Status × Dev :=
  let x := d.stream s
  let open' := !x.enable && !x.unreleased
  match w with
  | 0 => (.done, if open' then d.updStream s fun x => { x with ringBase := BitVec.ofNat 52 v } else d)
  | 1 => (.done, if open' then d.updStream s fun x => { x with cplBase := BitVec.ofNat 52 v } else d)
  | 2 =>
    let d1 := if open' then d.updStream s fun x => { x with size := BitVec.ofNat 13 v } else d
    (.done, if bit v 63 then streamEnable s d1 else streamDisable s d1)
  | 3 => if ext && d.fabricStream s then (.address, d) else (.done, doorbell s (BitVec.ofNat 16 v) d)
  | 6 => (.done, d.updStream s fun x => { x with tolerance := BitVec.ofNat 32 v })
  | _ => (.done, d)

/-! ### The range -/

/-- What an access of the Sequencer range names (R125). -/
inductive SeqReg where
  | add (f : Nat)
  | set (f : Nat)
  | block (s w : Nat)
  | abort
  | timestamp
deriving DecidableEq, Repr

/-- The register of an access of `n` bytes at an offset; none for any other access. -/
def seqReg (off n : Nat) : Option SeqReg :=
  if n = 4 ∧ off % 4 = 0 ∧ off < 0x4000 then some (.add (off / 4))
  else if n = 4 ∧ off % 4 = 0 ∧ 0x10000 ≤ off ∧ off < 0x14000 then some (.set ((off - 0x10000) / 4))
  else if n ≠ 8 ∨ off % 8 ≠ 0 then none
  else if 0x100000 ≤ off ∧ off < 0x104000 then some (.block ((off - 0x100000) / 0x40) (off % 0x40 / 8))
  else if off = 0x200000 then some .abort
  else if off = 0x200008 then some .timestamp
  else none

/-- A read of the range. -/
def Dev.seqRead (d : Dev) (off n : Nat) : Status × List Byte :=
  match seqReg off n with
  | some (.add f) | some (.set f) => (.done, leBytes 4 (d.flag f).toNat)
  | some (.block s w) => (.done, leBytes 8 (d.blockRead s w))
  | some .abort => (.done, leBytes 8 0)
  | some .timestamp => (.done, leBytes 8 d.timestamp)
  | none => (.address, deadBytes off n)

/-- Adds to a flag modulo 2^32; sets a flag (R125, R131). -/
def flagAdd (f : Nat) (v : Word) (d : Dev) : Dev := d.setFlag f (d.flag f + v)
def flagSet (f : Nat) (v : Word) (d : Dev) : Dev := d.setFlag f v

/-- A write of a round number to ABORT (R149). -/
def hostAbort (n : RoundNo) (d : Dev) : Dev := d.raise n .hostAbort

/-- A write of the range. -/
def Dev.seqWrite (d : Dev) (off : Nat) (b : List Byte) (ext : Bool) : Status × Dev :=
  let v := leNat b
  match seqReg off b.length with
  | some (.add f) => (.done, flagAdd f (BitVec.ofNat 32 v) d)
  | some (.set f) => (.done, flagSet f (BitVec.ofNat 32 v) d)
  | some (.block s w) => d.blockWrite s w v ext
  | some .abort => (.done, hostAbort (BitVec.ofNat 32 v) d)
  | some .timestamp => (.done, d)
  | none => (.address, d)

/-! ### The commands -/

/-- FLAG_ADD (R125). -/
def execFlagAdd (flag : FlagId) (value : Word) (s : State) : Host.Outcome State Fault Refusal := s.onClock (flagAdd flag.toNat value)
/-- FLAG_SET (R125). -/
def execFlagSet (flag : FlagId) (value : Word) (s : State) : Host.Outcome State Fault Refusal := s.onClock (flagSet flag.toNat value)
/-- STREAM_ENABLE (R127). -/
def execStreamEnable (stream : StreamId) (s : State) : Host.Outcome State Fault Refusal := s.onClock (streamEnable stream.toNat)
/-- STREAM_DISABLE (R127). -/
def execStreamDisable (stream : StreamId) (s : State) : Host.Outcome State Fault Refusal := s.onClock (streamDisable stream.toNat)
/-- DOORBELL (R126): dropped, and reported to the host with ADDRESS, for a stream that fabric logic feeds (R307). -/
def execDoorbell (stream : StreamId) (tail : BitVec 16) (s : State) : Host.Outcome State Fault Refusal :=
  s.onClock fun d =>
    if d.fabricStream stream.toNat then { d with hostOut := d.hostOut ++ [{ status := .address, data := [] }] }
    else doorbell stream.toNat tail d
/-- ABORT (R149). -/
def execAbort (round : RoundNo) (s : State) : Host.Outcome State Fault Refusal := s.onClock (hostAbort round)

end Sys2Proof.Machine
end

