-- ==== Sys2Proof/Machine/Saeri.lean ====
section
/-! DEFINITION. The Saeri fabric: topology and routes (R252 to R256), sending packets over the ports (R285, R286), answers to
accesses, and departures (R267). -/

namespace Sys2Proof.Machine

/-! ### Topology and routes -/

/-- A Topology string: kind, and node ID and parent position of each member (R252). -/
structure Topo where
  kind : Nat
  nodes : List (Nat × Nat)
deriving DecidableEq, Repr

def topoOf (v : List Byte) : Topo :=
  { kind := field v 0 1, nodes := (List.range (field v 1 2)).map fun i => (field v (3 + 4 * i) 2, field v (5 + 4 * i) 2) }

/-- Position of a node. -/
def Topo.pos? (t : Topo) (node : Nat) : Option Nat := t.nodes.findIdx? fun e => e.1 == node
def Topo.nodeAt (t : Topo) (pos : Nat) : Nat := ((t.nodes[pos]?).map (·.1)).getD 0xFFFF

/-- A tree position and its ancestors, at most `fuel` of them. -/
def Topo.ancestors (t : Topo) : Nat → Nat → List Nat
  | 0, _ => []
  | fuel + 1, p =>
    p :: match t.nodes[p]? with
      | some e => if e.2 = 0xFFFF then [] else t.ancestors fuel e.2
      | none => []

/-- Positions from `s` (left out) to `d` in the increasing direction, modulo `n`. -/
def stepsUp (n s d : Nat) : List Nat := (List.range ((d + n - s) % n)).map fun i => (s + i + 1) % n
/-- The same in the decreasing direction. -/
def stepsDown (n s d : Nat) : List Nat := (List.range ((s + n - d) % n)).map fun i => (s + n - 1 - i % n) % n

/-- The positions a request passes from `s` to `d`, `d` last; none where a departed position is in the way (R253, R267). -/
def Topo.route (t : Topo) (gone : Nat → Bool) (s d : Nat) : Option (List Nat) :=
  let n := t.nodes.length
  let free (l : List Nat) : Option (List Nat) := if l.any gone then none else some l
  if s = d then some []
  else if t.kind = 1 then free (if s < d then stepsUp n s d else stepsDown n s d)
  else if t.kind = 2 then
    let up := stepsUp n s d
    let down := stepsDown n s d
    if (List.range n).any gone then (match free up with | some l => some l | none => free down)
    else some (if up.length ≤ down.length then up else down)
  else if t.kind = 3 then
    let a := t.ancestors n s
    let b := t.ancestors n d
    match a.find? fun p => b.contains p with
    | some top => free ((a.takeWhile fun p => p ≠ top).drop 1 ++ (if top = s then [] else [top]) ++ (b.takeWhile fun p => p ≠ top).reverse)
    | none => none
  else none

/-- This device's node ID (R243). -/
def Dev.nodeId (d : Dev) : NodeId := BitVec.ofNat 12 (d.objNat 0x1110 1)

/-- Whether a node ID of SIGNAL or of a flag add names this device (R242). -/
def Dev.isHere (d : Dev) (n : NodeId) : Bool := n = 0xFFF || n = d.nodeId

/-- The topology that the routes follow, and the route to a node. -/
def Dev.topo (d : Dev) : Topo := topoOf d.saeri.routeTopo
def Dev.routeTo (d : Dev) (node : NodeId) : Option (List Nat) :=
  let t := d.topo
  match t.pos? d.nodeId.toNat, t.pos? node.toNat with
  | some s, some p => t.route (fun q => d.saeri.departed.contains (BitVec.ofNat 12 (t.nodeAt q))) s p
  | _, _ => none

/-- State and hop count of NodeState (R269): 0 unknown, 1 reachable, 2 joining, 3 departed, 4 unreachable, 5 this node. -/
def Dev.nodeState (d : Dev) (node : NodeId) : Nat × Nat :=
  if node = d.nodeId then (5, 0)
  else match tabFind d.saeri.nodeState node.toNat with
    | some b => (b.toNat / 32, b.toNat % 32)
    | none =>
      if d.saeri.departed.contains node then (3, 0)
      else match d.topo.pos? node.toNat with
        | none => (0, 0)
        | some _ =>
          match d.routeTo node with
          | some l => if l.length * 96 ≤ d.objNat 0x2110 2 then (1, min 31 l.length) else (4, min 31 l.length)
          | none => (4, 0)

/-- The node is departed or unreachable (R250, R267). -/
def Dev.nodeLost (d : Dev) (node : NodeId) : Bool := let s := (d.nodeState node).1; s == 3 || s == 4

/-- Position that a port reaches by a PortRole string. -/
def roleOf (v : List Byte) (port : Nat) : Nat := field v (2 * port) 2

/-- A departed node of a topology that is a neighbour, no port to which is up. -/
def Dev.stillGone (d : Dev) (t : Topo) (role : List Byte) (node : NodeId) : Bool :=
  d.saeri.departed.contains node && (List.range 16).any (fun p => t.nodeAt (roleOf role p) == node.toNat)
    && !(List.range 16).any fun p => (d.port p).step == 7 && (d.port p).peerNode == node

/-- Working ports toward a position, rising (R253). -/
def Dev.portsTo (d : Dev) (pos : Nat) : List Nat :=
  (List.range 16).filter fun p => roleOf d.saeri.routeRole p == pos && (d.port p).step == 7

/-- The port a packet leaves by (R253). -/
def Dev.portFor (d : Dev) (src dst : NodeId) : Option Nat :=
  match d.routeTo dst with
  | some (hop :: _) =>
    let ps := d.portsTo hop
    if ps = [] then none else ps[(src.toNat + dst.toNat) % ps.length]?
  | _ => none

/-! ### Sending -/

/-- Whether a request asked for data. -/
def SaeriReq.isRead (q : SaeriReq) : Bool := match q.use with | .part p => p.data.isNone | _ => false

/-- Whether an open access belongs to the present attempt of a round. -/
def OpenAccess.ofRound (o : OpenAccess) (r : Round) : Bool :=
  match o.access.origin with
  | .engine _ n a => n == r.number && a == r.attempt
  | .fabric _ _ cmd => cmdOfRound cmd r.number
  | _ => false

/-- An outstanding request belongs to the present attempt of a round. -/
def Dev.reqOfRound (d : Dev) (r : Round) (q : SaeriReq) : Bool :=
  match q.use with
  | .part p => d.accesses.any fun o => o.id == p.id && o.ofRound r
  | .flagAdd (some (_, cmd)) => cmdOfRound cmd r.number
  | .signal _ n a => n == r.number && a == r.attempt
  | .flagAdd none | .restore _ _ => false

/-- The class of an operation: 0 management, 1 response, 2 request, 3 weight (R285). -/
def saeriClass (op : BitVec 6) : Nat :=
  if op = 0x08 then 0 else if op = 0x03 ∨ op = 0x04 then 1 else if op = 0x07 then 3 else 2

def Port.credit (p : Port) (c : Nat) : Nat := if c = 0 then p.crMg else if c = 1 then p.crRs else if c = 2 then p.crRq else p.crWt
def Port.useCredit (p : Port) (c : Nat) : Port :=
  if c = 0 then { p with crMg := p.crMg - 1 } else if c = 1 then { p with crRs := p.crRs - 1 }
  else if c = 2 then { p with crRq := p.crRq - 1 } else { p with crWt := p.crWt - 1 }

/-! ### Packets as words (R285) -/

/-- Data words of a packet. The first row of a tile carries a word before it. -/
def saeriDataWords (op : BitVec 6) (addr : BitVec 52) (lenm1 : Byte) : Nat :=
  if op = 0x02 ∨ op = 0x03 ∨ op = 0x05 ∨ op = 0x06 ∨ op = 0x07 ∨ op = 0x08 then
    ceilDiv (lenm1.toNat + 1) 16 + if op = 0x07 ∧ !addr.getLsbD 51 ∧ addr.toNat % 64 = 0 then 1 else 0
  else 0

/-- The header word of a packet. -/
def saeriHeader (k : SaeriPkt) : BitVec 128 := k.dnode ++ k.addr ++ k.snode ++ k.tag ++ k.lenm1 ++ k.status ++ k.op ++ (0 : BitVec 18)
/-- The words of a packet: its header word, then its data. -/
def saeriWords (k : SaeriPkt) : List (BitVec 128) :=
  saeriHeader k :: (List.range (saeriDataWords k.op k.addr k.lenm1)).map fun i => BitVec.ofNat 128 (field k.data (16 * i) 16)

/-- The packet of a header word and its data words. -/
def packetOf (w : BitVec 128) (data : List (BitVec 128)) : SaeriPkt :=
  let op := w.extractLsb' 18 6
  let addr := w.extractLsb' 64 52
  let lenm1 := w.extractLsb' 32 8
  let n := lenm1.toNat + 1 + 16 * (saeriDataWords op addr lenm1 - ceilDiv (lenm1.toNat + 1) 16)
  { dnode := w.extractLsb' 116 12, addr := addr, snode := w.extractLsb' 52 12, tag := w.extractLsb' 40 12, lenm1 := lenm1,
    status := w.extractLsb' 24 8, op := op, data := (data.flatMap fun x => leBytes 16 x.toNat).take n }

/-- The whole packets of a run of words, and the words of one whose others are to come; padding words are skipped. `fuel` bounds the packets. -/
def parsePackets : Nat → List (BitVec 128) → List SaeriPkt × List (BitVec 128)
  | _, [] => ([], [])
  | 0, l => ([], l)
  | fuel + 1, w :: t =>
    if w.extractLsb' 18 6 = 0 then parsePackets fuel t
    else
      let n := saeriDataWords (w.extractLsb' 18 6) (w.extractLsb' 64 52) (w.extractLsb' 32 8)
      if t.length < n then ([], w :: t)
      else let r := parsePackets fuel (t.drop n); (packetOf w (t.take n) :: r.1, r.2)

/-! ### Frames that a port sends (R282, R285 to R288) -/

/-- Credits of a class that the next frame returns. -/
def Port.returns (q : Port) (c : Nat) : Nat := min 15 (tabGet 0 q.owed c)

/-- A port sends a frame: ACK is the last good SEQ, NAK and the credits owed go with it (R282, R286, R287). -/
def Port.sendHeader (q : Port) (me : NodeId) (type : BitVec 4) (seq : BitVec 12) (departed : NodeId) : Port :=
  let cr (c : Nat) : BitVec 4 := BitVec.ofNat 4 (q.returns c)
  { q with
    sentHeader := type ++ seq ++ (q.rxSeq - 1) ++ BitVec.ofBool q.nak ++ (0 : BitVec 7) ++ me ++ cr 0 ++ cr 3 ++ cr 1 ++ cr 2 ++ departed ++ (0 : BitVec 52)
    nak := false
    owed := (List.range 4).foldl (fun t c => if q.returns c = 0 then t else tabSet t c (tabGet 0 t c - q.returns c)) q.owed }

/-- Packets with the word at which each begins. -/
def placed : Nat → List SaeriPkt → List (Nat × SaeriPkt)
  | _, [] => []
  | n, k :: t => (n, k) :: placed (n + (saeriWords k).length) t

/-- Packets packed end to end into data frames of 31 payload words, the last one filled with padding (R285). -/
def framesOf (seq : BitVec 12) (ks : List SaeriPkt) : List SentFrame :=
  let ws := ks.flatMap saeriWords
  let at' := placed 0 ks
  (List.range (ceilDiv ws.length 31)).map fun i =>
    let mine := at'.filter fun e => e.1 < 31 * i + 31 && 31 * i < e.1 + (saeriWords e.2).length
    let l := (ws.drop (31 * i)).take 31
    { seq := seq + BitVec.ofNat 12 i, words := l ++ List.replicate (31 - l.length) 0, packets := mine.map (·.2),
      cont := mine.head?.any fun e => e.1 < 31 * i, sends := 1 }

/-- A port sends packets in frames. -/
def Port.sendPackets (q : Port) (me : NodeId) (ks : List SaeriPkt) : Port :=
  (framesOf q.txSeq ks).foldl (fun q f => { q.sendHeader me 1 f.seq 0 with txSeq := f.seq + 1, replay := q.replay ++ [f] }) q

/-- Packets whose first word stands in one of these frames, and the one that goes on in the first. -/
def framePackets : List SentFrame → List SaeriPkt
  | [] => []
  | f :: t => f.packets ++ t.flatMap fun g => if g.cont then g.packets.drop 1 else g.packets

/-- A receive slot empties: its credit is to be returned (R286). -/
def Dev.freeSlot (d : Dev) (p c : Nat) : Dev :=
  d.updPort p fun q =>
    if tabGet 0 q.inUse c = 0 then q else { q with inUse := tabSet q.inUse c (tabGet 0 q.inUse c - 1), owed := tabSet q.owed c (tabGet 0 q.owed c + 1) }

/-- A packet for another node leaves the slot in which it waited. -/
def Dev.leaveTransit (d : Dev) (k : SaeriPkt) : Dev :=
  match d.saeri.transit.find? fun e => e.2 = k with
  | none => d
  | some e => Dev.freeSlot { d with saeri := { d.saeri with transit := d.saeri.transit.erase e } } e.1 (saeriClass k.op)

/-- Own reads that wait for their data at a port. -/
def Dev.portReads (d : Dev) (p : Nat) : Nat := (d.saeri.outstanding.filter fun q => q.port == some p && q.isRead).length

/-- A port takes a packet: it is up, holds a credit and has room in its replay buffer after what it has taken; of this device's reads it holds 512
(R248, R286, R288). -/
def Dev.mayPlace (d : Dev) (p : Nat) (taken : List SaeriPkt) (k : SaeriPkt) : Bool :=
  let q := d.port p
  q.step == 7 && 0 < q.credit (saeriClass k.op)
    && ceilDiv ((taken.flatMap saeriWords).length + (saeriWords k).length) 31 + q.replay.length ≤ 63
    && !(k.op == 0x01 && k.snode == d.nodeId && 512 ≤ d.portReads p)

/-- A packet is taken by a port: it uses a credit, frees the slot it waited in, and its request is on its way. -/
def Dev.takePacket (d : Dev) (p : Nat) (k : SaeriPkt) : Dev :=
  let d1 := (d.updPort p fun q => q.useCredit (saeriClass k.op)).leaveTransit k
  { d1 with saeri := { d1.saeri with outstanding := d1.saeri.outstanding.map fun q =>
      if k.snode = d.nodeId ∧ saeriClass k.op = 2 ∧ q.tag = k.tag ∧ q.node = k.dnode then { q with port := some p } else q } }

/-- What a pass over the waiting packets has done: the device, the packets that each port takes, the packets that wait on, and the ports and
classes in which one waits. -/
structure PumpAcc where
  dev : Dev
  taken : Table (List SaeriPkt)
  waits : List (Nat × SaeriPkt)
  blocked : List (Nat × Nat)

/-- One waiting packet: within its class it does not overtake one before it (R249). -/
def PumpAcc.next (a : PumpAcc) (e : Nat × SaeriPkt) : PumpAcc :=
  let t := tabGet [] a.taken e.1
  let key := (e.1, saeriClass e.2.op)
  if a.blocked.contains key ∨ !a.dev.mayPlace e.1 t e.2 then { a with waits := a.waits ++ [e], blocked := key :: a.blocked }
  else { a with dev := a.dev.takePacket e.1 e.2, taken := tabSet a.taken e.1 (t ++ [e.2]) }

/-- Packets waiting at their ports go out as far as credits allow: management first, then responses, then requests and weights (R286). Shares
between the last two are timing. -/
def Dev.pump (d : Dev) : Dev :=
  let of (f : Nat → Bool) : List (Nat × SaeriPkt) := d.saeri.queue.filter fun e => f (saeriClass e.2.op)
  let a := (of (· == 0) ++ of (· == 1) ++ of (2 ≤ ·)).foldl PumpAcc.next { dev := d, taken := [], waits := [], blocked := [] }
  let d1 : Dev := { a.dev with saeri := { a.dev.saeri with queue := a.waits } }
  a.taken.foldl (fun d e => d.updPort e.1 fun q => q.sendPackets d.nodeId e.2) d1

/-- An up port that owes a NAK or credits sends an idle frame (R274, R282). -/
def Dev.idleFrames (d : Dev) : Dev :=
  d.ports.foldl
    (fun d e => if e.2.step = 7 ∧ (e.2.nak ∨ (List.range 4).any fun c => e.2.returns c ≠ 0) then d.updPort e.1 fun q => q.sendHeader d.nodeId 0 0 0 else d) d

/-- A leave notice or a departure notice goes out by a port (R266, R267). -/
def Dev.sendNotice (d : Dev) (p : Nat) (type : Nat) (node : NodeId) : Dev :=
  let d1 := d.updPort p fun q => q.sendHeader d.nodeId (BitVec.ofNat 4 type) 0 (if type = 3 then node else 0)
  { d1 with saeri := { d1.saeri with noticesOut := d1.saeri.noticesOut ++ [(p, type, node)] } }

/-- Dictionary transfers also cross to a direct neighbour that no route reaches, a joining one (R265). -/
def Dev.directPort (d : Dev) (pkt : SaeriPkt) : Option Nat :=
  if pkt.op = 0x08 then (List.range 16).find? fun p => (d.port p).step == 7 && (d.port p).peerNode == pkt.dnode else none

/-- Sends a packet. While routes switch, new requests of this device are held (R256), and so is what goes to a neighbour to which frames are sent
again (R289). A packet with no working port toward its next position is held too. -/
def Dev.sendSaeri (d : Dev) (pkt : SaeriPkt) : Dev :=
  let held : Dev := { d with saeri := { d.saeri with heldOut := d.saeri.heldOut ++ [pkt] } }
  if d.saeri.switching ∧ pkt.snode = d.nodeId ∧ saeriClass pkt.op ≠ 1 then held
  else match (d.portFor pkt.snode pkt.dnode).or (d.directPort pkt) with
    | some p =>
      if d.saeri.recovering.contains (d.port p).peerNode then held else Dev.pump { d with saeri := { d.saeri with queue := d.saeri.queue ++ [(p, pkt)] } }
    | none => held

/-- Held packets are sent. -/
def Dev.sendHeld (d : Dev) : Dev := d.saeri.heldOut.foldl (fun d k => d.sendSaeri k) { d with saeri := { d.saeri with heldOut := [] } }

/-- The TAG of packets that expect no answer: one for each operation, which a LINK_LOST answer names. (DESIGN CHOICE, log entry 93) -/
def noticeTag (op : BitVec 6) : BitVec 12 := if op = 0x06 then 0xFFF else if op = 0x07 then 0xFFE else if op = 0x09 then 0xFFD else 0

/-- A tag that no outstanding request uses, from `t` on, trying `fuel` of them. -/
def freeTag (used : List SaeriReq) : Nat → BitVec 12 → BitVec 12
  | 0, t => t
  | fuel + 1, t => if 0xFFD ≤ t ∨ used.any fun r => r.tag == t then freeTag used fuel (t + 1) else t

/-- Sends a request and keeps it outstanding. -/
def Dev.saeriRequest (d : Dev) (node : NodeId) (op : BitVec 6) (addr len : Nat) (data : List Byte) (use : SaeriUse) : Dev :=
  let t := freeTag d.saeri.outstanding (d.saeri.outstanding.length + 3) d.saeri.nextTag
  let pkt : SaeriPkt := { dnode := node, addr := BitVec.ofNat 52 addr, snode := d.nodeId, tag := t, lenm1 := BitVec.ofNat 8 (len - 1),
                          status := 0, op := op, data := data }
  let req : SaeriReq := { tag := t, node := node, len := len, use := use, port := none }
  let used (r : Round) : Round := if d.reqOfRound r req then { r with nodesUsed := r.nodesUsed ++ [node] } else r
  Dev.sendSaeri { d with rounds := d.rounds.map used, saeri := { d.saeri with outstanding := d.saeri.outstanding ++ [req], nextTag := t + 1 } } pkt

/-- A packet that expects no answer. -/
def Dev.saeriNotice (d : Dev) (node : NodeId) (op : BitVec 6) (addr : Nat) (data : List Byte) : Dev :=
  d.sendSaeri { dnode := node, addr := BitVec.ofNat 52 addr, snode := d.nodeId, tag := noticeTag op,
                lenm1 := BitVec.ofNat 8 (data.length - 1), status := 0, op := op, data := data }

/-- The answer to a Saeri request (R285). -/
def Dev.saeriAnswer (d : Dev) (pkt : SaeriPkt) (st : Status) (data : List Byte) : Dev :=
  d.sendSaeri { dnode := pkt.snode, addr := pkt.addr, snode := d.nodeId, tag := pkt.tag, lenm1 := pkt.lenm1,
                status := BitVec.ofNat 8 st.code, op := if pkt.op = 0x01 then 0x03 else 0x04, data := data }

/-! ### Answers to accesses -/

/-- The beats of a response: whole pieces of 64 bytes (R303). -/
def beatsOf (data : List Byte) : List Byte := slice data 0 (ceilDiv data.length 64 * 64)

/-- Bytes put over cells. -/
def cellsPut (m : List Host.Cell) (a : Nat) (b : List Byte) : List Host.Cell :=
  (List.range b.length).foldl (fun m i => tabSet m (a + i) (b.getD i 0)) m

/-- TAIL advances by one slot (R126, R307). -/
def Stream.tailNext (x : Stream) : Stream :=
  let n := x.size.toNat * 16
  { x with tail := BitVec.ofNat 16 (if n = 0 then 0 else (x.tail.toNat + 1) % n) }

/-- The descriptor of an INJECT has been written: TAIL advances (R307). -/
def Dev.injected (d : Dev) (op : BitVec 4) (cmd : FabCmd) (st : Status) : Dev :=
  if op = 0x3 ∧ st = .done then (d.updStream cmd.addr.toNat Stream.tailNext).bump 0x3130 4 1 else d

/-- An access that every part has answered is answered to whoever issued it. An INJECT whose descriptor has been written advances
TAIL and is answered with its slot (R307). -/
def Dev.reply (d : Dev) (a : Access) (st : Status) (data : List Byte) : Dev :=
  match a.origin with
  | .host => { d with hostOut := d.hostOut ++ [{ status := st, data := if a.data.isNone then data else [] }] }
  | .fabric core op cmd =>
    let port := (d.core core.toNat).port
    let slot := (d.stream cmd.addr.toNat).tail
    if port.outstanding.contains (op, cmd) then
      (d.injected op cmd st).updFab core.toNat fun p =>
        p.answer op cmd.tag st 0 (if op = 0x3 ∧ st = .done then slot.setWidth 52 else 0) (if a.data.isNone ∧ st = .done then beatsOf data else [])
    else if port.orphans.contains (op, cmd) then
      (d.injected op cmd st).updFab core.toNat fun p => { p with orphans := p.orphans.erase (op, cmd) }
    else d
  | .noc pkt => d.nocSend (nocAnswer pkt st data)
  | .saeri pkt => d.saeriAnswer pkt st (if a.data.isNone then data else [])
  | .engine key round attempt =>
    match d.desc? key with
    | some x =>
      if x.round = round ∧ x.attempt = attempt then
        (if st ≠ .done then d.failDesc key st
         else if a.data.isNone then d.updDesc key fun x => { x with remote := cellsPut x.remote a.addr data } else d)
      else d
    | none => d
  | .fetch s =>
    d.updStream s fun x => if st = .done then { x with remote := cellsPut x.remote a.addr data } else { x with remoteStatus := some st }
  | .record s => if st = .address then d.updStream s fun x => { x with enable := false, status := 0x16 } else d

/-- A part of an access is answered. When it was the last, the access is answered: dead words where any part failed (R22, R202). -/
def Dev.partDone (d : Dev) (p : Part) (st : Status) (data : List Byte) : Dev :=
  match d.accesses.find? fun o => o.id == p.id with
  | none => d
  | some o =>
    let o' : OpenAccess := { o with parts := o.parts - 1, status := if st = .done then o.status else if o.status = .done then st else o.status.worse st,
                                    data := if p.data.isNone then patchBytes o.data p.off data else o.data }
    if o'.parts = 0 then
      let d' : Dev := { d with accesses := d.accesses.filter fun x => x.id ≠ p.id }
      d'.reply o.access o'.status (if o'.status = .done then o'.data else deadBytes o.access.addr o.access.len)
    else { d with accesses := d.accesses.map fun x => if x.id = p.id then o' else x }

/-! ### Packets of an access (R14, R17, R224, R230) -/

/-- The round that a packet's RSLOT names (R230). -/
def Dev.slotRound (d : Dev) (slot : Nat) : Option Round := d.rounds.find? fun r => r.rslot = slot

/-- The open round on whose behalf an access is made. -/
def Dev.originRound (d : Dev) (o : Origin) : Option RoundNo :=
  match o with
  | .engine _ r _ => some r
  | .fabric _ _ cmd => if cmd.rvalid then some cmd.round else none
  | .noc pkt => (d.slotRound pkt.rslot.toNat).map Round.number
  | _ => none
/-- RSLOT of an access (R230). -/
def Dev.originSlot (d : Dev) (o : Origin) : Nat := (((d.originRound o).bind d.round?).map Round.rslot).getD 0x7F

/-- The core whose load engine or fabric port reads through its cluster cache (R204). -/
def Dev.readerCore (d : Dev) (o : Origin) : Option Nat :=
  match o with
  | .fabric core _ _ => some core.toNat
  | .engine key _ _ => (d.desc? key).map Desc.core
  | _ => none

/-- The endpoint of an initiator; none for an access that came by a packet. -/
def Dev.srcEnd (d : Dev) (o : Origin) : Option (BitVec 9) :=
  match o with
  | .host | .fetch _ | .record _ => some hostEnd
  | .fabric core _ _ => some (endOfCore core.toNat)
  | .engine key _ _ => (d.desc? key).map fun x => endOfCore x.core
  | .saeri pkt => some (saeriEnd ((d.portFor d.nodeId pkt.snode).getD 0))
  | .noc _ => none

/-- The endpoint that an address of this device belongs to. -/
def Dev.destEnd (d : Dev) (a : Nat) : BitVec 9 :=
  match d.regionOf a with
  | .hbm => d.hbmEnd a
  | .scratch c => scratchEnd c
  | .tile n | .rk n => endOfCore n
  | .user => match d.sliceOwner a with | some n => endOfCore n | none => hostEnd
  | _ => hostEnd

/-- [a, a + n) in pieces of at most 256 bytes that end where an aligned piece of 256 bytes does. -/
def packetRanges (a n : Nat) : List (Nat × Nat) :=
  (linesOf a n).map fun l => (max a (256 * l), min (a + n) (256 * l + 256) - max a (256 * l))

/-- The requests in which a part of an access of this device crosses the network. A core's own memories are reached without it; its reads
of HBM go to the cluster cache, which asks the controller for what it does not hold. -/
def Dev.partPackets (d : Dev) (o : Origin) (p : Part) : List NocPacket :=
  match d.srcEnd o with
  | none => []
  | some src =>
    let op : BitVec 6 := if p.data.isNone then 0x01 else 0x02
    let pkt (s e : BitVec 9) (q : Nat × Nat) : List NocPacket := if s = e then [] else [nocRequest s e op p.id (d.originSlot o) q.1 q.2]
    (packetRanges p.addr p.len).flatMap fun q =>
      match d.readerCore o with
      | some core =>
        if p.data.isNone ∧ d.regionOf q.1 = .hbm then
          pkt src (cacheEnd core) q ++ if d.resident (clusterOf core) (q.1 / 256) then [] else pkt (cacheEnd core) (d.hbmEnd q.1) q
        else pkt src (d.destEnd q.1) q
      | none => pkt src (d.destEnd q.1) q

/-- The requests in which a part bound for another node crosses to its port. -/
def Dev.remotePackets (d : Dev) (o : Origin) (node : NodeId) (p : Part) : List NocPacket :=
  match d.srcEnd o, d.portFor d.nodeId node with
  | some src, some port =>
    (packetRanges p.addr p.len).map fun q =>
      nocRequest src (saeriEnd port) (if p.data.isNone then 0x01 else 0x02) p.id (d.originSlot o) q.1 q.2
  | _, _ => []

/-- A part is answered over the network: an answer that no link carries fails it (R233). -/
def Dev.answerPart (d : Dev) (ks : List NocPacket) (p : Part) (st : Status) (data : List Byte) : Dev :=
  let r := d.crossAll (ks.map fun k => nocAnswer k st [])
  if r.1 then r.2.partDone p st data else r.2.partDone p .hwUncorrectable (deadBytes p.addr p.len)

/-- The origin of an open access. -/
def Dev.originOf (d : Dev) (p : Part) : Option Origin := (d.accesses.find? fun o => o.id = p.id).map fun o => o.access.origin

/-- An outstanding Saeri request ends with a status and data. -/
def Dev.saeriEnd (d : Dev) (r : SaeriReq) (st : Status) (data : List Byte) : Dev :=
  let d' : Dev := { d with saeri := { d.saeri with outstanding := d.saeri.outstanding.filter fun q => q ≠ r } }
  match r.use with
  | .part p =>
    match d'.originOf p with
    | some o => d'.answerPart (d'.remotePackets o r.node p) p st data
    | none => d'
  | .flagAdd (some (core, cmd)) =>
    d'.updFab core.toNat fun f =>
      if f.outstanding.contains (0x6, cmd) then f.answer 0x6 cmd.tag st 0 0 [] else { f with orphans := f.orphans.erase (0x6, cmd) }
  | .signal key round attempt =>
    if st.isSuccess then d'
    else match d'.desc? key with
      | some x => if x.round = round ∧ x.attempt = attempt then d'.failDesc key st else d'
      | none => d'
  | .flagAdd none | .restore _ _ => d'

/-! ### Groups of a round -/

/-- Members of a NodeCarry string (R257). -/
def nodeCarryOf (v : List Byte) : List NodeId := (List.range (field v 0 2)).map fun i => BitVec.ofNat 12 (field v (2 + 2 * i) 2)
/-- Members of a PeerGroup string (R263). -/
def peersOf (v : List Byte) : List NodeId := (List.range (field v 0 1)).map fun i => BitVec.ofNat 12 (field v (1 + 2 * i) 2)

def Round.peers (r : Round) : List NodeId := if r.peerGroup = 0 then [] else peersOf (r.setting 0x4114 r.peerGroup)
def Round.nodeCarry (r : Round) (c : Nat) : List NodeId := nodeCarryOf (r.setting 0x4112 (c + 1))
/-- PREV and NEXT of a chain (R261); none where unset. -/
def Round.chainPrev (r : Round) (c : Nat) : Option NodeId :=
  let v := field (r.setting 0x4113 (c + 1)) 0 2; if v = 0xFFFF then none else some (BitVec.ofNat 12 v)
def Round.chainNext (r : Round) (c : Nat) : Option NodeId :=
  let v := field (r.setting 0x4113 (c + 1)) 2 2; if v = 0xFFFF then none else some (BitVec.ofNat 12 v)

/-- Every node that a round's attempt touches: peer group, node carry groups, chain nodes, transactions (R267). -/
def Dev.touched (d : Dev) (r : Round) : List NodeId :=
  let ds := d.descs.filter fun x => x.round = r.number
  r.peers ++ (ds.filter Desc.carryEn).flatMap (fun x => r.nodeCarry x.carry)
    ++ (ds.filter Desc.chainEn).flatMap (fun x => (r.chainPrev x.chain).toList ++ (r.chainNext x.chain).toList) ++ r.nodesUsed

/-- A carry partial, a weight row or a quiescence notice of this device is lost: its round fails with LINK_LOST (R289). -/
def Dev.lostNotice (d : Dev) (op : BitVec 6) (a : Nat) : Dev :=
  let has (f : Desc → Bool) (r : Round) : Bool := r.phase == .running && d.descs.any fun x => x.round == r.number && f x
  let hit := d.rounds.find? fun r =>
    if op = 0x06 then has (fun x => x.carryEn && x.carry == bits a 37 32) r
    else if op = 0x07 then has (fun x => x.chainEn && x.chain == bits a 37 32) r
    else op == 0x09 && r.phase == .running && r.number.toNat == bits a 31 0
  match hit with | some r => d.raise r.number .linkLost | none => d

/-! ### Departures (R267) -/

/-- After a loss of nodes: rounds that touch one, or that have a request among `through`, abort with PEER_LOST and are held; those
requests and the requests to lost nodes end with PEER_LOST. -/
def Dev.loseNodes (d : Dev) (through : List SaeriReq) : Dev :=
  let hit := (d.rounds.filter fun r => r.phase = .running &&
    ((d.touched r).any (fun n => d.nodeLost n) || through.any fun q => d.reqOfRound r q)).map Round.number
  let d1 := hit.foldl (fun d n => d.raiseHeld n .peerLost .peer []) d
  (d1.saeri.outstanding.filter fun q => d1.nodeLost q.node || through.contains q).foldl (fun d q => d.saeriEnd q .peerLost []) d1

/-- A node is declared departed, once: recorded, counted, its notice sent on every other working port; requests on their way to it
or through it are lost. `from?` is the port the news came by. -/
def Dev.depart (d : Dev) (node : NodeId) (from? : Option Nat) : Dev :=
  if d.saeri.departed.contains node ∧ (tabFind d.saeri.nodeState node.toNat).isNone then d
  else
    let outs := (List.range 16).filter fun p => (d.port p).step == 7 && some p != from?
    let crosses (q : SaeriReq) : Bool := match d.routeTo q.node, d.topo.pos? node.toNat with
      | some l, some k => l.contains k
      | _, _ => false
    let through := d.saeri.outstanding.filter crosses
    let d1 : Dev := { d with saeri := { d.saeri with
      departed := (d.saeri.departed.filter fun n => n ≠ node) ++ [node], nodeState := tabErase d.saeri.nodeState node.toNat,
      recovering := d.saeri.recovering.filter fun n => n ≠ node } }
    ((outs.foldl (fun d p => d.sendNotice p 3 node) d1).bump 0x3110 4 1).loseNodes through

end Sys2Proof.Machine
end

