-- ==== Sys2Proof/Machine/Configuration.lean ====
section
/-! DEFINITION. Configuration frames, streams and loads (R316 to R341), start-up (R330 to R332), scrubbing (R342 to R345), and the
device reset. -/

namespace Sys2Proof.Machine

/-! ### Reset -/

/-- The device after a reset with a cause (R352, R418): everything at its reset value but the battery-backed key, the pins and
what the pins show. -/
def Dev.deviceReset (d : Dev) (cause : Nat) : Dev :=
  { Dev.reset with bbramKey := d.bbramKey, pins := { d.pins with doneReleased := false, resetCause := cause } }

/-- The reset that a write of 1 to Reprogram makes, and the lock of the PLL after a clock loss (R329, R371). Every open round ends with HOST_ABORT;
what tells the other members of its group is the one trace that the reset leaves, its frame on TALLY1. -/
def Dev.reprogram (d : Dev) (cause : Nat) : Dev :=
  let told := (d.rounds.filter fun r => r.peerGroup ≠ 0).map fun r => (r.number, false, Status.hostAbort)
  { d.deviceReset cause with tally := { Tally.reset with frames := told } }

/-! ### The seam (R14) -/

/-- `n` bytes between a master of die 0 and a block of die 1, in packets of at most 256 bytes: whether they get there. They enter the master's record
(R238). (DESIGN CHOICE, log entry 98) -/
def Dev.seam (d : Dev) (key : Nat) (write : Bool) (die n : Nat) : Bool × Dev :=
  if die = 0 then (true, d)
  else
    let pkt (i : Nat) : NocPacket := nocRequest hostEnd slaveEnd 0x08 0 0x7F 0 (min 256 (n - 256 * i))
    let r := d.crossAll ((List.range (ceilDiv n 256)).map pkt)
    (r.1, r.2.statAdd key write n none)

/-! ### Frame addresses (R316, R317) -/

def frameDie (f : Nat) : Nat := bits f 17 17
def frameRegion (f : Nat) : Nat := bits f 16 13
def frameCol (f : Nat) : Nat := bits f 12 6
def frameMinor (f : Nat) : Nat := bits f 5 0

/-- An address that names a frame (R316, R317). -/
def frameValid (f : Nat) : Bool :=
  let c := frameCol f
  if frameRegion f ≤ 7 then c ≤ 95 && frameMinor f ≤ 35
  else if frameRegion f = 8 then (c ≤ 7 && frameMinor f ≤ 15) || c == 8
  else false

/-- A frame that no record has written is cleared. -/
def Frame.clear : Frame := { bytes := List.replicate 576 0, bad := false, encrypted := false }

/-- A frame lies in a partition: its columns, or a bank column of its die (R336). -/
def partHolds (p : Partition) (f : Nat) : Bool :=
  frameDie f == p.die &&
    ((frameRegion f == p.region && p.colLo ≤ frameCol f && frameCol f ≤ p.colHi) ||
     (frameRegion f == 8 && frameCol f ≤ 7 && p.bankMask.getLsbD (frameCol f)))

/-- The partition of a frame, 0 for the static region (R333). -/
def Dev.frameOwner (d : Dev) (f : Nat) : Nat :=
  match d.cfg.design.partitions.find? fun e => partHolds e.2 f with
  | some e => e.1
  | none => 0

def Dev.updCfg (d : Dev) (f : Cfg → Cfg) : Dev := { d with cfg := f d.cfg }

/-! ### Isolation (R335, R344) -/

/-- The cores whose fabric ports a region owns. -/
def Dev.regionPorts (d : Dev) (p : Nat) : List Nat := (List.range 128).filter fun n => d.portRegion n == p

/-- A port is isolated: commands still outstanding complete and lose their answers, delivered ones are answered as reserved space, events are
discarded (R335). -/
def Dev.isolatePort (d : Dev) (n : Nat) : Dev :=
  let parts := (d.core n).port.delivered
  let d := d.updFab n fun p => { p with outstanding := [], orphans := p.orphans ++ p.outstanding, events := [], delivered := [] }
  parts.foldl (fun d p => d.partDone p.2 .address (deadBytes p.2.addr p.2.len)) d

def Dev.setRegion (d : Dev) (p st cause : Nat) : Dev := d.updCfg fun c => { c with regions := tabSet c.regions p (st, cause) }

/-- A region takes a state in which it is isolated. -/
def Dev.isolateRegion (d : Dev) (p st cause : Nat) : Dev := (d.regionPorts p).foldl Dev.isolatePort (d.setRegion p st cause)

/-- Rounds held for regions that are all VALID again may go on (R344). -/
def Dev.releaseHeld (d : Dev) : Dev :=
  ((d.rounds.filter fun r => r.hold = .region ∧ r.waitRegions.all fun p => !d.isolated p).map Round.number).foldl Dev.endHold d

/-- A region takes its initial values and becomes VALID: of every port whose isolation this ends the next event carries LOST (R338, R339). -/
def Dev.releaseRegion (d : Dev) (p : Nat) : Dev :=
  let d1 := (d.setRegion p 1 0).initRegion p
  let freed := (List.range 128).filter fun n => d.isolated (d.portRegion n) && !d1.isolated (d1.portRegion n)
  Dev.releaseHeld (freed.foldl (fun d n => d.updFab n fun f => { f with lost := true }) d1)

/-! ### Headers (R319, R322) -/

/-- Reserved bytes and fields of a header that must be 0 and are not, or fields out of range (R319, R322). -/
def headerBad (h : List Byte) : Bool :=
  let kind := field h 5 1
  field h 0 4 != 0x44584346 || field h 4 1 != 1 || 2 < kind || field h 8 4 == 0 || 55680 < field h 8 4
    || field h 28 4 != 0 || (slice h 40 24).any (· != 0) || (kind != 1 && (field h 7 1 != 0 || field h 12 4 != 0))
    || (field h 6 1 == 0 && (slice h 16 12).any (· != 0))

/-- The key that a header names, if it may be used and is present (R320, R322, R324). -/
def keyOf (fz : Fuses) (d : Dev) (src : Nat) : Option (List Byte) :=
  match src with
  | 0 => if fz.security.getLsbD 2 then none else some []
  | 1 => fz.efuseKey
  | 2 => if fz.security.getLsbD 3 then none else d.bbramKey
  | _ => none

/-- The result of a header's checks: 0 where the load is accepted (R322, R334). -/
def headerResult (fz : Fuses) (d : Dev) (h : List Byte) : Nat :=
  let kind := field h 5 1
  if headerBad h ∨ (kind = 0 ∧ d.cfg.state ≠ 0) ∨ (kind ≠ 0 ∧ d.cfg.state ≠ 5) then 0x01
  else if (keyOf fz d (field h 6 1)).isNone then 0x02
  else if kind = 1 then
    match tabFind d.cfg.design.partitions (field h 7 1) with
    | some p =>
      if field h 7 1 = 0 ∨ field h 12 1 ≠ p.die ∨ field h 13 1 ≠ p.region ∨ field h 14 1 ≠ p.colLo ∨ field h 15 1 ≠ p.colHi then 0x06
      else if d.rounds.any fun r => r.phase = .running ∧ r.deps.contains (field h 7 1) then 0x07 else 0
    | none => 0x06
  else 0

/-- Every configuration frame is cleared. -/
def Cfg.clearAll (c : Cfg) : Cfg :=
  { c with frames := [], design := Design.empty, designIds := [], regions := [], encryptedParts := [] }

/-- A load ends with a result (R322, R327, R328): its result is recorded; a failed full load clears all frames and fails, or makes
way for the fallback stream; a failed partial load leaves its partition INVALID. -/
def Dev.endLoad (d : Dev) (kind partition : Nat) (src : LoadSource) (result cause : Nat) : Dev :=
  let d := d.updCfg fun c =>
    { c with load := none, loadResult := result, result := if kind = 0 then result else c.result, icpStatus := some (BitVec.ofNat 8 result) }
  if result = 0 then d
  else if kind = 0 then
    if src = .flash ∧ !d.cfg.second then d.updCfg fun c => { c.clearAll with second := true, state := 0 }
    else { d.updCfg fun c => { c.clearAll with state := 6 } with pins := { d.pins with doneReleased := false } }
  else if kind = 1 ∧ cause ≠ 0 then d.setRegion partition 3 cause
  else d

/-- Whether the source may bring a full stream now (R326): flash by CFG_MODE 0 and 1, ConfigStream over PCIe by 2 and over the management bus
by 3. -/
def Dev.fullSource (d : Dev) (src : LoadSource) (who : Option StreamWriter) : Bool :=
  d.cfg.started && match src with
  | .flash => d.pins.straps.cfgMode.toNat < 2
  | .configStream => match who with
    | some (.pcie, _) => d.pins.straps.cfgMode == 2
    | some (.mgmt, _) => d.pins.straps.cfgMode == 3
    | some (.saeri _, _) => false
    | none => 2 ≤ d.pins.straps.cfgMode.toNat
  | .icp => false

/-- A header is complete (R319, R328, R335, R340). -/
def Dev.takeHeader (fz : Fuses) (d : Dev) (src : LoadSource) (who : Option StreamWriter) (h : List Byte) : Dev :=
  let kind := field h 5 1
  if d.cfg.load.isSome ∨ (d.cfg.state = 0 ∧ !d.fullSource src who) ∨ (d.cfg.state ≠ 0 ∧ src = .flash) ∨ (src = .icp ∧ d.isolated 0) then d
  else
    let r := headerResult fz d h
    if r ≠ 0 then
      (if d.cfg.state = 0 then d.endLoad 0 0 src r 0 else d.endLoad 2 0 src r 0)
    else
      let key := (keyOf fz d (field h 6 1)).getD []
      let load : Load := { src := src, feeder := who, kind := kind, keySrc := field h 6 1, partition := field h 7 1, frames := field h 8 4,
                           die := field h 12 1, region := field h 13 1, colLo := field h 14 1, colHi := field h 15 1,
                           iv := slice h 16 12, header := slice h 0 64, designId := BitVec.ofNat 64 (field h 32 8),
                           clearing := kind ≠ 2, taken := 0, failed := 0,
                           hash := if field h 6 1 = 0 then 0 else ghash (gcmH key) 0 (slice h 0 64), written := [] }
      let d := d.updCfg fun c => { c with load := some load }
      if kind = 0 then d.updCfg fun c => { c.clearAll with state := 1 }
      else if kind = 1 then
        let d := d.isolateRegion (field h 7 1) 2 0
        let others := d.cfg.encryptedParts.filter fun p => p ≠ load.partition
        d.updCfg fun c => { c with
          frames := c.frames.filter fun e =>
            !(frameDie e.1 == load.die && frameRegion e.1 == load.region && load.colLo ≤ frameCol e.1 && frameCol e.1 ≤ load.colHi)
          encryptedParts := if load.keySrc = 0 then others else load.partition :: others }
      else d

/-! ### Frames and tag (R318, R321, R336 to R339) -/

/-- A frame record whose reserved bits are 0 and whose CRC holds (R318). -/
def recordOk (b : List Byte) : Bool :=
  field b 0 16 < 2 ^ 18 && field b 536 8 == 0 && (slice b 544 32).all (· == 0)
    && field b 528 8 == (crc64 (slice b 0 528)).toNat

/-- A load meets a failure in its body: the load has its result; what follows up to its tag is discarded. (DEDUCED, log entry 29) -/
def Dev.failLoad (d : Dev) (l : Load) (result cause : Nat) : Dev :=
  let d := d.endLoad l.kind l.partition l.src result cause
  if l.kind = 0 then d else d.updCfg fun c => { c with load := some { l with failed := result } }

/-- A frame record is complete (R321). A frame of die 1 crosses the seam (R14); one that no link carries is not written, and the load ends as at
a failed check. (DESIGN CHOICE, log entry 98) -/
def Dev.takeFrame (fz : Fuses) (d : Dev) (rec : List Byte) : Dev :=
  match d.cfg.load with
  | none => d
  | some l =>
    if l.clearing ∨ l.frames ≤ l.taken then d
    else
      let rec' := slice rec 0 576
      let key := (keyOf fz d l.keySrc).getD []
      let plain := if l.keySrc = 0 then rec' else gcmCrypt key l.iv (2 + 36 * l.taken) rec'
      let l' := { l with taken := l.taken + 1, hash := if l.keySrc = 0 then 0 else ghash (gcmH key) l.hash rec' }
      let keep (l : Load) : Dev := d.updCfg fun c => { c with load := some l, state := if l.kind = 0 ∧ l.taken = l.frames then 2 else c.state }
      let f := field plain 0 3 % 2 ^ 18
      if l.failed ≠ 0 then keep l'
      else
        let part := tabFind d.cfg.design.partitions l.partition
        let inside := match part with | some p => partHolds p f && frameValid f | none => false
        if l.kind = 1 ∧ !inside then (keep l').failLoad l' 0x32 1
        else if l.kind ≠ 1 ∧ !frameValid f then (keep l').failLoad l' 0x05 0
        else if !recordOk plain ∨ !(d.seam 417 true (frameDie f) 576).1 then (keep l').failLoad l' 0x04 3
        else if l.kind = 2 ∧ !(tabGet Frame.clear d.cfg.frames f).bad then keep l'
        else
          let was := tabGet Frame.clear d.cfg.frames f
          let fr : Frame := { bytes := plain, bad := l.kind = 2 && was.bad, encrypted := if l.kind = 2 then was.encrypted else l.kind = 1 ∧ l.keySrc ≠ 0 }
          let d1 := (keep { l' with written := f :: l'.written }).updCfg fun c => { c with frames := tabSet c.frames f fr }
          (d1.seam 417 true (frameDie f) 576).2

/-- No frame of a region is marked bad. -/
def Dev.regionGood (d : Dev) (p : Nat) : Bool := d.cfg.frames.all fun e => !e.2.bad || d.frameOwner e.1 != p

/-- The logic that the frames of the partitions now hold: their blocks, banks and drivers are as these say, all else as the full stream declared it.
(DESIGN CHOICE, log entry 20) -/
def Dev.redesign (d : Dev) : Dev :=
  let x := Config.designOf (d.cfg.frames.map fun e => (e.1, e.2.bytes))
  d.updCfg fun c => { c with design := { c.design with blocks := x.blocks, banks := x.banks, tallyDrivers := x.tallyDrivers } }

/-- A load whose tag is verified takes effect (R321, R330, R333, R338, R339). (DESIGN CHOICE, log entry 20) -/
def Dev.activate (d : Dev) (l : Load) : Dev :=
  let d := d.endLoad l.kind l.partition l.src 0 0
  if l.kind = 0 then
    let design := Config.designOf (d.cfg.frames.map fun e => (e.1, e.2.bytes))
    let d := d.updCfg fun c =>
      { c with state := 3, fallback := c.second, design := design, fullEncrypted := l.keySrc ≠ 0 }
    let d := d.updCfg fun c =>
      { c with regions := (0 :: design.partitions.map (·.1)).map fun p => if d.regionGood p then (p, 1, 0) else (p, 3, 5) }
    { d with pins := { d.pins with doneReleased := true } }
  else if l.kind = 1 then
    (d.updCfg fun c => { c with designIds := tabSet c.designIds l.partition l.designId }).redesign.releaseRegion l.partition
  else
    let d := (d.updCfg fun c => { c with frames := c.frames.map fun e => if l.written.contains e.1 then (e.1, { e.2 with bad := false }) else e }).redesign
    let owners := (l.written.map d.frameOwner).dedup
    (owners.filter fun p => d.regionGood p && (d.regionState p).1 == 3 && (d.regionState p).2 == 5).foldl Dev.releaseRegion d

/-- The stream tag is complete (R320, R321). -/
def Dev.takeTag (fz : Fuses) (d : Dev) (tag : List Byte) : Dev :=
  match d.cfg.load with
  | none => d
  | some l =>
    if l.clearing ∨ l.taken < l.frames then d
    else if l.failed ≠ 0 then d.updCfg fun c => { c with load := none }
    else
      let good :=
        if l.keySrc = 0 then (slice tag 0 16).all (· == 0)
        else slice tag 0 16 == gcmTag ((keyOf fz d l.keySrc).getD []) l.iv l.hash 64 (576 * l.frames)
      if !good then d.endLoad l.kind l.partition l.src 0x03 2
      else d.activate l

/-- The source ended or aborted before the tag (R322, R341, R365). -/
def Dev.truncate (d : Dev) : Dev :=
  match d.cfg.load with
  | none => d
  | some l =>
    if l.failed ≠ 0 then d.updCfg fun c => { c with load := none } else d.endLoad l.kind l.partition l.src 0x08 4

/-- What a writer of ConfigStream has brought, and its bookkeeping. A write that is no transfer ends with its bytes. -/
def Dev.feed (d : Dev) (who : StreamWriter) : Feed := (d.cfg.feeds.find? fun q => q.who = who).getD { who := who, bytes := [], skip := 0, spent := false }
def Dev.dropFeed (d : Dev) (who : StreamWriter) : Dev := d.updCfg fun c => { c with feeds := c.feeds.filter fun q => q.who ≠ who }
def Dev.setFeed (d : Dev) (q : Feed) : Dev :=
  let d1 := d.dropFeed q.who
  if q.spent ∧ q.who.2.isNone then d1 else d1.updCfg fun c => { c with feeds := c.feeds ++ [q] }

/-- The bytes of a stream that follow its header: what is discarded where the header is refused (R322). -/
def bodyBytes (h : List Byte) : Nat := 576 * field h 8 4 + 16

/-- Whole units of the bytes that a writer of ConfigStream has brought are taken, at most `fuel` of them (R326, R365). What follows of a stream whose
load has ended is discarded (R322, R336): as much as its header declares, or all of it where the header is no good. -/
def feedStream (fz : Fuses) : Nat → Feed → Dev → Dev
  | 0, q, d => d.setFeed q
  | fuel + 1, q, d =>
    let b := q.bytes
    let rest (n : Nat) : Feed := { q with bytes := b.drop n }
    if q.spent then d.setFeed { q with bytes := [] }
    else if q.skip ≠ 0 then
      if b.length ≤ q.skip then d.setFeed { q with bytes := [], skip := q.skip - b.length } else feedStream fz fuel { rest q.skip with skip := 0 } d
    else match d.cfg.load with
    | none =>
      if b.length < 64 then d.setFeed q
      else
        let h := b.take 64
        let d1 := d.takeHeader fz .configStream (some q.who) h
        if d1.cfg.load.isSome then feedStream fz fuel (rest 64) d1
        else feedStream fz fuel { rest 64 with skip := if headerBad h then 0 else bodyBytes h, spent := headerBad h } d1
    | some l =>
      if l.feeder ≠ some q.who ∨ l.clearing then d.setFeed q
      else if l.taken < l.frames then
        if b.length < 576 then d.setFeed q
        else
          let d1 := d.takeFrame fz (b.take 576)
          feedStream fz fuel { rest 576 with skip := if d1.cfg.load.isSome then 0 else 576 * (l.frames - l.taken - 1) + 16 } d1
      else if b.length < 16 then d.setFeed q
      else feedStream fz fuel (rest 16) (d.takeTag fz (b.take 16))

/-- A writer of ConfigStream brings bytes. -/
def Dev.passStream (fz : Fuses) (d : Dev) (who : StreamWriter) (b : List Byte) : Dev :=
  let q := d.feed who
  feedStream fz ((q.bytes.length + b.length) / 16 + 4) { q with bytes := q.bytes ++ b } d

/-- A transfer into ConfigStream is over: a load that it has not brought to its tag ends with TRUNCATED (R322, R365). -/
def Dev.endFeed (d : Dev) (who : StreamWriter) : Dev :=
  let mine : Bool := match d.cfg.load with | some l => l.feeder == some who | none => false
  (if mine then d.truncate else d).dropFeed who

/-- ICP_READY (R340): the internal port takes words unless it is isolated, a ConfigStream load is active, or its own load is still
clearing columns. -/
def Dev.icpReady (d : Dev) : Bool :=
  d.cfg.state == 5 && !d.isolated 0 && match d.cfg.load with
    | none => true
    | some l => l.src == .icp && !l.clearing

/-! ### Scrubbing (R342 to R345) -/

/-- A frame is marked bad: counted and logged; its region, if VALID, is INVALID and isolated, and dependent rounds are aborted and held until every
region they depended on is VALID (R343, R344). -/
def Dev.markBad (d : Dev) (f : Nat) (word : Nat) : Dev :=
  let p := d.frameOwner f
  let e : ScrubEntry := { frame := f, word := word, partition := p, time := d.timestamp }
  let d := (d.bump 0x3150 2 1).updCfg fun c =>
    { c with frames := tabSet c.frames f { tabGet Frame.clear c.frames f with bad := true }, scrubLog := logPush c.scrubLog e }
  let hitRegions := if p = 0 then 0 :: d.cfg.design.partitions.map (·.1) else [p]
  let hit := (d.rounds.filter fun r => r.phase = .running && r.deps.any fun q => hitRegions.contains q)
  if (d.regionState p).1 ≠ 1 then d
  else
    let d := if p = 0 then (List.range 128).foldl Dev.isolatePort (d.setRegion 0 3 5) else d.isolateRegion p 3 5
    hit.foldl (fun d r => d.raiseHeld r.number .hwUncorrectable .region r.deps) d

/-- A scrubber reads one frame (R343), one of die 1 over the seam. Frames of a partition that is LOADING or INVALID are skipped.
(DEDUCED, log entry 44; DESIGN CHOICE, log entry 98) -/
def scrubFrame (f : Nat) (obs : ScrubObs) (d : Dev) : Dev :=
  let die := frameDie f
  let p := d.frameOwner f
  if !frameValid f ∨ (obs.badWord.any fun w => 36 ≤ w.toNat) ∨ f < tabGet (2 ^ 18) d.cfg.scrubAt die then d
  else
    let d := (d.updCfg fun c => { c with scrubAt := tabSet c.scrubAt die (f + 1) }).seam 419 false die 576 |>.2
    let d := if obs.voteMismatch then d.bump 0x3150 4 1 else d
    if p ≠ 0 ∧ (d.regionState p).1 ≠ 1 then d
    else
      let d := d.bump 0x3150 1 obs.corrected
      if (tabGet Frame.clear d.cfg.frames f).bad then d
      else match obs.badWord with
        | some w => d.markBad f w.toNat
        | none => if obs.crcBad then d.markBad f 0xFF else d

/-- A scrub period expires: a pass over the die's frames starts, unless scrubbing is stopped (R343, R348). -/
def scrubPass (die : Nat) (d : Dev) : Dev :=
  if d.objNat 0x4140 1 = 0 then d
  else (d.bump 0x3150 3 1).updCfg fun c => { c with scrubAt := tabSet c.scrubAt die (die * 2 ^ 17) }

/-! ### Start-up (R331, R332) -/

/-- Step 3: Sequencers, cores and the Saeri switch reset, tile memories and beams zero with valid check bits, caches empty, Reckoners stopped (R332,
R425). -/
def Dev.startCores (d : Dev) : Dev :=
  let d := (List.range 128).foldl (fun d n => d.zeroRange (tileBase + n * 0x200000) (tileBase + n * 0x200000 + 0x100000)) d
  let d := d.zeroRange rkBase (rkBase + 0x2000000)
  { d with cores := [], streams := [], flags := [], descs := [], clusters := d.clusters.map (fun e => (e.1, { e.2 with cache := [], fills := [], cacheErrors := [] }))
           saeri := { Saeri.reset with routeTopo := d.obj 0x4111 1, routeRole := d.obj 0x4111 2 } }

/-- A start-up step of fixed duration counts out. In step 2 every flip-flop holds its initial value. Before step 3 the fused setpoint goes to the regulator (R420). -/
def startupStepEnd (d : Dev) : Dev :=
  if d.cfg.state ≠ 4 then d
  else if d.cfg.phase = 1 then { d.updCfg fun c => { c with phase := 2 } with logic := Logic.reset }
  else if d.cfg.phase = 2 then
    let d := d.updCfg fun c => { c with phase := 3 }
    let bus := d.objNat 0x4161 2
    if bus = 0 then d else { d with power := { d.power with setpoint := Config.fusedSetpoint, target := Config.fusedSetpoint } }
  else if d.cfg.phase = 3 then d.startCores.updCfg fun c => { c with phase := 4 }
  else d

/-- DONE sampled high in STATE 3 (R331). -/
def doneHigh (d : Dev) : Dev := if d.cfg.state = 3 then d.updCfg fun c => { c with state := 4, phase := 1 } else d

/-- Step 4 ends: HBM written as zero, failed pseudo-channels marked, user mode (R219, R220, R332). -/
def Dev.trained (d : Dev) (failed : List Nat) : Dev :=
  let d := d.zeroRange 0 0x4800000000
  { d with hbm := { d.hbm with trained := true, failed := (d.hbm.failed ++ failed).dedup }, cfg := { d.cfg with state := 5, phase := 5 } }

end Sys2Proof.Machine
end

