-- ==== Sys2Proof/Machine/Lanes.lean ====
section
/-! DEFINITION. The serial lanes and the Saeri ports (R270 to R293): bring-up, link frames, retry, test mode, and what the loss of a
port does (R266, R267, R284, R289). -/

namespace Sys2Proof.Machine

def lanesOf (p : Nat) : List Nat := (List.range 8).map fun i => 8 * p + i
def portOfLane (l : Nat) : Nat := l / 8
def Dev.mapLanes (d : Dev) (p : Nat) (f : Lane → Lane) : Dev := (lanesOf p).foldl (fun d l => d.updLane l f) d
def Dev.allLanes (d : Dev) (p : Nat) (f : Lane → Bool) : Bool := (lanesOf p).all fun l => f (d.lane l)

/-- A bring-up step begins: the lanes' MARK counts restart. -/
def Dev.portStep (d : Dev) (p step : Nat) : Dev :=
  (d.updPort p fun q => { q with step := step, readyMarks := 0 }).mapLanes p fun l => { l with marks := 0, mark := none }

/-! ### A port goes down (R267, R284, R289) -/

/-- Up ports toward a neighbour. -/
def Dev.upPorts (d : Dev) (node : NodeId) : List Nat := (List.range 16).filter fun p => (d.port p).step == 7 && (d.port p).peerNode == node

/-- After a port toward a neighbour went down with packets not acknowledged: they leave by the remaining ports toward it before anything new
(R267, R289); where none remains, the neighbour has departed, and they and the packets that waited there are lost. (DEDUCED, log entry 67) -/
def Dev.afterDown (d : Dev) (node : NodeId) (port : Nat) (held : List SaeriPkt) : Dev :=
  let waiting := (d.saeri.queue.filter fun e => e.1 == port).map (·.2)
  let d1 : Dev := { d with saeri := { d.saeri with
    queue := d.saeri.queue.filter fun e => e.1 != port, transit := d.saeri.transit.filter fun e => e.1 != port } }
  if d1.upPorts node ≠ [] then
    let d2 := held.foldl (fun d k => d.sendSaeri k) d1
    let d3 : Dev := if held = [] then d2 else { d2 with saeri := { d2.saeri with recovering := node :: d2.saeri.recovering.filter fun n => n ≠ node } }
    waiting.foldl (fun d k => d.sendSaeri k) d3
  else (waiting.foldl (fun d k => d.leaveTransit k) d1).depart node none

/-- Every frame sent again toward a neighbour has been acknowledged: what was held for it goes on (R289). -/
def Dev.recovered (d : Dev) (node : NodeId) : Dev :=
  let ps := d.upPorts node
  if !d.saeri.recovering.contains node ∨ ps.any (fun p => !(d.port p).replay.isEmpty) ∨ d.saeri.queue.any (fun e => ps.contains e.1) then d
  else
    let d1 : Dev := { d with saeri := { d.saeri with recovering := d.saeri.recovering.filter fun n => n ≠ node } }
    if d1.saeri.switching then d1 else d1.sendHeld

/-- A port goes to step 8 with its cause; one that was up loses its neighbour or hands its packets on. -/
def Dev.portDown (d : Dev) (p cause : Nat) : Dev :=
  let was := d.port p
  if was.step = 0 ∨ was.step = 8 then d
  else
    let d1 := d.updPort p fun q => { q with step := 8, cause := cause, replay := [], nak := false, inUse := [], owed := [], rxWords := [] }
    if was.step = 7 then d1.afterDown was.peerNode p (framePackets was.replay) else d1

/-- A write of 0 to PortEnable: the port is disabled at once (R278). -/
def Dev.portOff (d : Dev) (p : Nat) : Dev :=
  let was := d.port p
  let d1 := (d.setObj 0x2120 (p + 1) [0]).updPort p fun q =>
    { Port.reset with txSeq := q.txSeq, rxSeq := q.rxSeq }
  if was.step = 7 then d1.afterDown was.peerNode p (framePackets was.replay) else d1

/-- A write of 1 to PortEnable starts step 1 (R276, R278). A port that is enabled already goes on. (DEDUCED, log entry 65) -/
def Dev.portOn (d : Dev) (p : Nat) : Dev :=
  if (d.port p).enabled then d
  else
    let d1 := (d.setObj 0x2120 (p + 1) [1]).updPort p fun _ => { Port.reset with enabled := true, step := 1 }
    (lanesOf p).foldl
      (fun d l => d.updLane l fun k =>
        { k with signal := false, cdr := false, lock := false, boundary := 0, peaking := d.objNat 0x4120 (l + 1), mark := none, marks := 0 })
      d1

/-- PortStatus (R292). -/
def Dev.portStatus (d : Dev) (p : Nat) : Nat :=
  let q := d.port p
  let mask (f : Lane → Bool) : Nat := (List.range 8).foldl (fun n i => if f (d.lane (8 * p + i)) then n + 2 ^ i else n) 0
  q.step * 2 ^ 60 + q.cause * 2 ^ 56 + (if q.reversed then 2 ^ 40 else 0) + q.inverted.toNat * 2 ^ 32
    + mask Lane.lock * 2 ^ 16 + mask Lane.cdr * 2 ^ 8 + mask Lane.signal

/-! ### Bring-up events (R278 to R283) -/

/-- Energy on some of a port's lanes, one bit for each; for 1 µs on all lanes it ends step 1. -/
def signalDetect (p : Nat) (lanes : Byte) (energyNs : Nat) (d : Dev) : Dev :=
  if !(d.port p).enabled then d
  else
    let d1 := (List.range 8).foldl (fun d i => d.updLane (8 * p + i) fun l => { l with signal := lanes.getLsbD i }) d
    if (d.port p).step = 1 ∧ lanes = 0xFF ∧ 1000 ≤ energyNs then d1.portStep p 2 else d1

/-- Some of a port's lanes lock to their data; with all eight, step 2 ends. -/
def cdrLock (p : Nat) (lanes : Byte) (d : Dev) : Dev :=
  if (d.port p).step < 2 ∨ 7 < (d.port p).step then d
  else
    let d1 := (List.range 8).foldl (fun d i => if lanes.getLsbD i then d.updLane (8 * p + i) fun l => { l with cdr := true } else d) d
    if (d.port p).step = 2 ∧ d1.allLanes p Lane.cdr then d1.portStep p 3 else d1

/-- A bit slip of `k` in step 3: the boundary moves, the lock count restarts (R279). -/
def Dev.bitSlip (d : Dev) (l k : Nat) : Dev := d.updLane l fun x => { x with boundary := (x.boundary + k) % 66, lock := false }

/-- 64 valid headers in a row: the lane is in block lock; with all eight, step 3 ends (R278, R279). -/
def blockLock (l validHeaders : Nat) (d : Dev) : Dev :=
  let p := portOfLane l
  if (d.port p).step < 3 ∨ 7 < (d.port p).step ∨ validHeaders < 64 then d
  else
    let d1 := d.updLane l fun x => { x with lock := true }
    if (d1.port p).step = 3 ∧ d1.allLanes p Lane.lock then d1.portStep p 4 else d1

/-- A step that exceeds its limit of 20 µs takes the port down with its cause (R278). -/
def bringupTimeout (p elapsedNs : Nat) (d : Dev) : Dev :=
  if elapsedNs ≤ 20000 then d
  else match (d.port p).step with
    | 2 => d.portDown p 1
    | 4 => d.portDown p 2
    | 5 => d.portDown p 3
    | _ => d

/-- A lane leaves block lock after 16 invalid headers within 64, or loses CDR lock; from step 4 on the port goes down (R279, R281). -/
def laneLockLoss (l : Nat) (cdr : Bool) (badHeaders : Nat) (d : Dev) : Dev :=
  if !cdr ∧ badHeaders < 16 then d
  else
    let d1 := d.updLane l fun x => { x with lock := false, cdr := x.cdr && !cdr }
    if 4 ≤ (d.port (portOfLane l)).step then d1.portDown (portOfLane l) 7 else d1

/-- A MARK payload's node, port, lane, period and RXREADY (R273). -/
def markFields (v : Nat) (inv : Bool) : Nat × Nat × Nat × Nat × Bool × Bool :=
  (bits v 27 16, bits v 14 11, bits v 10 8, bits v 39 28, bit v 15, inv)

/-- The payload of a block, descrambled by 1 + x^39 + x^58: each bit with the bits 39 and 58 places before it on the line (R272). -/
def descramble (b : LineBlock) : Block :=
  let s := b.before.toNat + 2 ^ 58 * b.block.payload.toNat
  { header := b.block.header, payload := BitVec.ofNat 64 (Nat.xor (Nat.xor (s / 2 ^ 58) (s / 2 ^ 19)) s) }

/-- A lane that is inverted on the line, put right (R280). -/
def Port.upright (q : Port) (i : Nat) (b : Block) : Block :=
  if q.inverted.getLsbD i then { header := ~~~b.header, payload := ~~~b.payload } else b

/-- A FILL (R272). -/
def isFill (b : Block) : Bool := b.header == 0b10 && b.payload == 0x96

/-- A block that is a MARK, as received or inverted on the line (R272, R280). -/
def markOf (b : Block) : Option (Nat × Nat × Nat × Nat × Bool × Bool) :=
  let v := b.payload.toNat
  if b.header = 0b10 ∧ v % 256 = 0xD2 then some (markFields v false)
  else if b.header = 0b01 ∧ v % 256 = 0x2D then some (markFields (2 ^ 64 - 1 - v) true)
  else none

/-- The latest MARKs of a port's lanes, physical lane 0 first. -/
def Dev.markList (d : Dev) (p : Nat) : List (Nat × Nat × Nat × Nat × Bool × Bool) := (lanesOf p).filterMap fun l => (d.lane l).mark

/-- Step 4 is decided on two MARK periods (R280). -/
def Dev.resolveLanes (d : Dev) (p : Nat) : Dev :=
  let ms := d.markList p
  if ms.length < 8 ∨ !d.allLanes p (fun l => 2 ≤ l.marks) then d
  else
    let one := ms.all fun m => m.1 == (ms.getD 0 (0, 0, 0, 0, false, false)).1 && m.2.1 == (ms.getD 0 (0, 0, 0, 0, false, false)).2.1
    let straight := ms.map (·.2.2.1) == List.range 8
    let crossed := ms.map (·.2.2.1) == (List.range 8).reverse
    if !one ∨ (!straight ∧ !crossed) then d.portDown p 2
    else
      let inv := (ms.zip (List.range 8)).foldl (fun n e => if e.1.2.2.2.2.2 then n + 2 ^ e.2 else n) 0
      (d.updPort p fun q => { q with reversed := crossed, inverted := BitVec.ofNat 8 inv }).portStep p 5

/-- Every lane's latest MARK has one PERIOD (R279). -/
def Dev.onePeriod (d : Dev) (p : Nat) : Bool :=
  let ms := d.markList p
  ms.length == 8 && ms.all fun m => m.2.2.2.1 == (ms.getD 0 (0, 0, 0, 0, false, false)).2.2.2.1

/-- The checks of link start (R243, R252, R265, R283): the port is up, or down with CAUSE 5 or 6. A port whose role is unused has no
expectation of its peer; a peer that Topology does not list, or that had departed, is recorded as joining. -/
def Dev.linkStart (d : Dev) (p : Nat) (node : NodeId) (peerPort : Nat) : Dev :=
  let t := topoOf (d.obj 0x4111 1)
  let role := roleOf (d.obj 0x4111 2) p
  if d.nodeId = 0xFFF then d
  else if node = d.nodeId then (d.bumpSat32 0x3110 6).portDown p 5
  else if role ≠ 0xFFFF ∧ t.nodeAt role ≠ node.toNat then (d.bumpSat32 0x3110 7).portDown p 6
  else
    let d1 := (d.portStep p 7).updPort p fun q => { q with peerNode := node, peerPort := peerPort, txSeq := 0, rxSeq := 0 }
    let d2 : Dev :=
      if (d.topo.pos? node.toNat).isNone ∨ d.saeri.departed.contains node then
        { d1 with saeri := { d1.saeri with nodeState := tabSet d1.saeri.nodeState node.toNat (2 <<< 5) } }
      else d1
    if d2.saeri.switching then d2 else d2.sendHeld

/-- In step 6 a second consecutive MARK period with RXREADY and a consistent peer ends the step (R283). -/
def Dev.countReady (d : Dev) (p : Nat) : Dev :=
  let ms := d.markList p
  let m0 := ms.getD 0 (0, 0, 0, 0, false, false)
  if !d.onePeriod p then d
  else if ms.all fun m => m.2.2.2.2.1 && m.1 == m0.1 && m.2.1 == m0.2.1 then
    let period := m0.2.2.2.1
    let follows (q : Port) : Bool := q.peerNode.toNat == m0.1 && q.peerPort == m0.2.1 && period == (q.readyPeriod + 1) % 4096
    let d1 := d.updPort p fun q =>
      { q with readyMarks := if q.readyMarks ≠ 0 ∧ follows q then q.readyMarks + 1 else 1
               readyPeriod := period, peerNode := BitVec.ofNat 12 m0.1, peerPort := m0.2.1 }
    if 2 ≤ (d1.port p).readyMarks then d1.linkStart p (BitVec.ofNat 12 m0.1) m0.2.1 else d1
  else d.updPort p fun q => { q with readyMarks := 0 }

/-- A block arrives on a lane as a MARK, `skewBlocks` being the skew between the earliest and the latest lane. -/
def markReceive (l : Nat) (line : LineBlock) (skewBlocks : Nat) (d : Dev) : Dev :=
  let p := portOfLane l
  let step := (d.port p).step
  let b := descramble line
  match markOf (if 5 ≤ step then (d.port p).upright (l % 8) b else b) with
  | none => d
  | some m =>
    if step < 4 ∨ 7 < step ∨ (4 < step ∧ m.2.2.2.2.2) then d
    else if 5 ≤ step ∧ 16 < skewBlocks then d.portDown p 3
    else if (d.lane l).mark.map (·.2.2.2.1) = some m.2.2.2.1 then d
    else
      let d1 := d.updLane l fun x => { x with mark := some m, marks := x.marks + 1 }
      if step = 4 then d1.resolveLanes p
      else if step = 5 then (if d1.onePeriod p then d1.portStep p 6 else d1)
      else if step = 6 then d1.countReady p
      else d1

/-- Rate matching (R275): a FILL is deleted above 5 blocks and repeated below 3. A block of another type is none. -/
def fillReceive (l : Nat) (line : LineBlock) (depth : Nat) (d : Dev) : Dev :=
  if !(d.port (portOfLane l)).enabled ∨ !isFill ((d.port (portOfLane l)).upright (l % 8) (descramble line)) then d
  else if 5 < depth then d.updLane l fun x => { x with deleted := x.deleted + 1 }
  else if depth < 3 then d.updLane l fun x => { x with repeated := x.repeated + 1 }
  else d

/-! ### Link frames (R282, R286 to R289) -/

/-- Block j of a frame: it came on the physical lane that carries logical lane j mod 8, in slot j div 8 (R280, R282). -/
def Port.frameBlock (q : Port) (f : RawFrame) (j : Nat) : Block :=
  let i := if q.reversed then 7 - j % 8 else j % 8
  let b := f.blocks.getD (8 * (j / 8) + i) { before := 0, block := { header := 0, payload := 0 } }
  q.upright i (descramble b)

/-- A frame as its port reads it: 72 data blocks, 32 guard-code words with the data bits below the check bits, and what the check finds. A word it
cannot correct, a block error or a reserved TYPE make it bad (R272, R282, R287). (DESIGN CHOICE, log entry 94) -/
def Port.readFrame (q : Port) (f : RawFrame) : LinkFrame :=
  let blocks := (List.range 72).map (q.frameBlock f)
  let all := blocks.foldr (fun b n => b.payload.toNat + 2 ^ 64 * n) 0
  let fix (k : Nat) : BitVec 128 := (f.fixes.filter fun e => e.1 == k).foldl (fun v e => v ^^^ e.2) 0
  let word (k : Nat) : BitVec 128 := BitVec.ofNat 128 (all / 2 ^ (144 * k)) ^^^ fix k
  let h := word 0
  { type := h.extractLsb' 124 4, seq := h.extractLsb' 112 12, ack := h.extractLsb' 100 12, nak := h.getLsbD 99, srcNode := h.extractLsb' 80 12,
    crMg := h.extractLsb' 76 4, crWt := h.extractLsb' 72 4, crRs := h.extractLsb' 68 4, crRq := h.extractLsb' 64 4, departed := h.extractLsb' 52 12,
    words := (List.range 31).map fun k => word (k + 1), corrected := ((f.fixes.map (·.1)).filter fun k => k < 32).dedup.length,
    bad := f.failed || !blocks.all (fun b => b.header == 0b01) || 3 < (h.extractLsb' 124 4).toNat }

/-- Frames up to `ack` leave the replay buffer. -/
def ackDrop (l : List SentFrame) (ack : BitVec 12) : List SentFrame :=
  if l.any fun f => f.seq == ack then (l.dropWhile fun f => f.seq != ack).drop 1 else l

/-- ACK and returned credits of a frame. A sender holds at most 16 credits of a class. (DEDUCED, log entry 66) -/
def Port.takeHeader (q : Port) (f : LinkFrame) : Port :=
  { q with replay := ackDrop q.replay f.ack, crMg := min 16 (q.crMg + f.crMg.toNat), crWt := min 16 (q.crWt + f.crWt.toNat),
           crRs := min 16 (q.crRs + f.crRs.toNat), crRq := min 16 (q.crRq + f.crRq.toNat) }

/-- A packet of a lost frame (R289): the request it carries ends with LINK_LOST, here or at the node that made it; a carry partial, a weight row or
a quiescence notice fails its round. -/
def Dev.lostPacket (d : Dev) (k : SaeriPkt) : Dev :=
  let response := saeriClass k.op = 1
  if k.snode = d.nodeId ∧ !response then
    let d1 := d.lostNotice k.op k.addr.toNat
    (d.saeri.outstanding.filter fun q => q.tag == k.tag && q.node == k.dnode && saeriClass k.op == 2).foldl (fun d q => d.saeriEnd q .linkLost []) d1
  else
    let reads := k.op = 0x01 ∨ k.op = 0x03
    d.sendSaeri { k with dnode := if response then k.dnode else k.snode, snode := if response then k.snode else k.dnode,
                         op := if reads then 0x03 else 0x04, status := BitVec.ofNat 8 Status.linkLost.code,
                         data := if reads then deadBytes k.addr.toNat (k.lenm1.toNat + 1) else [] }

def Dev.lostFrame (d : Dev) (f : SentFrame) : Dev := f.packets.foldl Dev.lostPacket d

/-- Every unacknowledged frame is sent again; the oldest that is sent a fourth time without acknowledgement is lost, and the port
goes down (R288, R289). (DEDUCED, log entry 66) -/
def Dev.replayFrames (d : Dev) (p : Nat) : Dev :=
  let q := d.port p
  let d1 := d.bump 0x3121 2 q.replay.length
  let sent := q.replay.map fun f => { f with sends := f.sends + 1 }
  match sent with
  | f :: rest =>
    if 4 ≤ f.sends then
      let whole := match rest with | g :: t => (if g.cont then { g with packets := g.packets.drop 1 } else g) :: t | [] => []
      (((d1.bump 0x3121 3 1).updPort p fun q => { q with replay := whole }).lostFrame f).portDown p 9
    else d1.updPort p fun q => sent.foldl (fun q f => q.sendHeader d.nodeId 1 f.seq 0) { q with replay := sent }
  | [] => d1

/-- What every good frame of a port does before its own content. -/
def Dev.frameHeader (d : Dev) (p : Nat) (f : LinkFrame) : Dev :=
  let d1 := d.updPort p fun q => q.takeHeader f
  Dev.pump ((if f.nak then d1.replayFrames p else d1).recovered (d.port p).peerNode)

/-- A packet unpacked from a data frame takes a receive slot; for one for another node, it keeps it until a port has taken it (R285, R286). One
that the sender held no credit for takes the port down. -/
def Dev.unpack (d : Dev) (p : Nat) (k : SaeriPkt) : Dev :=
  let c := saeriClass k.op
  if (d.port p).step ≠ 7 then d
  else if 16 ≤ tabGet 0 (d.port p).inUse c + tabGet 0 (d.port p).owed c then d.portDown p 4
  else
    let d1 := d.updPort p fun q => { q with inUse := tabSet q.inUse c (tabGet 0 q.inUse c + 1) }
    if k.dnode = d.nodeId then { d1 with saeri := { d1.saeri with inbox := d1.saeri.inbox ++ [(p, k)] } }
    else Dev.sendSaeri { d1.bump 0x3110 3 k.data.length with saeri := { d1.saeri with transit := d1.saeri.transit ++ [(p, k)] } } k

/-- A link frame arrives: the words it corrects are counted (R287), and `f` acts on it if it is good and of the type that the command names. -/
def Dev.withFrame (d : Dev) (p : Nat) (raw : RawFrame) (type : BitVec 4) (f : LinkFrame → Dev → Dev) : Dev :=
  let g := (d.port p).readFrame raw
  if (d.port p).step ≠ 7 ∨ raw.blocks.length ≠ 72 then d
  else if g.bad then d.bump 0x3121 1 g.corrected
  else if g.type = type then f g (d.bump 0x3121 1 g.corrected)
  else d

/-- A data frame arrives: it is discarded, and NAK asked for, if it is bad or not the next one (R287). -/
def dataFrame (p : Nat) (raw : RawFrame) (d : Dev) : Dev :=
  let nak (d : Dev) : Dev := d.updPort p fun q => { q with nak := true }
  if (d.port p).step = 7 ∧ raw.blocks.length = 72 ∧ ((d.port p).readFrame raw).bad then nak (d.withFrame p raw 1 fun _ d => d)
  else d.withFrame p raw 1 fun f d =>
    if f.seq ≠ (d.port p).rxSeq then nak d
    else
      let r := parsePackets 32 ((d.port p).rxWords ++ f.words)
      let d1 := (d.updPort p fun q => { q with rxSeq := q.rxSeq + 1, rxWords := r.2 }).frameHeader p f
      r.1.foldl (fun d k => d.unpack p k) d1

/-- An idle frame arrives (R282, R287). -/
def idleFrame (p : Nat) (raw : RawFrame) (d : Dev) : Dev := d.withFrame p raw 0 fun f d => d.frameHeader p f

/-- A leave notice: the port goes down with CAUSE 10 and the neighbour has departed at once (R266, R284). -/
def leaveNotice (p : Nat) (raw : RawFrame) (d : Dev) : Dev :=
  let node := (d.port p).peerNode
  d.withFrame p raw 2 fun f d => (((d.frameHeader p f).portDown p 10).depart node (some p))

/-- A departure notice (R267): forwarded once, routes recomputed. -/
def departureNotice (p : Nat) (raw : RawFrame) (d : Dev) : Dev :=
  d.withFrame p raw 3 fun f d =>
    let d1 := d.frameHeader p f
    if f.departed = d.nodeId ∨ d.saeri.departed.contains f.departed then d1 else d1.depart f.departed (some p)

/-- A NAK arrives: frames from ACK + 1 on are sent again (R288). -/
def nakReplay (p : Nat) (ack : BitVec 12) (d : Dev) : Dev :=
  if (d.port p).step ≠ 7 then d
  else (d.updPort p fun q => { q with replay := ackDrop q.replay ack }).replayFrames p

/-- The oldest frame has waited 500 ns (R288). -/
def replayTimeout (p waitedNs : Nat) (d : Dev) : Dev :=
  if (d.port p).step ≠ 7 ∨ waitedNs < 500 then d else d.replayFrames p

/-- No valid frame for 1 µs (R267, R284). -/
def portTimeout (p silentNs : Nat) (d : Dev) : Dev :=
  if (d.port p).step ≠ 7 ∨ silentNs < 1000 then d else d.portDown p 8

/-- Leave (R266): a notice on every port; the links stop. The neighbours are gone for this device (R267). -/
def Dev.leaveFabric (d : Dev) : Dev :=
  let up := (List.range 16).filter fun p => (d.port p).step == 7
  let nodes := (up.map fun p => (d.port p).peerNode).dedup
  let d1 := up.foldl (fun d p => d.sendNotice p 2 d.nodeId) { d with saeri := { d.saeri with left := true } }
  let d2 := (List.range 16).foldl (fun d p => (d.setObj 0x2120 (p + 1) [0]).updPort p fun _ => Port.reset) d1
  nodes.foldl (fun d n => d.depart n none) d2

/-! ### Test mode (R291) -/

/-- A write of LaneTest clears the error count. -/
def Dev.laneTest (d : Dev) (l : Nat) (on : Bool) : Dev :=
  (d.setObj 0x7120 (l + 1) [if on then 1 else 0]).updLane l fun x => { x with test := on, testErrors := 0 }

def laneTestError (l : Nat) (d : Dev) : Dev :=
  d.updLane l fun x => if x.test then { x with testErrors := min (x.testErrors + 1) (2 ^ 32 - 1) } else x

/-! ### The commands -/

/-- SIGNAL_DETECT (R278). -/
def execSignalDetect (port : PortId) (energy : LaneEnergy) (s : State) : Host.Outcome State Fault Refusal :=
  s.onClock (signalDetect port.toNat energy.lanes energy.ns)
/-- CDR_LOCK (R278). -/
def execCdrLock (lanes : PortLanes) (s : State) : Host.Outcome State Fault Refusal := s.onClock (cdrLock lanes.port.toNat lanes.lanes)
/-- BLOCK_LOCK (R279). -/
def execBlockLock (lane : LaneId) (validHeaders : Nat) (s : State) : Host.Outcome State Fault Refusal :=
  s.onClock (blockLock lane.toNat validHeaders)
/-- BRINGUP_TIMEOUT (R278). -/
def execBringupTimeout (port : PortId) (elapsedNs : Nat) (s : State) : Host.Outcome State Fault Refusal :=
  s.onClock (bringupTimeout port.toNat elapsedNs)
/-- MARK_RECEIVE (R273, R279, R280, R283). -/
def execMarkReceive (lane : LaneId) (block : LineBlock) (skewBlocks : Nat) (s : State) : Host.Outcome State Fault Refusal :=
  s.onClock (markReceive lane.toNat block skewBlocks)
/-- LANE_LOCK_LOSS (R281). -/
def execLaneLockLoss (lane : LaneId) (cdr : Bool) (badHeaders : Nat) (s : State) : Host.Outcome State Fault Refusal :=
  s.onClock (laneLockLoss lane.toNat cdr badHeaders)
/-- FILL_RECEIVE (R275). -/
def execFillReceive (lane : LaneId) (block : BufferedBlock) (s : State) : Host.Outcome State Fault Refusal :=
  s.onClock (fillReceive lane.toNat block.line block.depth)
/-- IDLE_FRAME (R282). -/
def execIdleFrame (port : PortId) (frame : RawFrame) (s : State) : Host.Outcome State Fault Refusal := s.onClock (idleFrame port.toNat frame)
/-- DATA_FRAME (R287). -/
def execDataFrame (port : PortId) (frame : RawFrame) (s : State) : Host.Outcome State Fault Refusal := s.onClock (dataFrame port.toNat frame)
/-- LEAVE_NOTICE (R266). -/
def execLeaveNotice (port : PortId) (frame : RawFrame) (s : State) : Host.Outcome State Fault Refusal :=
  s.onClock (leaveNotice port.toNat frame)
/-- DEPARTURE_NOTICE (R267). -/
def execDepartureNotice (port : PortId) (frame : RawFrame) (s : State) : Host.Outcome State Fault Refusal :=
  s.onClock (departureNotice port.toNat frame)
/-- NAK_REPLAY (R288). -/
def execNakReplay (port : PortId) (ack : BitVec 12) (s : State) : Host.Outcome State Fault Refusal := s.onClock (nakReplay port.toNat ack)
/-- REPLAY_TIMEOUT (R288). -/
def execReplayTimeout (port : PortId) (waitedNs : Nat) (s : State) : Host.Outcome State Fault Refusal :=
  s.onClock (replayTimeout port.toNat waitedNs)
/-- PORT_TIMEOUT (R267). -/
def execPortTimeout (port : PortId) (silentNs : Nat) (s : State) : Host.Outcome State Fault Refusal :=
  s.onClock (portTimeout port.toNat silentNs)
/-- LANE_TEST_ERROR (R291). -/
def execLaneTestError (lane : LaneId) (s : State) : Host.Outcome State Fault Refusal := s.onClock (laneTestError lane.toNat)

end Sys2Proof.Machine
end

