-- ==== Sys2Proof/Machine/Float.lean ====
section
/-! DEFINITION. Element values and formats: exact values, one rounding (R5), the formats of R24, R27 and R32, IEEE arithmetic of
R108, maximum and minimum of R45, and the narrowing of R41 and R42. -/

namespace Sys2Proof.Machine

/-- A floating format (R24): mantissa bits, exponent bits, bias, largest finite magnitude code, infinity and NaN codes. -/
structure FFmt where
  mb : Nat
  eb : Nat
  bias : Nat
  maxCode : Nat
  inf : Option Nat
  nan : Option Nat
deriving DecidableEq, Repr

def fp32 : FFmt := { mb := 23, eb := 8, bias := 127, maxCode := 0x7F7FFFFF, inf := some 0x7F800000, nan := some 0x7FC00000 }
def bf16 : FFmt := { mb := 7, eb := 8, bias := 127, maxCode := 0x7F7F, inf := some 0x7F80, nan := some 0x7FC0 }
def fp16 : FFmt := { mb := 10, eb := 5, bias := 15, maxCode := 0x7BFF, inf := some 0x7C00, nan := some 0x7E00 }
def e4m3 : FFmt := { mb := 3, eb := 4, bias := 7, maxCode := 0x7E, inf := none, nan := some 0x7F }
def e5m2 : FFmt := { mb := 2, eb := 5, bias := 15, maxCode := 0x7B, inf := some 0x7C, nan := some 0x7E }
def e3m2 : FFmt := { mb := 2, eb := 3, bias := 3, maxCode := 0x1F, inf := none, nan := none }
def e2m3 : FFmt := { mb := 3, eb := 2, bias := 1, maxCode := 0x1F, inf := none, nan := none }
def e2m1 : FFmt := { mb := 1, eb := 2, bias := 1, maxCode := 0x7, inf := none, nan := none }

/-- The value of a code of a floating format (R24): beyond the largest finite magnitude lie the infinity, where the format has
one, and the NaN codes. -/
def decodeFloat (f : FFmt) (code : Nat) : Val :=
  let mag := code % 2 ^ (f.mb + f.eb)
  let neg := bit code (f.mb + f.eb)
  let e := mag / 2 ^ f.mb
  let m := mag % 2 ^ f.mb
  if f.maxCode < mag then (if f.inf = some mag then .inf neg else .nan)
  else if e = 0 then .fin neg m (1 - (f.bias : Int) - f.mb)
  else .fin neg (2 ^ f.mb + m) ((e : Int) - f.bias - f.mb)

/-- The magnitude code of `m * 2^e` rounded half to even in a format, its upper exponent limit lifted (R5, R41). Below the
smallest normal number it rounds on the subnormal grid (R26). -/
def roundCode (f : FFmt) (m : Nat) (e : Int) : Nat :=
  if m = 0 then 0 else
  let q : Int := max (e + Nat.log2 m - f.mb) (1 - (f.bias : Int) - f.mb)
  let r := if q ≤ e then m * 2 ^ (e - q).toNat else rneShift m (q - e).toNat
  (q + f.mb + f.bias - 1).toNat * 2 ^ f.mb + r

/-- An integer as an exact floating value. -/
def asFloat : Val → Val
  | .int i => .fin (i < 0) i.natAbs 0
  | v => v

/-- A value rounded once into an IEEE-like format: signed zero kept, overflow to infinity, NaN canonical (R25, R108). -/
def encodeFloat (f : FFmt) (v : Val) : Nat :=
  let sign (neg : Bool) : Nat := if neg then 2 ^ (f.mb + f.eb) else 0
  match asFloat v with
  | .inf neg => sign neg + f.inf.getD 0
  | .fin neg m e => let c := roundCode f m e; sign neg + (if f.maxCode < c then f.inf.getD 0 else c)
  | _ => f.nan.getD 0

/-- FP32 bits of a value. -/
def toFp32 (v : Val) : Word := BitVec.ofNat 32 (encodeFloat fp32 v)
/-- The value of FP32 bits. -/
def ofFp32 (w : Word) : Val := decodeFloat fp32 w.toNat
/-- The value of INT32 bits. -/
def ofInt32 (w : Word) : Val := .int w.toInt

/-- The exact sum, with the zero and infinity rules of IEEE 754 (R108): a zero sum is negative only if both addends are. -/
def addVal (a b : Val) : Val :=
  match asFloat a, asFloat b with
  | .inf s, .inf t => if s = t then .inf s else .nan
  | .inf s, .fin .. => .inf s
  | .fin .., .inf t => .inf t
  | .fin s m e, .fin t n g =>
    let lo := min e g
    let x : Int := (m : Int) * 2 ^ (e - lo).toNat
    let y : Int := (n : Int) * 2 ^ (g - lo).toNat
    let sum := (if s then -x else x) + (if t then -y else y)
    if sum = 0 then .fin (s && t) 0 0 else .fin (sum < 0) sum.natAbs lo
  | _, _ => .nan

def negVal : Val → Val
  | .inf s => .inf (!s)
  | .fin s m e => .fin (!s) m e
  | .int i => .int (-i)
  | .nan => .nan

/-- The exact product; zero times infinity is NaN (R39). -/
def mulVal (a b : Val) : Val :=
  match asFloat a, asFloat b with
  | .inf s, .inf t => .inf (s != t)
  | .inf s, .fin t n _ => if n = 0 then .nan else .inf (s != t)
  | .fin s m _, .inf t => if m = 0 then .nan else .inf (s != t)
  | .fin s m e, .fin t n g => .fin (s != t) (m * n) (e + g)
  | _, _ => .nan

/-- Whether a finite value is zero. -/
def isZero : Val → Bool
  | .fin _ m _ => m == 0
  | .int i => i == 0
  | _ => false

/-- The order of R45 on values that are not NaN: −0 below +0. -/
def leVal (a b : Val) : Bool :=
  match asFloat a, asFloat b with
  | .inf s, .inf t => s || !t
  | .inf s, _ => s
  | _, .inf t => !t
  | .fin s m e, .fin t n g =>
    let lo := min e g
    let x : Int := (m : Int) * 2 ^ (e - lo).toNat
    let y : Int := (n : Int) * 2 ^ (g - lo).toNat
    let x := if s then -x else x
    let y := if t then -y else y
    x < y || (x == y && (s || !t))
  | _, _ => true

/-- Maximum under R45: a NaN operand is ignored. -/
def maxVal (a b : Val) : Val := if a = .nan then b else if b = .nan then a else if leVal a b then b else a
/-- Minimum under R45. -/
def minVal (a b : Val) : Val := if a = .nan then b else if b = .nan then a else if leVal a b then a else b

/-- The integer nearest to a finite value, half to even (R42). -/
def roundInt (m : Nat) (e : Int) : Nat := if 0 ≤ e then m * 2 ^ e.toNat else rneShift m (-e).toNat

/-- `i` limited to `lo` to `hi`, and whether that changed it. -/
def clampInt (lo hi i : Int) : Int × Bool := if i < lo then (lo, true) else if hi < i then (hi, true) else (i, false)

/-- INT32 saturation (R109). -/
def sat32 (i : Int) : Word × Bool :=
  let c := clampInt (-2 ^ 31) (2 ^ 31 - 1) i
  (BitVec.ofInt 32 c.1, c.2)

/-! ### Format codes (R28) -/

/-- The kinds of format codes: floating, integer (width, signed), ternary, block (element format or MXINT8, block size, emax). -/
inductive Kind where
  | float (f : FFmt)
  | int (w : Nat) (sign : Bool)
  | ternary
  | block (f : Option FFmt) (size emax : Nat)
deriving DecidableEq, Repr

/-- The format that a code names (R28, R33), `none` for any other code. -/
def formatKind : Nat → Option Kind
  | 0x01 => some (.float fp32) | 0x02 => some (.int 32 true) | 0x03 => some (.float bf16) | 0x04 => some (.float fp16)
  | 0x05 => some (.float e4m3) | 0x06 => some (.float e5m2) | 0x07 => some (.float e3m2) | 0x08 => some (.float e2m3)
  | 0x09 => some (.float e2m1) | 0x0A => some (.int 8 true) | 0x0B => some (.int 8 false) | 0x0C => some (.int 4 true)
  | 0x0D => some (.int 4 false) | 0x0E => some (.int 2 true) | 0x0F => some (.int 2 false) | 0x10 => some .ternary
  | 0x20 => some (.block (some e4m3) 32 8) | 0x21 => some (.block (some e5m2) 32 15) | 0x22 => some (.block (some e3m2) 32 4)
  | 0x23 => some (.block (some e2m3) 32 2) | 0x24 => some (.block (some e2m1) 32 2) | 0x25 => some (.block none 32 0)
  | 0x30 => some (.block (some e4m3) 16 8) | 0x31 => some (.block (some e5m2) 16 15) | 0x32 => some (.block (some e3m2) 16 4)
  | 0x33 => some (.block (some e2m3) 16 2) | 0x34 => some (.block (some e2m1) 16 2)
  | _ => none

/-- Element width in bits (R28). -/
def Kind.width : Kind → Nat
  | .float f => f.mb + f.eb + 1
  | .int w _ => w
  | .ternary => 2
  | .block (some f) _ _ => f.mb + f.eb + 1
  | .block none _ _ => 8

/-- The block size, `none` for plain formats. -/
def Kind.blockSize : Kind → Option Nat
  | .block _ b _ => some b
  | _ => none

/-- Element width of a format code; 8 for a code that names no format. -/
def formatWidth (code : Nat) : Nat := ((formatKind code).map Kind.width).getD 8

/-- Level 0 of a view of this format is packed (R31). -/
def isPacked (code : Nat) : Bool :=
  match formatKind code with
  | some k => k.width < 8 || k.blockSize.isSome
  | none => false

/-- Plain integer formats, codes 0x0A to 0x10 (R40). -/
def isPlainInt (code : Nat) : Bool := 0x0A ≤ code && code ≤ 0x10

/-- The depth D of a pairing, by the wider of two element widths (R46, R48). -/
def depthOf (w a : Nat) : Nat := let m := max w a; if m ≤ 2 then 8 else if m ≤ 6 then 4 else if m ≤ 8 then 2 else 1

/-- DCLASS of a depth (R230). -/
def dclassOf (d : Nat) : Nat := Nat.log2 d

/-- The value of a plain element code (R24, R27); ternary 0b10 reads as 0. -/
def decodeElem (code v : Nat) : Val :=
  match formatKind code with
  | some (.float f) => decodeFloat f v
  | some (.int w true) => .int (signed w v)
  | some (.int w false) => .int (v % 2 ^ w : Nat)
  | some .ternary => .int (if v % 4 = 1 then 1 else if v % 4 = 3 then -1 else 0)
  | some (.block (some f) _ _) => decodeFloat f v
  | some (.block none _ _) => let i := signed 8 v; .fin (i < 0) i.natAbs (-6)
  | none => .nan

/-- The value of a block element: scale times element value (R32, R35). -/
def scaleVal (scale : Nat) (v : Val) : Val :=
  if scale = 0xFF then .nan
  else match v with
    | .fin s m e => .fin s m (e + scale - 127)
    | v => v

/-! ### Narrowing (R41, R42) -/

/-- Bottom and top of an integer target. -/
def intRange (w : Nat) (sign : Bool) : Int × Int := if sign then (-2 ^ (w - 1), 2 ^ (w - 1) - 1) else (0, 2 ^ w - 1)

/-- The store outcome of R42 for a floating target: the code and whether SATURATED is set. -/
def storeFloat (f : FFmt) (isE4m3 : Bool) (policy : Nat) (v : Val) : Nat × Bool :=
  let sign (neg : Bool) : Nat := if neg then 2 ^ (f.mb + f.eb) else 0
  match asFloat v with
  | .inf neg =>
    match f.inf with
    | some c => (sign neg + c, false)
    | none => if isE4m3 ∧ policy = 1 then (f.nan.getD 0, false) else (sign neg + f.maxCode, true)
  | .fin neg m e =>
    let c := roundCode f m e
    if c = 0 then (0, false)
    else if c ≤ f.maxCode then (sign neg + c, false)
    else match f.inf with
      | some c => (sign neg + c, false)
      | none => (sign neg + f.maxCode, true)
  | _ => match f.nan with
    | some c => (c, false)
    | none => (0, true)

/-- The store outcome of R42 for an integer target with the range `lo` to `hi`. -/
def storeInt (lo hi : Int) (v : Val) : Int × Bool :=
  match v with
  | .nan => (0, true)
  | .inf neg => (if neg then lo else hi, true)
  | .int i => clampInt lo hi i
  | .fin neg m e => let i : Int := roundInt m e; clampInt lo hi (if neg then -i else i)

/-- The code a store writes for one value in a plain format, and whether it sets SATURATED (R42, R43). -/
def narrow (code policy : Nat) (v : Val) : Nat × Bool :=
  match formatKind code with
  | some (.float f) => storeFloat f (code == 0x05) policy v
  | some (.int w s) => let r := storeInt (intRange w s).1 (intRange w s).2 v; (unsigned w r.1, r.2)
  | some .ternary => let r := storeInt (-1) 1 v; (unsigned 2 r.1, r.2)
  | _ => (0, false)

/-- What the store engine forms of one block (R36): scale, codes, SATURATED, elements counted in BLOCK_UNDERFLOW. -/
structure BlockOut where
  scale : Nat
  codes : List Nat
  sat : Bool
  under : Nat
deriving DecidableEq, Repr

/-- A value brought to FP32, as R36 demands before a block is formed. -/
def viaFp32 (v : Val) : Val := ofFp32 (toFp32 v)

/-- floor(log2 |v|) of a finite nonzero value. -/
def floorLog2 : Val → Int
  | .fin _ m e => e + Nat.log2 m
  | _ => 0

/-- The element code of one scaled value and whether it underflows (R36). -/
def blockCode (f : Option FFmt) (x : Int) (v : Val) : Nat × Bool :=
  match v with
  | .fin neg m e =>
    match f with
    | some f =>
      let c := min (roundCode f m (e - x)) f.maxCode
      if c = 0 then (0, m != 0) else ((if neg then 2 ^ (f.mb + f.eb) else 0) + c, false)
    | none =>
      let c := min (roundInt m (e - x + 6)) 127
      if c = 0 then (0, m != 0) else (unsigned 8 (if neg then -(c : Int) else c), false)
  | _ => (0, false)

/-- The block step of R36 on values already brought to FP32. -/
def formBlock (f : Option FFmt) (emax : Nat) (vs : List Val) : BlockOut :=
  let bad := vs.any fun v => v = .nan || v = .inf true || v = .inf false
  if bad then { scale := 0xFF, codes := vs.map fun _ => 0, sat := !(vs.any fun v => v = .nan), under := 0 }
  else if vs.all isZero then { scale := 0, codes := vs.map fun _ => 0, sat := false, under := 0 }
  else
    let top := (vs.filter fun v => !isZero v).foldl (fun a v => max a (floorLog2 v)) (-200)
    let x := max (top - emax) (-127)
    let cs := vs.map (blockCode f x)
    { scale := (x + 127).toNat, codes := cs.map (·.1), sat := false, under := (cs.filter (·.2)).length }

/-! ### Products (R39) -/

/-- A product rounded once to FP32. -/
def productFp32 (w a : Val) : Word := toFp32 (mulVal w a)

/-- An exact integer product. -/
def productInt (w a : Val) : Int :=
  match w, a with
  | .int x, .int y => x * y
  | _, _ => 0

/-- FP32 addition with one rounding (R78). -/
def addFp32 (a b : Word) : Word := toFp32 (addVal (ofFp32 a) (ofFp32 b))

/-! ### Transcendental steps (R110) -/

/-- `free` where it lies within `tol * 2^tolE` of the interval [lo, hi] * 2^s, else `fallback`: the bound of R110 on a value
whose bits the manual leaves open. The intervals are enclosures of the exact function value. -/
def withinBound (lo hi s : Int) (tol : Nat) (tolE : Int) (free fallback : Word) : Word :=
  match ofFp32 free with
  | .fin neg m e =>
    let base := min (min s tolE) e
    let at' (v : Int) (x : Int) : Int := v * 2 ^ (x - base).toNat
    let r := at' (if neg then -(m : Int) else m) e
    let t := at' tol tolE
    if at' lo s - t ≤ r ∧ r ≤ at' hi s + t then free else fallback
  | _ => fallback

/-- Exponent of the spacing of FP32 numbers at the rounded value of `m * 2^e` (R110: a ULP). -/
def ulpExp (m : Nat) (e : Int) : Int :=
  let c := roundCode fp32 m e
  max ((c / 2 ^ 23 : Nat) - 150 : Int) (-149)

/-- A free value within `n` ULP of a positive value enclosed by [lo, hi] * 2^s. -/
def withinUlp (n lo hi : Nat) (s : Int) (free : Word) : Word :=
  withinBound lo hi s n (ulpExp lo s) free (toFp32 (.fin false lo s))

/-- Square roots of 2, √2, √√2, …, scaled by 2^200 and rounded down: the j-th is 2^(2^-j). -/
def roots : Nat → Nat → List Nat
  | 0, _ => []
  | n + 1, r => let q := Nat.sqrt (r * 2 ^ 200); q :: roots n q

/-- The first 160 roots of 2. -/
def rootTable : List Nat := roots 160 (2 ^ 201)

/-- 2^(f / 2^160) scaled by 2^200, rounded down at each step. -/
def pow2Frac (f : Nat) : Nat :=
  (rootTable.zip (List.range 160)).foldl (fun p rj => if bit f (159 - rj.2) then p * rj.1 / 2 ^ 200 else p) (2 ^ 200)

/-- An enclosure [lo, hi] * 2^s of 2^(v / 2^160). -/
def pow2 (v : Int) : Nat × Nat × Int :=
  let i := v / 2 ^ 160
  let p := pow2Frac (v % 2 ^ 160).toNat
  (p - p / 2 ^ 150, p + p / 2 ^ 150, i - 200)

/-- A finite value scaled by 2^160 and rounded down. -/
def fix160 (neg : Bool) (m : Nat) (e : Int) : Int :=
  let x : Int := if neg then -(m : Int) else m
  if -160 ≤ e then x * 2 ^ (e + 160).toNat else x / 2 ^ (-160 - e).toNat

/-- log2 of x in [1, 2) given scaled by 2^200, as a fraction scaled by 2^160, rounded down. -/
def log2Frac (x : Nat) : Nat :=
  ((rootTable.zip (List.range 160)).foldl
    (fun (pf : Nat × Nat) rj => let q := pf.1 * rj.1 / 2 ^ 200; if q ≤ x then (q, pf.2 + 2 ^ (159 - rj.2)) else pf) (2 ^ 200, 0)).2

/-- log2(e) scaled by 2^160, rounded down. -/
def log2e160 : Nat := 2108501164428393954197770173035669514763056903505

/-- 2^a (R110). (DESIGN CHOICE, log entry 15) -/
def exp2Fp32 (w : Word) : Word :=
  match ofFp32 w with
  | .inf neg => if neg then 0 else 0x7F800000
  | .fin neg m e =>
    let a := fix160 neg m e
    if 128 * 2 ^ 160 ≤ a then 0x7F800000
    else if a ≤ -150 * 2 ^ 160 then 0
    else if m = 0 ∨ (0 ≤ e ∨ m % 2 ^ (-e).toNat = 0) then
      (let i : Int := roundInt m e; toFp32 (.fin false 1 (if neg then -i else i)))
    else let y := pow2 a; withinUlp 1 y.1 y.2.1 y.2.2 (Config.exp2 w)
  | _ => 0x7FC00000

/-- log2 a (R110). (DESIGN CHOICE, log entry 15) -/
def log2Fp32 (w : Word) : Word :=
  match ofFp32 w with
  | .inf neg => if neg then 0x7FC00000 else 0x7F800000
  | .fin neg m e =>
    if m = 0 then 0xFF800000
    else if neg then 0x7FC00000
    else
      let i : Int := e + Nat.log2 m
      if m = 2 ^ Nat.log2 m then toFp32 (.int i)
      else
        let f := log2Frac (m * 2 ^ (200 - Nat.log2 m))
        let y : Int := i * 2 ^ 160 + f
        let fallback := toFp32 (.fin (y < 0) y.natAbs (-160))
        if -1 ≤ i ∧ i ≤ 0 then withinBound (y - 2 ^ 10) (y + 2 ^ 10) (-160) 1 (-22) (Config.log2 w) fallback
        else withinBound (y - 2 ^ 10) (y + 2 ^ 10) (-160) 2 (ulpExp y.natAbs (-160)) (Config.log2 w) fallback
  | _ => 0x7FC00000

/-- 1 / a (R110). (DESIGN CHOICE, log entry 15) -/
def rcpFp32 (w : Word) : Word :=
  match ofFp32 w with
  | .inf neg => if neg then 0x80000000 else 0
  | .fin neg m e =>
    let sign : Word := if neg then 0x80000000 else 0
    if m = 0 ∨ fix160 false m e < 2 ^ 32 then sign ||| 0x7F800000
    else
      let r := toFp32 (.fin false 1 (-(e + Nat.log2 m)))
      if m = 2 ^ Nat.log2 m then sign ||| r
      else let q := 2 ^ 200 / m; sign ||| (withinUlp 1 q (q + 1) (-e - 200) (Config.rcp w &&& 0x7FFFFFFF))
  | _ => 0x7FC00000

/-- 1 / √a (R110). (DESIGN CHOICE, log entry 15) -/
def rsqFp32 (w : Word) : Word :=
  match ofFp32 w with
  | .inf neg => if neg then 0x7FC00000 else 0
  | .fin neg m e =>
    if m = 0 then (if neg then 0xFF800000 else 0x7F800000)
    else if neg then 0x7FC00000
    else
      let m' := if e % 2 = 0 then m else 2 * m
      let e' := if e % 2 = 0 then e else e - 1
      let l := Nat.log2 m
      if m = 2 ^ l ∧ (e + l) % 2 = 0 then toFp32 (.fin false 1 (-((e + l) / 2)))
      else let q := Nat.sqrt (2 ^ 400 / m'); withinUlp 1 q (q + 2) (-(e' / 2) - 200) (Config.rsq w)
  | _ => 0x7FC00000

/-- tanh of a positive value below 9.1, enclosed. -/
def tanhBounds (m : Nat) (e : Int) : Nat × Nat × Int :=
  if e + Nat.log2 m < -40 then (m * 2 ^ 100 - m * 2 ^ 24, m * 2 ^ 100, e - 100)
  else
    let x := fix160 false m e
    let p := pow2 (2 * x * log2e160 / 2 ^ 160)
    let big : Nat × Nat := if 0 ≤ p.2.2 + 200 then (p.1 * 2 ^ (p.2.2 + 200).toNat, p.2.1 * 2 ^ (p.2.2 + 200).toNat) else (p.1, p.2.1)
    let one := 2 ^ 200
    ((big.1 - one) * 2 ^ 200 / (big.1 + one), (big.2 - one) * 2 ^ 200 / (big.2 + one) + 2, -200)

/-- tanh a (R110): the result for −a is the result for a with its sign flipped. (DESIGN CHOICE, log entry 15) -/
def tanhFp32 (w : Word) : Word :=
  match ofFp32 w with
  | .inf neg => if neg then 0xBF800000 else 0x3F800000
  | .fin neg m e =>
    let sign : Word := if neg then 0x80000000 else 0
    if m = 0 then w
    else if 91 * 2 ^ 160 ≤ 10 * fix160 false m e then sign ||| 0x3F800000
    else let y := tanhBounds m e; sign ||| (withinUlp 2 y.1 y.2.1 y.2.2 (Config.tanh (w &&& 0x7FFFFFFF)) &&& 0x7FFFFFFF)
  | _ => 0x7FC00000

end Sys2Proof.Machine
end

