-- ==== Sys2Proof/Machine/Reckoner.lean ====
section
/-! DEFINITION. The Reckoner (R175 to R198): decoding, registers, the effect of every instruction, faults, patches, running
and reloading. -/

namespace Sys2Proof.Machine

/-! ### Decoding (R180, R181) -/

/-- The instructions of R181. -/
inductive RkOp where
  | add | sub | and | or | xor | sll | srl | sra | slt | sltu | mul | mulhs | mulhu | min | max | norm
  | expf | expb | addi | slti | sltiu | andi | ori | xori | lui | slli | srli | srai | lw | lh | lhu | lb
  | lbu | sw | sh | sb | dlw | dlb | dsw | dsb | beq | bne | blt | bge | bltu | bgeu | loop | jal | jalr
  | mac | msu | mta | rnd | ahi | alo | wait | prel | mfs | mts
deriving DecidableEq, Repr

/-- A field of an instruction word. -/
def rkField (w : Word) (hi lo : Nat) : Nat := bits w.toNat hi lo

/-- R format, by func. -/
def rkTableR : Table RkOp :=
  [(0x0, .add), (0x1, .sub), (0x2, .and), (0x3, .or), (0x4, .xor), (0x5, .sll), (0x6, .srl), (0x7, .sra),
   (0x8, .slt), (0x9, .sltu), (0xa, .mul), (0xb, .mulhs), (0xc, .mulhu), (0xd, .min), (0xe, .max), (0x10, .norm),
   (0x11, .expf), (0x12, .expb)]
/-- I, S and B formats, by op. -/
def rkTableI : Table RkOp :=
  [(0x1, .addi), (0x2, .slti), (0x3, .sltiu), (0x4, .andi), (0x5, .ori), (0x6, .xori), (0x7, .lui), (0x8, .slli),
   (0x9, .srli), (0xa, .srai), (0x10, .lw), (0x11, .lh), (0x12, .lhu), (0x13, .lb), (0x14, .lbu), (0x15, .sw),
   (0x16, .sh), (0x17, .sb), (0x18, .dlw), (0x19, .dlb), (0x1a, .dsw), (0x1b, .dsb), (0x20, .beq), (0x21, .bne),
   (0x22, .blt), (0x23, .bge), (0x24, .bltu), (0x25, .bgeu), (0x26, .loop), (0x27, .jal), (0x28, .jalr)]
/-- A format, by func. -/
def rkTableA : Table RkOp := [(0, .mac), (1, .msu), (2, .mta), (3, .rnd), (4, .ahi), (5, .alo)]
/-- Y format, by func. -/
def rkTableY : Table RkOp := [(0, .wait), (1, .prel), (2, .mfs), (3, .mts)]

/-- The fields that an instruction does not use are 0, and those it uses hold a value that R179, R181 allow. -/
def rkFieldsOk (op : RkOp) (w : Word) : Bool :=
  let rd := rkField w 25 21
  let ra := rkField w 20 16
  let rb := rkField w 15 11
  let rc := rkField w 10 6
  let sh := rkField w 9 5
  match op with
  | .norm => rb == 0
  | .expf | .expb => rb == 0 && rc == 0
  | .add | .sub | .and | .or | .xor | .sll | .srl | .sra | .slt | .sltu | .mul | .mulhs | .mulhu | .min | .max => rc == 0
  | .lui | .jal => ra == 0
  | .slli | .srli | .srai => rkField w 15 5 == 0
  | .loop => 1 ≤ rd && rd ≤ 15 && ra == 0
  | .mac | .msu => rd == 0 && sh == 0
  | .mta => rd == 0 && rb == 0 && sh ≤ 8
  | .rnd => ra == 0 && rb == 0
  | .ahi | .alo => ra == 0 && rb == 0 && sh == 0
  | .wait | .prel => rd == 0 && ra == 0 && rb == 0 && rc == 0
  | .mfs => ra == 0 && rb ≤ 4 && rc == 0
  | .mts => rd == 0 && rb == 0 && rc == 0
  | _ => true

/-- The instruction of a word, none where it is an illegal encoding (R180, R181, R179). -/
def rkDecode (w : Word) : Option RkOp :=
  let op := rkField w 31 26
  let found :=
    if op = 0 then tabFind rkTableR (rkField w 5 0)
    else if op = 0x30 then tabFind rkTableA (rkField w 4 0)
    else if op = 0x3F then tabFind rkTableY (rkField w 5 0)
    else tabFind rkTableI op
  match found with
  | some o => if rkFieldsOk o w then some o else none
  | none => none

/-! ### Registers (R176) -/

/-- The physical number of a register name (R176). -/
def Bank.phys (b : Bank) (r : Nat) : Nat := if r < 16 then r else 16 + (r - 16 + b.rot.toNat) % 16
/-- The value of a named register: g0 reads 0. -/
def Bank.get (b : Bank) (r : Nat) : Word := if r = 0 then 0 else tabGet 0 b.regs (b.phys r)
/-- Writes a named register: writes to g0 are discarded. -/
def Bank.set (b : Bank) (r : Nat) (v : Word) : Bank := if r = 0 then b else { b with regs := tabSet b.regs (b.phys r) v }
def Bank.acc (b : Bank) (a : Nat) : Acc := if a = 0 then b.a0 else b.a1
def Bank.setAcc (b : Bank) (a : Nat) (v : Acc) : Bank := if a = 0 then { b with a0 := v } else { b with a1 := v }
/-- The next instruction in order. -/
def Bank.next (b : Bank) : Bank := { b with pc := b.pc + 4 }

/-- The bank in use. -/
def Reckoner.bank (k : Reckoner) : Bank := if k.inShadow then k.shadow else k.main
def Reckoner.updBank (k : Reckoner) (f : Bank → Bank) : Reckoner :=
  if k.inShadow then { k with shadow := f k.shadow } else { k with main := f k.main }
def Dev.updBank (d : Dev) (n : Nat) (f : Bank → Bank) : Dev := d.updRk n fun k => k.updBank f

/-- A bit as a word. -/
def ofBit (b : Bool) : Word := if b then 1 else 0

/-- The operands of an instruction: registers by field, immediates extended. `d` is the register of the first field. -/
structure RkArgs where
  w : Word
  d : Word
  a : Word
  b : Word
  imm : Word
  uimm : Word
  rd : Nat
  ra : Nat

def rkArgs (b : Bank) (w : Word) : RkArgs :=
  { w := w, d := b.get (rkField w 25 21), a := b.get (rkField w 20 16), b := b.get (rkField w 15 11),
    imm := BitVec.ofInt 32 (signed 16 (rkField w 15 0)), uimm := BitVec.ofNat 32 (rkField w 15 0),
    rd := rkField w 25 21, ra := rkField w 20 16 }

/-! ### Faults (R185, R197) -/

/-- Base address of a core's Reckoner window and of its active instruction bank (R18, R19). -/
def rkWindow (n : Nat) : Nat := rkBase + n * 0x40000
def Reckoner.ibase (k : Reckoner) (n : Nat) : Nat := rkWindow n + if k.abank then 0x14000 else 0x10000

/-- The Reckoner stops with a cause; a pending bank swap stays pending. (DESIGN CHOICE, log entry 90) Every PATCH descriptor at the core, the one
in patch first, completes with BAD_DESCRIPTOR. -/
def Dev.rkFault (d : Dev) (n : Nat) (cause : Byte) : Dev :=
  let q := (d.core n).patchQ
  let d := d.updCore n fun c =>
    { c with patchQ := [], rk := { c.rk with mode := .faulted, cause := cause, faultPc := c.rk.bank.pc.truncate 14, inShadow := false,
                                             waiting := false } }
  q.foldl (fun d k => d.failDesc k .badDescriptor) d

/-- An uncorrectable word: in a patch it fails the descriptor and ends the patch as PREL does; otherwise it stops the Reckoner
(R197). -/
def Dev.rkGuardError (d : Dev) (n : Nat) : Dev :=
  let c := d.core n
  if c.rk.inShadow then
    let d := d.updCore n fun c => { c with rk := c.rk.leaveShadow, patchQ := c.patchQ.drop 1 }
    match c.patchQ with
    | k :: _ => d.failDesc k .hwUncorrectable
    | [] => d
  else d.rkFault n 0x10

/-- The Reckoner may issue in its present bank: it runs, is not in WAIT, and no event waits for the main bank (R189, R193). -/
def Core.rkIssues (c : Core) : Bool := c.rk.mode = .running && (c.rk.inShadow || (!c.rk.waiting && c.patchQ.isEmpty))
/-- It issues while its cluster is in P0 (R193). -/
def Dev.rkIssues (d : Dev) (n : Nat) : Bool := d.awake n && (d.core n).rkIssues

/-- A word of Reckoner memory is uncorrectable. -/
def Dev.rkBad (d : Dev) (a : Nat) : Bool := d.badWords.contains (a / 16)

/-- The word at the present PC: its address and value. -/
def Dev.rkWordAt (d : Dev) (n : Nat) : Word :=
  let k := (d.core n).rk
  BitVec.ofNat 32 (leNat (memRead d.mem (k.ibase n + k.bank.pc.toNat) 4))

/-- A PC outside the bank or misaligned (R183). -/
def badPc (pc : Word) : Bool := 0x3FFC < pc.toNat || pc.toNat % 4 != 0

/-- A fetch corrects what it can in the word at the PC (R197). -/
def Dev.rkFetch (d : Dev) (n : Nat) : Dev := let k := (d.core n).rk; d.correct (wordsOf (k.ibase n + k.bank.pc.toNat) 4)

/-- Issues the instruction at the PC if the command names what stands there; `f` is its effect. A PC past the end of the bank stops the Reckoner
when the instruction there would issue, and FAULTPC holds its low 14 bits. (DESIGN CHOICE, log entry 89) -/
def Dev.rkIssue (d : Dev) (n : Nat) (op : Option RkOp) (f : RkArgs → Dev → Dev) : Dev :=
  let c := d.core n
  if !d.rkIssues n then d
  else if badPc c.rk.bank.pc then d.rkFault n 0x03
  else if d.rkBad (c.rk.ibase n + c.rk.bank.pc.toNat) then d.rkGuardError n
  else if rkDecode (d.rkWordAt n) = op then f (rkArgs c.rk.bank (d.rkWordAt n)) (d.rkFetch n)
  else d

/-! ### Effects -/

/-- An operation that writes one register and goes on to the next instruction. -/
def rkAlu (n : Nat) (f : RkArgs → Word) (r : RkArgs) (d : Dev) : Dev := d.updBank n fun b => (b.set r.rd (f r)).next

/-- Redundant sign bits of a word: leading bits equal to bit 31, less one (R182). -/
def rkNormBits (w : Word) : Nat := ((List.range 31).takeWhile fun i => w.getLsbD (30 - i) == w.msb).length

/-- NORM (R181, R182). (DESIGN CHOICE, log entry 14) -/
def rkNorm (n : Nat) (r : RkArgs) (d : Dev) : Dev :=
  d.updBank n fun b => ((b.set r.rd (r.a <<< rkNormBits r.a)).set (rkField r.w 10 6) (BitVec.ofNat 32 (rkNormBits r.a))).next

/-- A data-memory address out of range or misaligned (R183). -/
def badDataAddr (a : Word) (size : Nat) : Bool := 0x10000 ≤ a.toNat || a.toNat % size != 0

/-- A load of `size` bytes of data memory. -/
def rkLoad (n size : Nat) (f : Nat → Word) (r : RkArgs) (d : Dev) : Dev :=
  let a := r.a + r.imm
  if badDataAddr a size then d.rkFault n 0x02
  else if d.rkBad (rkWindow n + a.toNat) then d.rkGuardError n
  else (d.correct (wordsOf (rkWindow n + a.toNat) size)).updBank n fun b => (b.set r.rd (f (leNat (memRead d.mem (rkWindow n + a.toNat) size)))).next

/-- A store of `size` bytes into data memory. In a declared input it is dropped and fails the round that declared it (R147). -/
def rkStore (n size : Nat) (r : RkArgs) (d : Dev) : Dev :=
  let a := r.a + r.imm
  if badDataAddr a size then d.rkFault n 0x02
  else
    let addr := rkWindow n + a.toNat
    let owners := d.protectors addr size
    if owners ≠ [] then (d.failInputs owners).updBank n Bank.next
    else if d.rkBad addr then d.rkGuardError n
    else
      let e := d.correct (wordsOf addr size)
      { e with mem := memWrite e.mem addr (leBytes size r.d.toNat) }.updBank n Bank.next

/-- Runs an access to the image of the descriptor in patch: shadow bank only, address in 0 to 319 (R183, R185). -/
def rkImage (n size : Nat) (r : RkArgs) (d : Dev) (f : Desc → Nat → Dev) : Dev :=
  let a := r.a + r.imm
  if !(d.core n).rk.inShadow then d.rkFault n 0x05
  else if 319 < a.toNat + size - 1 ∨ a.toNat % size ≠ 0 then d.rkFault n 0x04
  else match (d.core n).patchQ with
    | k :: _ => d.withDesc k fun x => f x a.toNat
    | [] => d

def rkImageLoad (n size : Nat) (r : RkArgs) (d : Dev) : Dev :=
  rkImage n size r d fun x a => d.updBank n fun b => (b.set r.rd (BitVec.ofNat 32 (field x.image a size))).next

def rkImageStore (n size : Nat) (r : RkArgs) (d : Dev) : Dev :=
  rkImage n size r d fun x a =>
    (d.updDesc x.key fun x => { x with image := patchBytes x.image a (leBytes size r.d.toNat) }).updBank n Bank.next

/-- A transfer of control: a target out of range or misaligned stops the Reckoner and writes no register; otherwise `link` acts on the bank and
the PC is set (R183). (DESIGN CHOICE, log entry 88) -/
def rkJump (n : Nat) (target : Word) (link : Bank → Bank) (d : Dev) : Dev :=
  if badPc target then d.rkFault n 0x03 else d.updBank n fun b => { link b with pc := target }

/-- The target of an offset in instructions from the present PC. -/
def rkTarget (d : Dev) (n : Nat) (r : RkArgs) : Word := (d.core n).rk.bank.pc + 4 * r.imm

def rkBranch (n : Nat) (c : RkArgs → Bool) (r : RkArgs) (d : Dev) : Dev :=
  if c r then rkJump n (rkTarget d n r) id d else d.updBank n Bank.next

/-- LOOP (R181): the register named before the rotation is lowered, ROT advances, and it branches while the result is not 0. -/
def rkLoop (n : Nat) (r : RkArgs) (d : Dev) : Dev :=
  let turn (b : Bank) : Bank := { b.set r.rd (r.d - 1) with rot := b.rot + 1 }
  if r.d - 1 ≠ 0 then rkJump n (rkTarget d n r) turn d else d.updBank n fun b => (turn b).next

/-- JAL: rd receives the address of the next instruction. -/
def rkJal (n : Nat) (r : RkArgs) (d : Dev) : Dev := rkJump n (rkTarget d n r) (fun b => b.set r.rd (b.pc + 4)) d
def rkJalr (n : Nat) (r : RkArgs) (d : Dev) : Dev := rkJump n (r.a + r.imm) (fun b => b.set r.rd (b.pc + 4)) d

/-- A value limited to 40 bits, setting SAT where it is limited (R182). -/
def Bank.setAccSat (b : Bank) (a : Nat) (v : Int) : Bank :=
  let c := clampInt40 v
  { b.setAcc a (BitVec.ofInt 40 c.1) with sat := b.sat || c.2 }
where
  clampInt40 (v : Int) : Int × Bool :=
    if v < -2 ^ 39 then (-2 ^ 39, true) else if 2 ^ 39 - 1 < v then (2 ^ 39 - 1, true) else (v, false)

/-- The accumulator an instruction names, and its shift. -/
def RkArgs.acc (r : RkArgs) : Nat := rkField r.w 10 10
def RkArgs.sh (r : RkArgs) : Nat := rkField r.w 9 5
/-- The product of the low halves, signed. -/
def RkArgs.prod16 (r : RkArgs) : Int := signed 16 r.a.toNat * signed 16 r.b.toNat

def rkMac (n : Nat) (sign : Int) (r : RkArgs) (d : Dev) : Dev :=
  d.updBank n fun b => (b.setAccSat r.acc ((b.acc r.acc).toInt + sign * r.prod16)).next
def rkMta (n : Nat) (r : RkArgs) (d : Dev) : Dev := d.updBank n fun b => (b.setAccSat r.acc (r.a.toInt * 2 ^ r.sh)).next
/-- RND: half to even on the bits shifted out, limited to 32 bits (R182). -/
def rkRnd (n : Nat) (r : RkArgs) (d : Dev) : Dev :=
  d.updBank n fun b =>
    let v := rneShiftInt (b.acc r.acc).toInt r.sh
    let lim : Int := if v < -2 ^ 31 then -2 ^ 31 else if 2 ^ 31 - 1 < v then 2 ^ 31 - 1 else v
    let b' := b.set r.rd (BitVec.ofInt 32 lim)
    { b' with sat := b'.sat || lim != v }.next
def rkAhi (n : Nat) (r : RkArgs) (d : Dev) : Dev :=
  d.updBank n fun b => (b.set r.rd ((b.acc r.acc).sshiftRight 32 |>.truncate 32)).next
def rkAlo (n : Nat) (r : RkArgs) (d : Dev) : Dev := d.updBank n fun b => (b.set r.rd ((b.acc r.acc).truncate 32)).next

/-- WAIT: main bank only; idle until a patch event (R181, R185). -/
def rkWait (n : Nat) (_r : RkArgs) (d : Dev) : Dev :=
  if (d.core n).rk.inShadow then d.rkFault n 0x06
  else d.updRk n fun k => { k with main := k.main.next, waiting := true }

/-- PREL: shadow bank only; the image is frozen and the bank left (R189, R190). -/
def rkPrel (n : Nat) (_r : RkArgs) (d : Dev) : Dev :=
  if !(d.core n).rk.inShadow then d.rkFault n 0x06
  else
    let d' := d.updCore n fun c =>
      { c with rk := { c.rk with shadow := c.rk.shadow.next }.leaveShadow, patchQ := c.patchQ.drop 1 }
    match (d.core n).patchQ with
    | k :: _ => d'.setStage k .frozen
    | [] => d'

/-- ST as it reads (R178). -/
def Reckoner.st (k : Reckoner) : Word :=
  BitVec.ofNat 32 (k.bank.rot.toNat * 4096 + (if k.inShadow then 2048 else 0) + (if k.abank then 1024 else 0) + if k.bank.sat then 1 else 0)

/-- A special register as it reads (R179). -/
def Dev.special (d : Dev) (n sr : Nat) : Word :=
  let c := d.core n
  let patch := if c.rk.inShadow then c.patchQ.head?.bind d.desc? else none
  match sr with
  | 0 => c.rk.st
  | 1 => BitVec.ofNat 32 n
  | 2 => BitVec.ofNat 32 d.timestamp
  | 3 => match patch with | some x => BitVec.ofNat 32 (x.key.stream * 65536 + x.key.slot) | none => 0
  | _ => match patch with | some x => x.round | none => 0

def rkMfs (n : Nat) (r : RkArgs) (d : Dev) : Dev :=
  let v := d.special n (rkField r.w 15 11)
  d.updBank n fun b => (b.set r.rd v).next
/-- MTS to ST: writes change ROT and SAT only (R179). -/
def rkMts (n : Nat) (r : RkArgs) (d : Dev) : Dev :=
  d.updBank n fun b => { b with rot := BitVec.ofNat 4 (bits r.a.toNat 15 12), sat := r.a.getLsbD 0 }.next

/-! ### The commands: one per instruction of R181 -/

/-- ADD: ADD. -/
def execAdd (core : CoreId) (s : State) : Host.Outcome State Fault Refusal :=
  s.onClock fun d => d.rkIssue core.toNat (some .add) (rkAlu core.toNat fun r => r.a + r.b)
/-- SUB: SUB. -/
def execSub (core : CoreId) (s : State) : Host.Outcome State Fault Refusal :=
  s.onClock fun d => d.rkIssue core.toNat (some .sub) (rkAlu core.toNat fun r => r.a - r.b)
/-- AND: AND. -/
def execAnd (core : CoreId) (s : State) : Host.Outcome State Fault Refusal :=
  s.onClock fun d => d.rkIssue core.toNat (some .and) (rkAlu core.toNat fun r => r.a &&& r.b)
/-- OR: OR. -/
def execOr (core : CoreId) (s : State) : Host.Outcome State Fault Refusal :=
  s.onClock fun d => d.rkIssue core.toNat (some .or) (rkAlu core.toNat fun r => r.a ||| r.b)
/-- XOR: XOR. -/
def execXor (core : CoreId) (s : State) : Host.Outcome State Fault Refusal :=
  s.onClock fun d => d.rkIssue core.toNat (some .xor) (rkAlu core.toNat fun r => r.a ^^^ r.b)
/-- SLL: shift left logical. -/
def execSll (core : CoreId) (s : State) : Host.Outcome State Fault Refusal :=
  s.onClock fun d => d.rkIssue core.toNat (some .sll) (rkAlu core.toNat fun r => r.a <<< (r.b.toNat % 32))
/-- SRL: shift right logical. -/
def execSrl (core : CoreId) (s : State) : Host.Outcome State Fault Refusal :=
  s.onClock fun d => d.rkIssue core.toNat (some .srl) (rkAlu core.toNat fun r => r.a >>> (r.b.toNat % 32))
/-- SRA: shift right arithmetic. -/
def execSra (core : CoreId) (s : State) : Host.Outcome State Fault Refusal :=
  s.onClock fun d => d.rkIssue core.toNat (some .sra) (rkAlu core.toNat fun r => r.a.sshiftRight (r.b.toNat % 32))
/-- SLT: set if less than, signed. -/
def execSlt (core : CoreId) (s : State) : Host.Outcome State Fault Refusal :=
  s.onClock fun d => d.rkIssue core.toNat (some .slt) (rkAlu core.toNat fun r => ofBit (r.a.slt r.b))
/-- SLTU: set if less than, unsigned. -/
def execSltu (core : CoreId) (s : State) : Host.Outcome State Fault Refusal :=
  s.onClock fun d => d.rkIssue core.toNat (some .sltu) (rkAlu core.toNat fun r => ofBit (r.a.ult r.b))
/-- MUL: multiply, low word. -/
def execMul (core : CoreId) (s : State) : Host.Outcome State Fault Refusal :=
  s.onClock fun d => d.rkIssue core.toNat (some .mul) (rkAlu core.toNat fun r => r.a * r.b)
/-- MULHS: multiply, high word signed. -/
def execMulhs (core : CoreId) (s : State) : Host.Outcome State Fault Refusal :=
  s.onClock fun d => d.rkIssue core.toNat (some .mulhs) (rkAlu core.toNat fun r => BitVec.ofInt 32 (r.a.toInt * r.b.toInt / 2 ^ 32))
/-- MULHU: multiply, high word unsigned. -/
def execMulhu (core : CoreId) (s : State) : Host.Outcome State Fault Refusal :=
  s.onClock fun d => d.rkIssue core.toNat (some .mulhu) (rkAlu core.toNat fun r => BitVec.ofNat 32 (r.a.toNat * r.b.toNat / 2 ^ 32))
/-- MIN: signed minimum. -/
def execMin (core : CoreId) (s : State) : Host.Outcome State Fault Refusal :=
  s.onClock fun d => d.rkIssue core.toNat (some .min) (rkAlu core.toNat fun r => if r.a.slt r.b then r.a else r.b)
/-- MAX: signed maximum. -/
def execMax (core : CoreId) (s : State) : Host.Outcome State Fault Refusal :=
  s.onClock fun d => d.rkIssue core.toNat (some .max) (rkAlu core.toNat fun r => if r.a.slt r.b then r.b else r.a)
/-- NORM: normalise. -/
def execNorm (core : CoreId) (s : State) : Host.Outcome State Fault Refusal :=
  s.onClock fun d => d.rkIssue core.toNat (some .norm) (rkNorm core.toNat)
/-- EXPF: FP32 exponent extract. -/
def execExpf (core : CoreId) (s : State) : Host.Outcome State Fault Refusal :=
  s.onClock fun d => d.rkIssue core.toNat (some .expf) (rkAlu core.toNat fun r => BitVec.ofNat 32 (bits r.a.toNat 30 23) - 127)
/-- EXPB: BF16 exponent extract. -/
def execExpb (core : CoreId) (s : State) : Host.Outcome State Fault Refusal :=
  s.onClock fun d => d.rkIssue core.toNat (some .expb) (rkAlu core.toNat fun r => BitVec.ofNat 32 (bits r.a.toNat 14 7) - 127)
/-- ADDI: add immediate. -/
def execAddi (core : CoreId) (s : State) : Host.Outcome State Fault Refusal :=
  s.onClock fun d => d.rkIssue core.toNat (some .addi) (rkAlu core.toNat fun r => r.a + r.imm)
/-- SLTI: set if less than immediate, signed. -/
def execSlti (core : CoreId) (s : State) : Host.Outcome State Fault Refusal :=
  s.onClock fun d => d.rkIssue core.toNat (some .slti) (rkAlu core.toNat fun r => ofBit (r.a.slt r.imm))
/-- SLTIU: set if less than immediate, unsigned. -/
def execSltiu (core : CoreId) (s : State) : Host.Outcome State Fault Refusal :=
  s.onClock fun d => d.rkIssue core.toNat (some .sltiu) (rkAlu core.toNat fun r => ofBit (r.a.ult r.imm))
/-- ANDI: AND immediate. -/
def execAndi (core : CoreId) (s : State) : Host.Outcome State Fault Refusal :=
  s.onClock fun d => d.rkIssue core.toNat (some .andi) (rkAlu core.toNat fun r => r.a &&& r.uimm)
/-- ORI: OR immediate. -/
def execOri (core : CoreId) (s : State) : Host.Outcome State Fault Refusal :=
  s.onClock fun d => d.rkIssue core.toNat (some .ori) (rkAlu core.toNat fun r => r.a ||| r.uimm)
/-- XORI: XOR immediate. -/
def execXori (core : CoreId) (s : State) : Host.Outcome State Fault Refusal :=
  s.onClock fun d => d.rkIssue core.toNat (some .xori) (rkAlu core.toNat fun r => r.a ^^^ r.uimm)
/-- LUI: load upper immediate. -/
def execLui (core : CoreId) (s : State) : Host.Outcome State Fault Refusal :=
  s.onClock fun d => d.rkIssue core.toNat (some .lui) (rkAlu core.toNat fun r => r.uimm <<< 16)
/-- SLLI: shift left immediate. -/
def execSlli (core : CoreId) (s : State) : Host.Outcome State Fault Refusal :=
  s.onClock fun d => d.rkIssue core.toNat (some .slli) (rkAlu core.toNat fun r => r.a <<< (r.uimm.toNat % 32))
/-- SRLI: shift right logical immediate. -/
def execSrli (core : CoreId) (s : State) : Host.Outcome State Fault Refusal :=
  s.onClock fun d => d.rkIssue core.toNat (some .srli) (rkAlu core.toNat fun r => r.a >>> (r.uimm.toNat % 32))
/-- SRAI: shift right arithmetic immediate. -/
def execSrai (core : CoreId) (s : State) : Host.Outcome State Fault Refusal :=
  s.onClock fun d => d.rkIssue core.toNat (some .srai) (rkAlu core.toNat fun r => r.a.sshiftRight (r.uimm.toNat % 32))
/-- LW: load word from data memory. -/
def execLw (core : CoreId) (s : State) : Host.Outcome State Fault Refusal :=
  s.onClock fun d => d.rkIssue core.toNat (some .lw) (rkLoad core.toNat 4 fun v => BitVec.ofNat 32 v)
/-- LH: load halfword, signed. -/
def execLh (core : CoreId) (s : State) : Host.Outcome State Fault Refusal :=
  s.onClock fun d => d.rkIssue core.toNat (some .lh) (rkLoad core.toNat 2 fun v => BitVec.ofInt 32 (signed 16 v))
/-- LHU: load halfword, unsigned. -/
def execLhu (core : CoreId) (s : State) : Host.Outcome State Fault Refusal :=
  s.onClock fun d => d.rkIssue core.toNat (some .lhu) (rkLoad core.toNat 2 fun v => BitVec.ofNat 32 v)
/-- LB: load byte, signed. -/
def execLb (core : CoreId) (s : State) : Host.Outcome State Fault Refusal :=
  s.onClock fun d => d.rkIssue core.toNat (some .lb) (rkLoad core.toNat 1 fun v => BitVec.ofInt 32 (signed 8 v))
/-- LBU: load byte, unsigned. -/
def execLbu (core : CoreId) (s : State) : Host.Outcome State Fault Refusal :=
  s.onClock fun d => d.rkIssue core.toNat (some .lbu) (rkLoad core.toNat 1 fun v => BitVec.ofNat 32 v)
/-- SW: store word. -/
def execSw (core : CoreId) (s : State) : Host.Outcome State Fault Refusal :=
  s.onClock fun d => d.rkIssue core.toNat (some .sw) (rkStore core.toNat 4)
/-- SH: store halfword. -/
def execSh (core : CoreId) (s : State) : Host.Outcome State Fault Refusal :=
  s.onClock fun d => d.rkIssue core.toNat (some .sh) (rkStore core.toNat 2)
/-- SB: store byte. -/
def execSb (core : CoreId) (s : State) : Host.Outcome State Fault Refusal :=
  s.onClock fun d => d.rkIssue core.toNat (some .sb) (rkStore core.toNat 1)
/-- DLW: load word of the patch image. -/
def execDlw (core : CoreId) (s : State) : Host.Outcome State Fault Refusal :=
  s.onClock fun d => d.rkIssue core.toNat (some .dlw) (rkImageLoad core.toNat 4)
/-- DLB: load byte of the patch image. -/
def execDlb (core : CoreId) (s : State) : Host.Outcome State Fault Refusal :=
  s.onClock fun d => d.rkIssue core.toNat (some .dlb) (rkImageLoad core.toNat 1)
/-- DSW: store word into the patch image. -/
def execDsw (core : CoreId) (s : State) : Host.Outcome State Fault Refusal :=
  s.onClock fun d => d.rkIssue core.toNat (some .dsw) (rkImageStore core.toNat 4)
/-- DSB: store byte into the patch image. -/
def execDsb (core : CoreId) (s : State) : Host.Outcome State Fault Refusal :=
  s.onClock fun d => d.rkIssue core.toNat (some .dsb) (rkImageStore core.toNat 1)
/-- BEQ: branch if equal. -/
def execBeq (core : CoreId) (s : State) : Host.Outcome State Fault Refusal :=
  s.onClock fun d => d.rkIssue core.toNat (some .beq) (rkBranch core.toNat fun r => r.d = r.a)
/-- BNE: branch if not equal. -/
def execBne (core : CoreId) (s : State) : Host.Outcome State Fault Refusal :=
  s.onClock fun d => d.rkIssue core.toNat (some .bne) (rkBranch core.toNat fun r => r.d ≠ r.a)
/-- BLT: branch if less, signed. -/
def execBlt (core : CoreId) (s : State) : Host.Outcome State Fault Refusal :=
  s.onClock fun d => d.rkIssue core.toNat (some .blt) (rkBranch core.toNat fun r => r.d.slt r.a)
/-- BGE: branch if greater or equal, signed. -/
def execBge (core : CoreId) (s : State) : Host.Outcome State Fault Refusal :=
  s.onClock fun d => d.rkIssue core.toNat (some .bge) (rkBranch core.toNat fun r => !r.d.slt r.a)
/-- BLTU: branch if less, unsigned. -/
def execBltu (core : CoreId) (s : State) : Host.Outcome State Fault Refusal :=
  s.onClock fun d => d.rkIssue core.toNat (some .bltu) (rkBranch core.toNat fun r => r.d.ult r.a)
/-- BGEU: branch if greater or equal, unsigned. -/
def execBgeu (core : CoreId) (s : State) : Host.Outcome State Fault Refusal :=
  s.onClock fun d => d.rkIssue core.toNat (some .bgeu) (rkBranch core.toNat fun r => !r.d.ult r.a)
/-- LOOP: LOOP decrements, rotates the registers and branches. -/
def execLoop (core : CoreId) (s : State) : Host.Outcome State Fault Refusal :=
  s.onClock fun d => d.rkIssue core.toNat (some .loop) (rkLoop core.toNat)
/-- JAL: jump and link. -/
def execJal (core : CoreId) (s : State) : Host.Outcome State Fault Refusal :=
  s.onClock fun d => d.rkIssue core.toNat (some .jal) (rkJal core.toNat)
/-- JALR: jump and link register. -/
def execJalr (core : CoreId) (s : State) : Host.Outcome State Fault Refusal :=
  s.onClock fun d => d.rkIssue core.toNat (some .jalr) (rkJalr core.toNat)
/-- MAC: multiply-accumulate with saturation. -/
def execMac (core : CoreId) (s : State) : Host.Outcome State Fault Refusal :=
  s.onClock fun d => d.rkIssue core.toNat (some .mac) (rkMac core.toNat 1)
/-- MSU: multiply-subtract with saturation. -/
def execMsu (core : CoreId) (s : State) : Host.Outcome State Fault Refusal :=
  s.onClock fun d => d.rkIssue core.toNat (some .msu) (rkMac core.toNat (-1))
/-- MTA: move to accumulator. -/
def execMta (core : CoreId) (s : State) : Host.Outcome State Fault Refusal :=
  s.onClock fun d => d.rkIssue core.toNat (some .mta) (rkMta core.toNat)
/-- RND: round accumulator to a register. -/
def execRnd (core : CoreId) (s : State) : Host.Outcome State Fault Refusal :=
  s.onClock fun d => d.rkIssue core.toNat (some .rnd) (rkRnd core.toNat)
/-- AHI: read accumulator high bits. -/
def execAhi (core : CoreId) (s : State) : Host.Outcome State Fault Refusal :=
  s.onClock fun d => d.rkIssue core.toNat (some .ahi) (rkAhi core.toNat)
/-- ALO: read accumulator low bits. -/
def execAlo (core : CoreId) (s : State) : Host.Outcome State Fault Refusal :=
  s.onClock fun d => d.rkIssue core.toNat (some .alo) (rkAlo core.toNat)
/-- WAIT: WAIT idles the main bank until a patch event. -/
def execWait (core : CoreId) (s : State) : Host.Outcome State Fault Refusal :=
  s.onClock fun d => d.rkIssue core.toNat (some .wait) (rkWait core.toNat)
/-- PREL: PREL releases the descriptor in patch and leaves the shadow bank. -/
def execPrel (core : CoreId) (s : State) : Host.Outcome State Fault Refusal :=
  s.onClock fun d => d.rkIssue core.toNat (some .prel) (rkPrel core.toNat)
/-- MFS: move from special register. -/
def execMfs (core : CoreId) (s : State) : Host.Outcome State Fault Refusal :=
  s.onClock fun d => d.rkIssue core.toNat (some .mfs) (rkMfs core.toNat)
/-- MTS: move to special register. -/
def execMts (core : CoreId) (s : State) : Host.Outcome State Fault Refusal :=
  s.onClock fun d => d.rkIssue core.toNat (some .mts) (rkMts core.toNat)
/-- ILLEGAL_ENCODING: a word that is no instruction faults the Reckoner with cause 0x01 (R185). -/
def execIllegalEncoding (core : CoreId) (s : State) : Host.Outcome State Fault Refusal :=
  s.onClock fun d => d.rkIssue core.toNat none fun _ d => d.rkFault core.toNat 0x01

/-! ### Patches and reloading -/

/-- PATCH_EVENT (R189): the shadow bank issues from 0x0020; a main-bank WAIT is abandoned. -/
def patchEvent (n : Nat) (d : Dev) : Dev :=
  let c := d.core n
  match c.patchQ with
  | k :: _ =>
    let ready : Bool := match d.desc? k with | some x => x.stage == .patching | none => false
    if c.rk.mode = .running ∧ !c.rk.inShadow ∧ ready ∧ d.awake n then
      (d.updRk n fun k => { k with inShadow := true, waiting := false, shadow := { k.shadow with pc := 0x20 } }).bump 0x3081 1 1
    else d
  | [] => d

def execPatchEvent (core : CoreId) (s : State) : Host.Outcome State Fault Refusal := s.onClock (patchEvent core.toNat)

/-- A pending swap takes effect: the named bank is active and the main bank resumes at 0 with its WAIT abandoned (R195). -/
def Reckoner.doSwap (k : Reckoner) : Reckoner :=
  match k.swap with
  | some b => { k with abank := b, swap := none, waiting := false, main := { k.main with pc := 0 } }
  | none => k

/-- BANK_SWAP (R195). The main bank goes on, so the cluster must be in P0 (R193). -/
def bankSwap (n : Nat) (d : Dev) : Dev :=
  let c := d.core n
  if c.rk.mode = .running ∧ c.rkIdle ∧ c.rk.swap.isSome then (d.updRk n Reckoner.doSwap).requestWake (clusterOf n) else d

def execBankSwap (core : CoreId) (s : State) : Host.Outcome State Fault Refusal := s.onClock (bankSwap core.toNat)

/-- RECKONER_STOPPED (R196): asked to stop and idle; a pending swap then takes effect at once (R195). -/
def reckonerStopped (n : Nat) (d : Dev) : Dev :=
  let c := d.core n
  if c.rk.mode = .running ∧ c.rkIdle ∧ c.rk.stopReq then
    d.updRk n fun k => { k.doSwap with mode := .stopped, stopReq := false, waiting := false }
  else d

def execReckonerStopped (core : CoreId) (s : State) : Host.Outcome State Fault Refusal := s.onClock (reckonerStopped core.toNat)

/-- A write of 1 to ReckonerRun (R196); a bank swap that was pending at a fault still is. (DESIGN CHOICE, log entry 90) -/
def reckonerStart (n : Nat) (d : Dev) : Dev :=
  if (d.core n).rk.mode = .running then d
  else
    (d.updRk n fun k =>
      { k with main := Bank.reset, shadow := Bank.reset, mode := .running, waiting := false, inShadow := false, cause := 0, faultPc := 0,
               stopReq := false }).requestWake (clusterOf n)

/-- A write of 0 to ReckonerRun (R196). -/
def reckonerStopRequest (n : Nat) (d : Dev) : Dev :=
  d.updRk n fun k => if k.mode = .running then { k with stopReq := true } else k

/-- A write to IbankSelect (R195). -/
def ibankSelect (n : Nat) (b : Bool) (d : Dev) : Dev :=
  d.updRk n fun k =>
    if k.abank = b then k
    else if k.mode = .running then { k with swap := some b }
    else { k with abank := b, swap := none }

/-- ReckonerState as it reads (R198). -/
def Core.reckonerState (c : Core) : Nat :=
  let st := match c.rk.mode with
    | .stopped => 0
    | .faulted => 4
    | .running => if c.rk.inShadow then 3 else if c.rkIdle then 2 else 1
  st * 2 ^ 24 + c.rk.cause.toNat * 2 ^ 16 + (if c.rk.swap.isSome then 2 ^ 15 else 0) + (if c.rk.abank then 2 ^ 14 else 0) + c.rk.faultPc.toNat

end Sys2Proof.Machine
end

