-- ==== Sys2Proof/Machine/Power.lean ====
section
/-! DEFINITION. Power states of the clusters, the wake ration, the power capper, temperature, and ageing (R372 to R386). -/

namespace Sys2Proof.Machine

/-! ### Limits and choice of states (R373 to R378) -/

def coresOf (c : Nat) : List Nat := (List.range 8).map fun i => 8 * c + i

/-- The Reckoner is idle or stopped (R193). (DEDUCED, log entry 37) -/
def Core.rkQuiet (k : Core) : Bool := k.rk.mode != .running || k.rkIdle

/-- No engine of the core holds work. -/
def Core.quiet (k : Core) : Bool :=
  k.rkQuiet && k.slate.job.isNone && k.array.job.isNone && k.array.next.isNone && k.array.waiting.isEmpty && k.array.flight.isEmpty && k.loadQ.isEmpty && k.patchQ.isEmpty
    && k.chainOut.isNone && k.chainIn.isEmpty && k.carryIn.isEmpty

/-- A stage in which a descriptor keeps its core's cluster busy (R373). -/
def Stage.holds (t : Stage) : Bool := t != .fetched && t != .completed

/-- A cluster is idle (R373). -/
def Dev.clusterIdle (d : Dev) (c : Nat) : Bool :=
  (coresOf c).all (fun n => (d.core n).quiet)
    && d.descs.all (fun x => !(x.stage.holds && clusterOf x.core == c))
    && (d.cluster c).waiting.isEmpty
    && d.noc.packets.all fun k => match k.body, coreOfEnd k.dest with
        | .carry t _, _ => clusterOf t.toNat != c
        | .tile _ _, some n => clusterOf n != c
        | _, some n => clusterOf n != c || !(k.op == 1 || k.op == 2)
        | _, _ => true

/-- The cluster holds a declared input or a taken buffer of an open round (R375). -/
def Dev.holdsInput (d : Dev) (c : Nat) : Bool :=
  (d.rounds.any fun r => r.inputs.any fun i =>
      overlaps i.1 i.2 (scratchBase + c * 0x1000000) (d.scratchSize c) ||
      (coresOf c).any fun n => overlaps i.1 i.2 (tileBase + n * 0x200000) 0x100000) ||
  (coresOf c).any fun n => (d.core n).rings.any fun g => g.2.held.any fun h => h.holder.protects?.isSome

/-- C3 of a cluster would keep tile memory and scratch (R375). -/
def Dev.retains (d : Dev) (c : Nat) : Bool := d.objNat 0x4160 2 != 0 || d.holdsInput c

/-- Deepest state that R375 allows. -/
def Dev.stateLimit (d : Dev) (c : Nat) : Nat :=
  let a := if d.usesCluster c then 1 else 3
  let b := if (coresOf c).any fun n => (d.core n).beam.any fun r => r.2.owner.isSome then 2 else 3
  min (min a b) (d.objNat 0x4160 1)

/-- Exit time in ns (R372). -/
def exitNs (state : Nat) (retained : Bool) : Nat :=
  if state = 0 then 0 else if state = 1 then 40 else if state = 2 then 4000 else if retained then 170000 else 176000

/-- T_c of R376, ns. -/
def Dev.tolerance (d : Dev) (c : Nat) : Nat :=
  let maps := d.obj 0x4160 3
  ((d.streams.filter fun e => e.2.enable && bit (field maps (2 * e.1) 2) c).map fun e => e.2.tolerance.toNat).foldl min 0xFFFFFFFF

/-- k_c of R376. -/
def Dev.rankOf (d : Dev) (c : Nat) : Nat :=
  ((List.range 16).filter fun q => d.tolerance q < d.tolerance c || (d.tolerance q == d.tolerance c && q < c)).length

/-- `n` slots of the wake ration last at most `ns`: n * 40 A / WakeRation in exact arithmetic (R376, R379). -/
def Dev.slotsWithin (d : Dev) (n ns : Nat) : Bool :=
  match decodeFloat fp32 (d.objNat 0x2160 2) with
  | .fin _ m e => if e < 0 then n * 40000 * 2 ^ (-e).toNat ≤ ns * m else n * 40000 ≤ ns * m * 2 ^ e.toNat
  | _ => false

/-- The test of R376 for a state. -/
def Dev.stateFits (d : Dev) (c st : Nat) : Bool :=
  let x := exitNs st (d.retains c)
  st == 0 || (x ≤ d.tolerance c && d.slotsWithin (d.rankOf c + 1) (d.tolerance c - x))

/-- The chosen state of R376. -/
def Dev.chosenState (d : Dev) (c : Nat) : Nat :=
  ((List.range (d.stateLimit c + 1)).filter fun st => d.stateFits c st).foldl max 0

/-- The choices of a cluster are recomputed (R376). -/
def Dev.choose (d : Dev) (c : Nat) : Dev := d.updCluster c fun k => { k with chosen := d.chosenState c, rank := d.rankOf c }

/-- R378: the choices are recomputed, and every cluster too deep for its choice is woken. -/
def stateRecompute (d : Dev) : Dev :=
  let d1 := (List.range 16).foldl Dev.choose d
  (List.range 16).foldl (fun d c => if (d.cluster c).chosen < (d.cluster c).state then d.requestWake c else d) d1

/-- An idle time has reached the hold time of a state (R373). CK_CORE cycles last 5/8 or 5/7 ns on average. -/
def heldLong (st idleNs : Nat) : Bool :=
  if st = 1 then (if Config.gradeA16 then 160 ≤ idleNs else 1280 ≤ 7 * idleNs)
  else if st = 2 then 40000 ≤ idleNs
  else 4000000 ≤ idleNs

/-- A cluster enters a state (R207, R372). In C3 the beams of its cores lose their contents. -/
def Dev.enterState (d : Dev) (c st : Nat) : Dev :=
  let keep := d.retains c
  let d1 := d.updCluster c fun k =>
    { k with state := st, noRetention := st = 3 && !keep, cache := if 2 ≤ st then [] else k.cache, fills := if 2 ≤ st then [] else k.fills,
             cacheErrors := if 2 ≤ st then [] else k.cacheErrors, wake := false, granted := false }
  if st = 3 then
    let d2 := (coresOf c).foldl (fun d n => d.updCore n fun k => { k with beam := [], beamLost := some (d1.draws + n % 8) }) d1
    { d2 with draws := d2.draws + 8 }
  else d1

/-- STATE_ENTRY (R373, R376): an idle cluster past the hold time enters its chosen state. (DEDUCED, log entry 35) -/
def stateEntry (c idleNs : Nat) (d : Dev) : Dev :=
  let d1 := d.choose c
  let st := (d1.cluster c).chosen
  if d1.clusterIdle c ∧ (d1.cluster c).state < st ∧ heldLong st idleNs ∧ !(d1.cluster c).wake then d1.enterState c st else d1

/-! ### Wakes (R374, R377, R379) -/

/-- One slot per T_slot; pending wakes take slots in ascending rank. -/
def wakeSlotGrant (c sinceLastNs : Nat) (d : Dev) : Dev :=
  let k := d.cluster c
  let first := (List.range 16).all fun q => let w := d.cluster q; !(w.wake && !w.granted) || d.rankOf c ≤ d.rankOf q
  if k.wake ∧ !k.granted ∧ k.state ≠ 0 ∧ first ∧ d.slotsWithin 1 sinceLastNs then d.updCluster c fun k => { k with granted := true } else d

/-- The exit of a woken cluster ends: it is in P0. Without retention its tile memories and scratch read as zero (R372). -/
def Dev.wakeDone (d : Dev) (c : Nat) : Dev :=
  let k := d.cluster c
  let d1 := d.updCluster c fun k => { k with state := 0, wake := false, granted := false, noRetention := false }
  if k.noRetention then
    let d2 := (coresOf c).foldl (fun d n => d.zeroRange (tileBase + n * 0x200000) (tileBase + n * 0x200000 + 0x100000)) d1
    d2.zeroRange (scratchBase + c * 0x1000000) (scratchBase + c * 0x1000000 + 0x1000000)
  else d1

/-! ### Power capper and temperature (R380, R381) -/

/-- A 1 µs sample above 125 % of PowerCap limits every allowance to 8 at once. -/
def capSample (milliWatts averageMw : Nat) (d : Dev) : Dev :=
  let d1 : Dev := { d with power := { d.power with sample := milliWatts, average := averageMw } }
  if d.objNat 0x2160 3 * 1250 < milliWatts then
    (List.range 16).foldl (fun d c => d.updCluster c fun k => { k with capAllowance := min 8 k.capAllowance }) d1
  else d1

/-- One 10 µs step of both allowances of a cluster. (DEDUCED, log entry 35) -/
def allowanceStep (c : Nat) (celsius : Int) (d : Dev) : Dev :=
  let cap := d.objNat 0x2160 3 * 1000
  d.updCluster c fun k =>
    let cooling := 100 ≤ celsius || (k.cooling && 98 < celsius)
    { k with
      celsius := celsius, cooling := cooling
      capAllowance := if cap < d.power.average then max 1 (k.capAllowance - 1)
        else if d.power.average * 100 < 98 * cap then min 16 (k.capAllowance + 1) else k.capAllowance
      allowance := if cooling then max 1 (k.allowance - 1) else min 16 (k.allowance + 1) }

/-- Thermal allowance in force. -/
def Cluster.thermal (k : Cluster) : Nat := if 105 ≤ k.celsius then 0 else k.allowance
/-- Release allowance in force: the lower rules (R381). -/
def Cluster.release (k : Cluster) : Nat := min k.capAllowance k.thermal

/-- The engines of a core may work: P0, below 105 °C. -/
def Dev.engineOk (d : Dev) (core : Nat) : Bool := let k := d.cluster (clusterOf core); k.state == 0 && k.thermal != 0

/-- THERMAL_TRIP (R381, R417): at 110 °C every clock stops, the output is asserted, HBM contents are lost. -/
def thermalTrip (c : Nat) (celsius : Int) (d : Dev) : Dev :=
  if celsius < 110 ∨ !d.pins.powered then d
  else
    let d1 := (d.updCluster c fun k => { k with celsius := celsius }).zeroRange 0 0x4800000000
    { d1 with pins := { d1.pins with thermTrip := true, clocks := false, oscillator := false, pllLocked := false, doneReleased := false } }

/-! ### Ageing (R382 to R385) -/

/-- A measurement of a cluster. -/
def Dev.measure (d : Dev) (c : Nat) (obs : Margin) (forced : Bool) : Dev :=
  d.updCluster c fun k =>
    { k with slack := obs.slack, slackLow := obs.slackLow, ringOsc := obs.ringOsc, forced := forced, measurements := k.measurements + 1,
             firstTime := if k.measurements = 0 then d.timestamp else k.firstTime }

/-- MARGIN_MEASUREMENT (R382): idle in P0 or C1 for 10 µs. -/
def marginMeasurement (c idleNs : Nat) (obs : Margin) (d : Dev) : Dev :=
  if d.clusterIdle c ∧ (d.cluster c).state ≤ 1 ∧ 10000 ≤ idleNs then d.measure c obs false else d

/-- FORCED_MEASUREMENT (R382): MeasureInterval hours without one. -/
def forcedMeasurement (c sinceHours : Nat) (obs : Margin) (d : Dev) : Dev :=
  if d.power.interval ≤ sinceHours then (d.measure c obs true).bump 0x3161 2 1 else d

/-- ⌈a / b⌉ for positive b. -/
def ceilInt (a b : Int) : Int := -((-a) / b)

/-- need[c] of R383 in mV as a fraction with a positive denominator. (DESIGN CHOICE, log entry 21) -/
def Dev.needOf (d : Dev) (c : Nat) : Int × Int :=
  let k := d.cluster c
  let v : Int := d.power.setpoint + k.trim
  let g := k.slack - k.slackLow
  let t : Int := d.objNat 0x4161 1
  if g = 0 then (Config.needWithoutSlope v t k.slack, 1)
  else
    let num := v * g + (t - k.slack) * 20
    if g < 0 then (-num, -g) else (num, g)

/-- REPLAN (R383). Clusters without a measurement keep their trims. When Vb falls the trims change first, when it rises they wait for
the setpoint. (DESIGN CHOICE, log entry 36) -/
def replan (d : Dev) : Dev :=
  let cs := (List.range 16).filter fun c => (d.cluster c).measurements ≠ 0
  if cs = [] then d
  else
    let top := cs.foldl (fun m c => let n := d.needOf c; max m (5 * ceilInt (n.1 - 50 * n.2) (5 * n.2))) 650
    let vb := min 850 top
    let trimOf (c : Nat) : Int := let n := d.needOf c; max (-50) (min 50 (5 * ceilInt (n.1 - vb * n.2) (5 * n.2)))
    let limitOf (c : Nat) : Bool := let n := d.needOf c; (vb + trimOf c) * n.2 < n.1
    let trims : Table Int := cs.map fun c => (c, trimOf c)
    let d1 := cs.foldl (fun e c => e.updCluster c fun k => { k with limit := limitOf c }) d
    let w : Power := { d1.power with target := vb.toNat, newTrims := trims, tries := 0, replanTime := d.timestamp, bus := d.objNat 0x4161 2,
                                     interval := d.objNat 0x4161 4 }
    let d2 : Dev := { d1 with power := w }
    if d.power.setpoint < vb.toNat then d2
    else
      let d3 := trims.foldl (fun e t => e.updCluster t.1 fun k => { k with trim := t.2 }) d2
      { d3 with power := { d3.power with newTrims := [] } }

/-- SETPOINT_STEP (R383, R384): one 5 mV step toward the target. A write not acknowledged is repeated twice; then setpoint and trims
stay and the failure is flagged. Without a regulator bus no write is made. (DESIGN CHOICE, log entry 36) -/
def setpointStep (acked : Bool) (d : Dev) : Dev :=
  let w := d.power
  if w.setpoint = w.target then d
  else if acked ∨ w.bus = 0 then
    let sp := if w.setpoint < w.target then min w.target (w.setpoint + 5) else max w.target (w.setpoint - 5)
    let d1 : Dev := { d with power := { w with setpoint := sp, tries := 0, writeFailed := false } }
    if sp = w.target then
      let d2 := w.newTrims.foldl (fun e t => e.updCluster t.1 fun k => { k with trim := t.2 }) d1
      { d2 with power := { d2.power with newTrims := [] } }
    else d1
  else if w.tries < 2 then { d with power := { w with tries := w.tries + 1 } }
  else { d with power := { w with tries := 0, writeFailed := true, target := w.setpoint, newTrims := [] } }

/-- MarginReport (R385). (DESIGN CHOICE, log entry 22) -/
def Dev.marginReport (d : Dev) : List Byte :=
  let w := d.power
  let anyLimit := (List.range 16).any fun c => (d.cluster c).limit
  let entry (c : Nat) : List Byte :=
    let k := d.cluster c
    leBytes 2 (unsigned 16 k.slack) ++ leBytes 1 (unsigned 8 k.trim) ++ leBytes 1 ((if k.limit then 1 else 0) + if k.forced then 2 else 0)
      ++ leBytes 4 k.ringOsc
      ++ leBytes 4 (if k.measurements < 3 then 0xFFFFFFFF else (Config.predictedLife c k.slack k.measurements).toNat)
      ++ leBytes 4 (if k.measurements = 0 then 0 else (d.timestamp - k.firstTime) / 3600000000000)
  leBytes 2 w.setpoint ++ leBytes 1 ((if anyLimit then 1 else 0) + if w.writeFailed then 2 else 0) ++ leBytes 5 0 ++ leBytes 8 w.replanTime
    ++ (List.range 16).flatMap entry

/-- ClusterStates (R386) and ClusterTemp (R381, R387). -/
def Dev.clusterStates (d : Dev) : List Byte :=
  (List.range 16).map fun c => let k := d.cluster c; BitVec.ofNat 8 (k.state * 64 + k.chosen * 16 + k.rank)
def Dev.clusterTemps (d : Dev) : List Byte := (List.range 16).map fun c => BitVec.ofInt 8 (d.cluster c).celsius

/-! ### The commands -/

/-- STATE_ENTRY (R373). -/
def execStateEntry (cluster : ClusterId) (idleNs : Nat) (s : State) : Host.Outcome State Fault Refusal :=
  s.onClock (stateEntry cluster.toNat idleNs)
/-- WAKE_REQUEST (R374). -/
def execWakeRequest (cluster : ClusterId) (s : State) : Host.Outcome State Fault Refusal := s.onClock fun d => d.requestWake cluster.toNat
/-- WAKE_SLOT_GRANT (R379). -/
def execWakeSlotGrant (cluster : ClusterId) (sinceLastNs : Nat) (s : State) : Host.Outcome State Fault Refusal :=
  s.onClock (wakeSlotGrant cluster.toNat sinceLastNs)
/-- STATE_RECOMPUTE (R378). -/
def execStateRecompute (s : State) : Host.Outcome State Fault Refusal := s.onClock stateRecompute
/-- CAP_SAMPLE (R380). -/
def execCapSample (milliWatts averageMw : Nat) (s : State) : Host.Outcome State Fault Refusal := s.onClock (capSample milliWatts averageMw)
/-- ALLOWANCE_STEP (R380, R381). -/
def execAllowanceStep (cluster : ClusterId) (celsius : Int) (s : State) : Host.Outcome State Fault Refusal :=
  s.onClock (allowanceStep cluster.toNat celsius)
/-- THERMAL_TRIP (R381). -/
def execThermalTrip (cluster : ClusterId) (celsius : Int) (s : State) : Host.Outcome State Fault Refusal :=
  s.onDev (thermalTrip cluster.toNat celsius)
/-- MARGIN_MEASUREMENT (R382). -/
def execMarginMeasurement (cluster : ClusterId) (idleNs : Nat) (obs : Margin) (s : State) : Host.Outcome State Fault Refusal :=
  s.onClock (marginMeasurement cluster.toNat idleNs obs)
/-- FORCED_MEASUREMENT (R382). -/
def execForcedMeasurement (cluster : ClusterId) (sinceHours : Nat) (obs : Margin) (s : State) : Host.Outcome State Fault Refusal :=
  s.onClock (forcedMeasurement cluster.toNat sinceHours obs)
/-- REPLAN (R383). -/
def execReplan (s : State) : Host.Outcome State Fault Refusal := s.onClock replan
/-- SETPOINT_STEP (R383, R384). -/
def execSetpointStep (acked : Bool) (s : State) : Host.Outcome State Fault Refusal := s.onClock (setpointStep acked)

end Sys2Proof.Machine
end

