-- ==== Sys2Proof/Machine/Dict.lean ====
section
/-! DEFINITION. The object dictionary: what every object reads (R349), the checks and effects of writes, staging and commit (R354),
profiles (R356) and abort codes (R357, R358). -/

namespace Sys2Proof.Machine

/-! ### Abort codes (R357) -/

def abNoObject : Nat := 0x01000001
def abReadOnly : Nat := 0x01000002
def abWriteOnly : Nat := 0x01000003
def abLength : Nat := 0x01000004
def abRange : Nat := 0x01000005
def abState : Nat := 0x01000006
def abInconsistent (g s : Nat) : Nat := 0x02000000 + g * 256 + s
def abTransport : Nat := 0x03000001
def abSecurity : Nat := 0x03000002
def abTimeout : Nat := 0x04000001
def abSequence : Nat := 0x04000002
def abBusy : Nat := 0x04000003
def abCommand : Nat := 0x04000004
def abHardware : Nat := 0x06000001

/-- The numerically lowest of several causes (R358). -/
def lowest : List Nat → Option Nat
  | [] => none
  | c :: t => some (t.foldl min c)

/-- A cause where a condition holds. -/
def cause (b : Bool) (code : Nat) : List Nat := if b then [code] else []

/-! ### Values -/

/-- Any round is open. -/
def Dev.anyOpen (d : Dev) : Bool := !d.rounds.isEmpty

/-- Staging copy of a field (R354). -/
def Dev.staged (d : Dev) (i s : Nat) : List Byte := (tabFind d.staging (okey i s)).getD (d.obj i s)

/-- Commit reads 1 while the staging copy differs from the values in force (R354). -/
def Dev.differs (d : Dev) (g : Nat) : Bool := d.staging.any fun e => e.1 / 256 == g && e.2 != objIn d.objs g (e.1 % 256)

/-- An initiator record (R238). -/
def Dev.statBytes (d : Dev) (k : Nat) : List Byte :=
  match tabFind d.noc.stats k with
  | some r => leBytes 8 r.read ++ leBytes 8 r.written ++ (List.range 16).flatMap fun i => leBytes 4 (tabGet 0 r.bins i)
  | none => List.replicate 80 0

/-- A beam row as it stands: after C3 its contents are free values (R73, R372). -/
def Core.beamRow (c : Core) (r : Nat) : BeamRow :=
  match tabFind c.beam r with
  | some b => b
  | none =>
    match c.beamLost with
    | none => BeamRow.reset
    | some k =>
      let t := Config.lostBeamKind k r
      { BeamRow.reset with isInt := t.1, tag := t.2, vals := (List.range 64).map fun i => Config.lostBeam k r i }

/-- BeamView and BeamTags (R97). -/
def Core.beamView (c : Core) : List Byte := (List.range 2048).flatMap fun r => (c.beamRow r).vals.flatMap fun w => leBytes 4 w.toNat
def Core.beamTags (c : Core) : List Byte := (List.range 2048).map fun r => BitVec.ofNat 8 (c.beamRow r).tag

/-- RingState (R174). -/
def Dev.ringState (d : Dev) (n : Nat) : List Byte :=
  (List.range 16).flatMap fun q =>
    let g := d.ring n q
    leBytes 1 g.queue.length ++ leBytes 1 (d.freeBufs n q).length
      ++ leBytes 1 (g.held.filter fun h => h.holder.protects?.isSome).length ++ [0]

/-- The sum of R389. -/
def Dev.correctedTotal (d : Dev) : Nat :=
  ([(0x3030, 3), (0x3040, 4), (0x3050, 2), (0x3081, 4), (0x3090, 1), (0x3090, 2), (0x3090, 3), (0x3410, 1), (0x3100, 1), (0x3100, 2),
    (0x3121, 1), (0x3121, 2), (0x3150, 1), (0x3150, 4)].map fun o => d.count o.1 o.2).foldl (· + ·) 0

/-- KeyCheck of one key (R323). -/
def keyCheck (k : Option (List Byte)) : List Byte :=
  match k with
  | some key => slice (aesEncrypt key (List.replicate 16 0)) 0 4
  | none => leBytes 4 0

/-- FuseSecurity (R324). -/
def Fuses.word (fz : Fuses) : List Byte := leBytes 4 fz.security.toNat

/-- PartitionTable (R333). -/
def Dev.partitionTable (d : Dev) : List Byte :=
  (List.range 16).flatMap fun p =>
    match tabFind d.cfg.design.partitions p with
    | some x =>
      if p = 0 then List.replicate 16 0
      else [1] ++ leBytes 1 x.die ++ leBytes 1 x.region ++ leBytes 1 x.colLo ++ leBytes 1 x.colHi ++ [x.bankMask, x.portMask, 0]
        ++ leBytes 8 (tabGet 0 d.cfg.designIds p).toNat
    | none => List.replicate 16 0

/-- ConfigStatus (R348). -/
def Dev.configStatus (d : Dev) : Nat :=
  d.cfg.state * 2 ^ 24 + d.cfg.result * 2 ^ 16 + d.pins.straps.cfgMode.toNat * 2 ^ 8 + d.cfg.phase * 2 ^ 4 + if d.cfg.fallback then 8 else 0

/-- A table of bytes, `n` of them. -/
def tableBytes (t : Table Byte) (n : Nat) : List Byte := (List.range n).map fun i => tabGet 0 t i

/-- What an object that lies in no table reads; none for one that does. -/
def Dev.computed (fz : Fuses) (d : Dev) (i s : Nat) : Option (List Byte) :=
  match i with
  | 0x1000 =>
    match s with
    | 1 => some [0x55, 0x72, 0x6E, 0x65, 0x61, 0x6E]
    | 2 => some [0x44, 0x58, 0x38]
    | 3 => some [if Config.gradeA16 then 0x16 else 0x14]
    | 4 => some (leBytes 2 Config.siliconStep.toNat)
    | 5 => some (leBytes 8 Config.serialNumber.toNat)
    | _ => none
  | 0x1020 => some (leBytes 8 d.dict.lastAbort.toNat)
  | 0x1120 => if s = 1 then some (leBytes 1 d.pins.straps.mgtAddr.toNat) else none
  | 0x3080 => some (leBytes 4 (d.core (s - 1)).reckonerState)
  | 0x3100 => if s = 4 then some (tableBytes d.noc.health 52) else none
  | 0x3101 => some (d.statBytes (3 * (s - 1)) ++ d.statBytes (3 * (s - 1) + 1) ++ d.statBytes (3 * (s - 1) + 2))
  | 0x3102 => some (d.statBytes (384 + (s - 1)))
  | 0x3103 => some (d.statBytes (400 + (s - 1)))
  | 0x3111 => some ((List.range 4096).map fun n => let t := d.nodeState (BitVec.ofNat 12 n); BitVec.ofNat 8 (t.1 * 32 + t.2))
  | 0x3120 => some (leBytes 8 (d.portStatus (s - 1)))
  | 0x3130 =>
    match s with
    | 1 => some ((List.range 256).map fun k => BitVec.ofNat 8 (tabGet 0 d.cfg.design.claims k))
    | 2 => some ((List.range 32).map fun k => BitVec.ofNat 8 (tabGet 0 d.cfg.design.clockDiv k))
    | _ => none
  | 0x3140 =>
    match s with
    | 1 => some (leBytes 4 d.configStatus)
    | 2 => some fz.word
    | 3 => some (keyCheck fz.efuseKey ++ keyCheck d.bbramKey)
    | 4 => some d.partitionTable
    | 5 => some ((List.range 16).map fun p => let r := d.regionState p; BitVec.ofNat 8 (r.1 * 16 + r.2))
    | 6 => some (leBytes 1 d.cfg.loadResult)
    | _ => none
  | 0x3150 =>
    match s with
    | 5 => some (d.cfg.scrubLog.flatMap fun e => leBytes 4 e.frame ++ leBytes 1 e.word ++ leBytes 1 e.partition ++ leBytes 2 0 ++ leBytes 8 e.time)
    | 6 => some (leBytes 4 (d.cfg.frames.filter fun e => e.2.bad).length)
    | _ => none
  | 0x3160 =>
    match s with
    | 1 => some d.clusterStates
    | 4 => some (leBytes 2 (d.power.average / 1000))
    | 5 => some d.clusterTemps
    | 6 => some (leBytes 1 d.pins.resetCause)
    | _ => none
  | 0x3161 => if s = 1 then some d.marginReport else none
  | 0x3170 =>
    match s with
    | 3 => some (leBytes 8 d.correctedTotal)
    | 5 => some (leBytes 1 ((if d.tally.stuck1 then 1 else 0) + if d.tally.stuck0 then 2 else 0))
    | 6 => some (d.faultLog.flatMap fun e => leBytes 4 e.round.toNat ++ leBytes 1 e.status.code ++ leBytes 1 e.attempt ++ leBytes 1 e.outcome
        ++ [0] ++ leBytes 8 e.time)
    | _ => none
  | 0x3410 =>
    match s with
    | 3 => some (d.hbm.log.flatMap fun e => leBytes 8 e.addr ++ leBytes 1 e.pc ++ leBytes 1 e.source ++ leBytes 6 e.time)
    | 5 => some (tableBytes d.hbm.temps 8)
    | 6 => some [if d.hbm.mapLocked then 1 else 0]
    | 7 => some ((List.range 32).map fun k => BitVec.ofNat 8 ((List.range 8).foldl (fun n b => if d.hbm.failed.contains (8 * k + b) then n + 2 ^ b else n) 0))
    | _ => none
  | 0x7030 => some ((List.range 4).map fun k => match Config.repairMap (s - 1) k with | some r => r.zeroExtend 8 | none => 0xFF)
  | 0x7040 => some (d.core (s - 1)).beamView
  | 0x7041 => some (d.core (s - 1)).beamTags
  | 0x7042 => some (leBytes 1 (d.core (s - 1)).halt)
  | 0x7060 => some d.deadlockRecord
  | 0x7070 => some (d.ringState (s - 1))
  | 0x7103 => some (d.noc.trace.flatMap fun e => leBytes 16 e.control.toNat ++ leBytes 8 e.cycle ++ leBytes 1 e.probe ++ leBytes 7 0)
  | 0x7121 => some (leBytes 4 (d.lane (s - 1)).testErrors)
  | 0x7140 => if s = 2 then some (tabGet Frame.clear d.cfg.frames (d.objNat 0x7140 1 % 2 ^ 18)).bytes else none
  | _ => none

/-- A listed object's value: computed, a counter, or held in the table. A Commit subindex tells whether its staging copy differs. -/
def Dev.objValue (fz : Fuses) (d : Dev) (i s : Nat) (info : OInfo) : List Byte :=
  if s = 0 ∧ i ∈ groups then [if d.differs i then 1 else 0]
  else match d.computed fz i s with
    | some v => v
    | none =>
      match info.access, info.type with
      | .ro, .unsigned n => leBytes n (d.count i s)
      | _, _ => d.obj i s

/-- The rights of a transport (R362): 0 none, 1 read only, 2 read and write. -/
def Dev.rights (d : Dev) (via : Transport) : Nat :=
  match via with
  | .saeri _ => d.objNat 0x1130 1
  | _ => 2

/-- The die that an object's function lies on (R13, R14): by core, cluster, port, lane or frame; all else is on die 0. (DESIGN CHOICE, log entry 98) -/
def Dev.objDie (d : Dev) (i s : Nat) : Nat :=
  match i with
  | 0x2080 | 0x2081 | 0x3080 | 0x3101 | 0x4071 | 0x7030 | 0x7040 | 0x7041 | 0x7042 | 0x7070 | 0x2121 | 0x7120 | 0x7121 | 0x4120 => (s - 1) / 64 % 2
  | 0x3102 | 0x2120 | 0x3120 | 0x4090 => (s - 1) / 8 % 2
  | 0x3103 => if s ≤ 16 then (s - 1) / 8 else 0
  | 0x7140 => if s = 2 then frameDie (d.objNat 0x7140 1) else 0
  | _ => 0

/-- An access to an object of die 1 crosses the seam (R14, R353). -/
def Dev.overSeam (d : Dev) (write : Bool) (i s n : Nat) : Dev := (d.seam 418 write (d.objDie i s) n).2
/-- Where no link of the seam carries it, the access is refused. (DESIGN CHOICE, log entry 98) -/
def Dev.seamCauses (d : Dev) (i s : Nat) : List Nat := cause (!(d.seam 418 false (d.objDie i s) 1).1) abHardware

/-- Why an owning rule refuses a read (R97, R346), or the storage (R357). (DESIGN CHOICE, log entry 102) -/
def Dev.readCauses (fz : Fuses) (d : Dev) (i s : Nat) : List Nat :=
  cause (d.badObjs.contains (okey i s)) abHardware ++
  match i with
  | 0x7040 | 0x7041 => cause ((d.core (s - 1)).halt != 2) abState
  | 0x7140 =>
    let f := d.objNat 0x7140 1
    if s = 2 then
      cause (!(f < 2 ^ 18 && frameValid f)) abState ++ cause d.cfg.fullEncrypted abState
        ++ cause ((tabGet Frame.clear d.cfg.frames (f % 2 ^ 18)).encrypted || d.cfg.encryptedParts.contains (d.frameOwner (f % 2 ^ 18))) abState
        ++ cause (fz.security.getLsbD 1) abSecurity
    else []
  | _ => []

/-- A read of an object (R349): its value, or the abort code. `stg` asks for the staging copy (R363). -/
def Dev.objRead (fz : Fuses) (d : Dev) (via : Transport) (i s : Nat) (stg : Bool) : Except Nat (List Byte) :=
  match objInfo i s with
  | none => .error abNoObject
  | some info =>
    match lowest (cause (info.access = .wo) abWriteOnly ++ d.readCauses fz i s ++ d.seamCauses i s ++ cause (d.rights via < 1) abTransport) with
    | some c => .error c
    | none => .ok (if stg ∧ info.access = .staged then d.staged i s else d.objValue fz i s info)

/-! ### Commit checks (R354, R357) -/

/-- A counted list of distinct numbers: count byte(s) of `w`, entries of `w'` bytes, whole length. -/
def listOk (v : List Byte) (w w' : Nat) (okCount okItem : Nat → Bool) : Bool :=
  let m := field v 0 w
  let items := (List.range m).map fun k => field v (w + w' * k) w'
  v.length == w + w' * m && okCount m && items.all okItem && decide items.Nodup

/-- HandleRings of one core (R162). -/
def ringsOk (v : List Byte) : Bool :=
  let rs := (List.range 16).map fun q => (field v (8 * q) 8, ringCfgOf v q)
  let one (e : Nat × RingCfg) : Bool :=
    bits e.1 63 57 == 0 && bits e.1 51 44 == 0 && bits e.1 31 20 == 0 && e.2.count ≤ 8 && e.2.base % 256 == 0
      && e.2.base + e.2.count * e.2.size ≤ 0x100000
  let pairs := (List.range 16).all fun a => (List.range a).all fun b =>
    let x := ringCfgOf v a
    let y := ringCfgOf v b
    x.count == 0 || y.count == 0 || !overlaps x.base (x.count * x.size) y.base (y.count * y.size)
  v.length == 128 && rs.all one && pairs

/-- A Topology string (R252) for a device with this node ID. (DEDUCED, log entry 33) -/
def topologyOk (v : List Byte) (self : Nat) : Bool :=
  let t := topoOf v
  let n := t.nodes.length
  v.length == 3 + 4 * n && t.kind ≤ 3 &&
    ((t.kind == 0 && n == 0) ||
      (1 ≤ n && n ≤ 4095 && decide (t.nodes.map (·.1)).Nodup && (t.pos? self).isSome &&
        (t.kind != 3 ||
          ((t.nodes.filter fun e => e.2 == 0xFFFF).length == 1 && t.nodes.all (fun e => e.2 == 0xFFFF || e.2 < n)
            && (List.range n).all fun p => (t.ancestors n p).any fun q => ((t.nodes[q]?).map (·.2)) == some 0xFFFF))))

/-- PortRole names neighbours only (R252). -/
def portRoleOk (v : List Byte) (t : Topo) (self : Nat) : Bool :=
  let n := t.nodes.length
  v.length == 32 && (List.range 16).all fun p =>
    let r := roleOf v p
    r == 0xFFFF || match t.pos? self with
      | none => false
      | some s =>
        r < n && r != s && (if t.kind = 1 then r == s + 1 || r + 1 == s
          else if t.kind = 2 then r == (s + 1) % n || s == (r + 1) % n
          else t.kind == 3 && (((t.nodes[s]?).map (·.2)) == some r || ((t.nodes[r]?).map (·.2)) == some s))

/-- Every listed node that has not departed is within the path budget (R255, R267). -/
def budgetOk (t : Topo) (gone : NodeId → Bool) (self budget : Nat) : Bool :=
  let out (p : Nat) : Bool := gone (BitVec.ofNat 12 (t.nodeAt p))
  t.kind == 0 || match t.pos? self with
    | none => false
    | some s => (List.range t.nodes.length).all fun p => out p ||
        match t.route out s p with
        | some l => l.length * 96 ≤ budget
        | none => false

/-- A field of a group fails its owning rule's check: `val` gives the values to be committed (R47, R61, R89, R94, R162, R170, R206,
R222, R241, R252, R255, R257, R261, R263, R276, R307, R315, R348, R387). -/
def Dev.fieldBad (d : Dev) (g s : Nat) (val : Nat → Nat → List Byte) : Bool :=
  let v := val g s
  let n := leNat v
  let self := d.objNat 0x1110 1
  let topo := topoOf (d.obj 0x4111 1)
  let known (k : Nat) : Bool := (topo.pos? k).isSome
  match g with
  | 0x4020 | 0x4040 | 0x4070 => 1 < n
  | 0x4031 => !listOk v 1 1 (· ≤ 32) (· ≤ 127)
  | 0x4041 => !listOk v 1 1 (fun m => m != 1 && m ≤ 128) (· ≤ 127)
  | 0x4071 => v != d.obj g s && !ringsOk v
  | 0x4090 => 8 < n
  | 0x4100 => n < 1 || 15 < n
  | 0x4111 =>
    if s = 1 then !topologyOk v self || (topologyOk v self && !budgetOk (topoOf v) (d.stillGone (topoOf v) (val 0x4111 2)) self (d.objNat 0x2110 2))
    else !portRoleOk v (topoOf (val 0x4111 1)) self
  | 0x4112 => !listOk v 2 2 (· != 1) known
  | 0x4113 =>
    let e (k : Nat) : Bool := k == 0xFFFF || (known k && k != self && field (d.obj 0x4031 s) 0 1 != 0)
    !(v.length == 4 && e (field v 0 2) && e (field v 2 2))
  | 0x4114 =>
    let m := field v 0 1
    !(listOk v 1 2 (fun m => m != 1 && m ≤ 64) known && (m == 0 || (List.range m).any fun k => field v (1 + 2 * k) 2 == self))
  | 0x4120 => 15 < n
  | 0x4130 =>
    if s = 1 then d.streams.any fun e => e.2.enable && bit (field v (e.1 / 8) 1) (e.1 % 8) != d.fabricStream e.1
    else n < 256 || 16777216 < n
  | 0x4140 => n != 0 && (n < 5 || 60000 < n)
  | 0x4160 => if s = 1 then 3 < n else if s = 2 then 1 < n else false
  | 0x4161 =>
    let bus := leNat (val 0x4161 2)
    if s = 1 then n < 10 || 100 < n
    else if s = 2 then 2 < n
    else if s = 3 then (bus == 1 && 15 < n) || (bus == 2 && 0x7F < n)
    else n < 1 || 24 < n
  | 0x4410 => if s = 1 then n < 10 || 10000 < n else 720 < n
  | _ => false

/-- Subindices of a group's fields. -/
def groupSubs (g : Nat) : List Nat := (rowsExpert.filter fun r => r.index == g).flatMap fun r => (List.range (r.hi + 1 - r.lo)).map fun k => r.lo + k

/-- A ring of a core holds a buffer that is not free (R162). -/
def Dev.ringsBusy (d : Dev) (n : Nat) : Bool := (d.core n).rings.any fun g => !g.2.queue.isEmpty || !g.2.held.isEmpty

/-- Why the commit of a group is refused. A FabricStreams change of an enabled stream and the rounds of R162 and R206 give STATE. -/
def Dev.commitCauses (d : Dev) (g : Nat) (val : Nat → Nat → List Byte) : List Nat :=
  let subs := groupSubs g
  let bad := subs.filter fun s => d.fieldBad g s val
  (if g = 0x4071 then
    cause d.anyOpen abState ++ cause (subs.any fun s => val g s != d.obj g s && d.ringsBusy (s - 1)) abState
  else if g = 0x4090 then cause d.anyOpen abState
  else []) ++ bad.map fun s => if g = 0x4130 ∧ s = 1 then abState else abInconsistent g s

/-- What a commit does besides setting values (R162, R206, R256). (DESIGN CHOICE, log entry 34) -/
def Dev.commitEffect (d : Dev) (g : Nat) (val : Nat → Nat → List Byte) : Dev :=
  if g = 0x4071 then
    (groupSubs g).foldl (fun e s => if val g s = d.obj g s then e else e.updCore (s - 1) fun c => { c with rings := [] }) d
  else if g = 0x4090 then
    (groupSubs g).foldl
      (fun e s =>
        let c := s - 1
        let old := d.objNat g s
        let new := leNat (val g s)
        if old = new then e
        else
          let base := scratchBase + c * 0x1000000
          let e1 := e.zeroRange (base + min old new * 0x100000) (base + max old new * 0x100000)
          e1.updCluster c fun k => { k with cache := (k.cache.map fun w => (w.1, w.2.take (16 - min 16 (2 * new)))).filter fun w => w.2 ≠ [] })
      d
  else if g = 0x4111 then { d with saeri := { d.saeri with switching := true } }
  else d

/-- Values of a group come into force and its staging copy equals them. -/
def Dev.applyGroup (d : Dev) (g : Nat) (val : Nat → Nat → List Byte) : Dev :=
  let d1 := d.commitEffect g val
  let d2 := (groupSubs g).foldl (fun e s => if val g s = e.obj g s then e else e.setObj g s (val g s)) d1
  { d2 with staging := d2.staging.filter fun e => e.1 / 256 ≠ g }

/-- Commits groups together if every check of every one passes (R354, R356). -/
def Dev.commitGroups (d : Dev) (gs : List Nat) (val : Nat → Nat → List Byte) : Except Nat Dev :=
  match lowest (gs.flatMap fun g => d.commitCauses g val) with
  | some c => .error c
  | none => .ok (gs.foldl (fun e g => e.applyGroup g val) d)

/-- A write to a group's Commit (R354). -/
def Dev.commitWrite (d : Dev) (g v : Nat) : Except Nat Dev :=
  if v = 1 then d.commitGroups [g] d.staged
  else if v = 0 then .ok { d with staging := d.staging.filter fun e => e.1 / 256 ≠ g }
  else .error abRange

/-! ### Translator (R244, R245) -/

/-- A translator entry. -/
structure TEntry where
  valid : Bool
  outward : Bool
  size : Nat
  wr : Bool
  rd : Bool
  any : Bool
  rsv : Nat
  base : Nat
  node : Nat
  remote : Nat
deriving DecidableEq, Repr

def tEntry (v : List Byte) : TEntry :=
  let a := field v 0 8
  let b := field v 8 8
  { valid := bit a 63, outward := bit a 62, size := [0x200000, 0x4000000, 0x40000000, 0x800000000].getD (bits a 61 60) 0, wr := bit a 59,
    rd := bit a 58, any := bit a 57, rsv := bits a 56 52, base := bits a 51 0, node := bits b 63 52, remote := bits b 51 0 }

/-- Keys of translator entries in a table of objects. -/
def isEntryKey (k : Nat) : Bool := 0x600000 ≤ k && k < 0x610000

/-- Valid entries in force: key and entry. -/
def Dev.entries (d : Dev) : List (Nat × TEntry) :=
  (d.objs.filter fun e => isEntryKey e.1).filterMap fun e => let t := tEntry e.2; if t.valid then some (e.1, t) else none

/-- An export page lies wholly within one range of R18, not the mirror. -/
def exportRange (t : TEntry) : Bool :=
  let inside (lo hi : Nat) : Bool := lo ≤ t.base && t.base + t.size ≤ hi
  inside 0 0x4800000000 || inside scratchBase (scratchBase + 0x10000000) || inside tileBase (tileBase + 0x10000000)
    || inside rkBase (rkBase + 0x2000000) || inside seqBase (seqBase + 0x4000000) || inside userBase (userBase + 0x10000000000)

/-- An entry breaks R245 by itself. The fields of an entry that is not valid are checked as well (R354). -/
def Dev.entryBad (d : Dev) (t : TEntry) : Bool :=
  t.rsv != 0 || t.base % t.size != 0 || t.remote % t.size != 0
    || (if t.outward then t.remote != 0 || (t.any && t.node != 0) || (t.valid && !exportRange t)
        else t.wr || t.rd || t.any || (t.valid && (0x4800000000 < t.base + t.size || t.node == 0xFFF || t.node == d.objNat 0x1110 1)))

/-- A write of 1 to TranslatorCommit (R245). -/
def Dev.translatorCommit (d : Dev) : Except Nat Dev :=
  let staged := d.staging.filter fun e => isEntryKey e.1
  let after := staged.foldl (fun t e => tabSet t e.1 e.2) (d.objs.filter fun e => isEntryKey e.1)
  let live := after.filterMap fun e => let t := tEntry e.2; if t.valid then some (e.1, t) else none
  let clash (x : Nat × TEntry) : Bool := live.any fun y => y.1 != x.1 && y.2.outward == x.2.outward && overlaps x.2.base x.2.size y.2.base y.2.size
  let bad := (after.filter fun e => let t := tEntry e.2; d.entryBad t || (t.valid && clash (e.1, t))).map fun e => abInconsistent (e.1 / 256) (e.1 % 256)
  let changed := staged.any fun e =>
    let old := tEntry (objIn d.objs (e.1 / 256) (e.1 % 256))
    old.valid && e.2 != objIn d.objs (e.1 / 256) (e.1 % 256) && !(!old.outward && d.nodeLost (BitVec.ofNat 12 old.node))
  match lowest (bad ++ cause (d.anyOpen && changed) abState) with
  | some c => .error c
  | none =>
    let d1 := staged.foldl (fun e x => e.setObj (x.1 / 256) (x.1 % 256) x.2) d
    .ok { d1 with staging := d1.staging.filter fun e => !isEntryKey e.1 }

/-! ### Profiles (R356) -/

/-- The groups that a profile object resets. -/
def profileGroups (i : Nat) : Option (List Nat) :=
  match i with
  | 0x2020 => some [0x4020] | 0x2030 => some [0x4031] | 0x2040 => some [0x4040, 0x4041] | 0x2070 => some [0x4070, 0x4071]
  | 0x2090 => some [0x4090] | 0x2410 => some [0x4410] | 0x2100 => some [0x4100] | 0x2110 => some [0x4112, 0x4113, 0x4114]
  | 0x2122 => some [0x4120] | 0x2130 => some [0x4130] | 0x2140 => some [0x4140] | 0x2160 => some [0x4160, 0x4161]
  | _ => none

/-- A write of 0x00 to a profile: its groups and the objects its rule names take their defaults in one step, or nothing changes. -/
def Dev.profile (d : Dev) (i : Nat) : Except Nat Dev :=
  match profileGroups i with
  | none => .error abNoObject
  | some gs =>
    if i = 0x2110 ∧ (d.anyOpen ∨ !budgetOk (topoOf (d.obj 0x4111 1)) d.saeri.departed.contains (d.objNat 0x1110 1) 4000) then
      .error (if d.anyOpen then abState else abRange)
    else
      let dflt (g s : Nat) : List Byte := objDefault (okey g s)
      match d.commitGroups gs dflt with
      | .error c => .error c
      | .ok d1 =>
        if i = 0x2110 then .ok (d1.setObj 0x2110 2 (dflt 0x2110 2))
        else if i = 0x2160 then .ok ((d1.setObj 0x2160 2 (dflt 0x2160 2)).setObj 0x2160 3 (dflt 0x2160 3))
        else .ok d1

/-! ### Writes -/

/-- Refusals by type (R349, R351). -/
def typeCauses (info : OInfo) (b : List Byte) : List Nat :=
  cause (info.access = .ro || info.access = .const) abReadOnly ++ cause (!info.type.lengthOk b.length) abLength
    ++ (match info.type with
        | .boolean => cause (b.length == 1 && 1 < leNat b) abRange
        | .real32 => cause (b.length == 4 && match decodeFloat fp32 (leNat b) with
            | .fin neg m _ => neg && m != 0
            | _ => true) abRange
        | _ => [])

/-- An output port exists at a router (R224). -/
def routerPort (r p : Nat) : Bool :=
  r < 32 &&
    (if p = 0 then 8 ≤ r else if p = 1 then r % 8 < 7 else if p = 2 then r < 24 else if p = 3 then 0 < r % 8
     else if p ≤ 8 then true else if p = 9 then r < 8 || 24 ≤ r else if p = 13 ∨ p = 14 then r % 8 == 0 || r % 8 == 7
     else p == 15 && (r == 0 || r == 7))

/-- The value of a REAL32 lies in lo to hi. -/
def realIn (v : Nat) (lo hi : Int) : Bool := let x := decodeFloat fp32 v; leVal (.int lo) x && leVal x (.int hi)

/-! ### ConfigStream (R324, R328, R332, R340, R365) -/

/-- The header that a writer of ConfigStream completes with these bytes, if any. -/
def Dev.headerDue (d : Dev) (who : StreamWriter) (b : List Byte) : Option (List Byte) :=
  let q := d.feed who
  let all := (q.bytes ++ b).drop q.skip
  let mine : Bool := match d.cfg.load with | some l => l.feeder == some who | none => false
  if !q.spent && !mine && 64 ≤ all.length then some (all.take 64) else none

/-- Why a segment for the configuration controller is refused: a full stream outside STATE 0, a partial or repair stream before user mode, a fuse, a
header while any load is active. -/
def Dev.streamCauses (fz : Fuses) (d : Dev) (who : StreamWriter) (b : List Byte) : List Nat :=
  let kind := (d.headerDue who b).map fun h => field h 5 1
  cause (kind == some 0 && d.cfg.state != 0) abState ++ cause ((kind == some 1 || kind == some 2) && d.cfg.state != 5) abState
    ++ cause (fz.security.getLsbD 0) abSecurity ++ cause (kind.isSome && d.cfg.load.isSome) abBusy

/-- Refusals by the owning rule (R349, R358), for a value of the right length. (DEDUCED, log entry 30) -/
def Dev.ownerCauses (fz : Fuses) (d : Dev) (via : Transport) (i s : Nat) (b : List Byte) : List Nat :=
  let v := leNat b
  let out (lo hi : Nat) : List Nat := cause (v < lo || hi < v) abRange
  match i with
  | 0x1110 => cause (0xFFE < v) abRange ++ cause ((List.range 16).any fun p => (d.port p).enabled) abState
  | 0x1130 => out 0 2
  | 0x2060 => out 1 1000000
  | 0x2080 | 0x2081 => out 0 1
  | 0x2110 =>
    if s = 1 then out 0 0
    else if s = 2 then cause (v < 96 || 100000 < v || !budgetOk (topoOf (d.obj 0x4111 1)) d.saeri.departed.contains (d.objNat 0x1110 1) v) abRange
    else if s = 3 then cause (v == 1 && d.anyOpen) abState
    else []
  | 0x2120 => out 0 1 ++ cause (d.cfg.state != 5) abState
  | 0x2121 => out 1 66 ++ cause ((d.port (portOfLane (s - 1))).step != 3) abState
  | 0x2140 =>
    if s = 1 then out 0 0
    else if s = 2 then d.streamCauses fz (via, none) b
    else if s = 4 then cause (d.cfg.state != 0) abState ++ cause (fz.security.getLsbD 5) abSecurity
    else if s = 6 ∨ s = 7 then
      cause (d.cfg.state != 0) abState ++ cause (via != .mgmt) abTransport ++ cause (s == 7 && fz.security.getLsbD 4) abSecurity
    else []
  | 0x2160 => if s = 1 then out 0 0 else if s = 2 then cause (!realIn v 10 2000) abRange else out 300 900
  | 0x2170 => if s = 1 then out 0 7 else out 0 1
  | 0x4110 => out 0 1
  | 0x2410 => if s = 1 then out 0 0 else (if s = 2 then out 0 1 else out 8 16) ++ cause d.hbm.mapLocked abState
  | 0x7042 => out 0 1
  | 0x7100 => out 0 1 ++ cause (v == 1 && d.anyOpen) abState
  | 0x7101 =>
    cause ((slice b 4 4).any (· != 0) || !routerPort (field b 0 1) (field b 1 1) || 15 < field b 2 1 || 2 < field b 3 1) abRange
      ++ cause (d.objNat 0x7100 1 == 0) abState
  | 0x7120 => out 0 1 ++ cause (d.port (portOfLane (s - 1))).enabled abState
  | _ => if (profileGroups i).isSome ∧ s = 1 then out 0 0 else []

/-- PeerResume (R268): a round held for lost peers may go on, with the groups of 0x4112 to 0x4114 as they stand. -/
def peerResume (n : RoundNo) (d : Dev) : Dev :=
  d.withRound n fun r =>
    if r.hold = .peer ∧ r.phase ≠ .running then
      let mine (k : Nat) : Bool := 0x4112 ≤ k / 256 && k / 256 ≤ 0x4114
      (d.updRound n fun r => { r with settings := (r.settings.filter fun e => !mine e.1) ++ d.objs.filter fun e => mine e.1 }).endHold n
    else d

/-- A halt request and a release of a core (R96). -/
def coreHalt (n : Nat) (d : Dev) : Dev := d.updCore n fun c => { c with halt := if c.halt = 0 then 1 else c.halt }
def coreRelease (n : Nat) (d : Dev) : Dev := d.updCore n fun c => { c with halt := 0 }

/-- Arming clears every probe count and the trace (R239). -/
def probeArm (d : Dev) : Dev :=
  { d.setObj 0x7100 1 [1] with counters := d.counters.filter fun e => e.1 / 256 ≠ 0x7102, noc := { d.noc with trace := [] } }
def probeDisarm (d : Dev) : Dev := d.setObj 0x7100 1 [0]

/-- What an accepted write does (R349). -/
def Dev.writeEffect (fz : Fuses) (d : Dev) (via : Transport) (i s : Nat) (b : List Byte) : Dev :=
  let v := leNat b
  let set := d.setObj i s b
  match i with
  | 0x2080 => if v = 1 then reckonerStart (s - 1) set else reckonerStopRequest (s - 1) set
  | 0x2081 => ibankSelect (s - 1) (v = 1) set
  | 0x2100 => if s = 2 ∧ v = 1 then { d with noc := { d.noc with stats := [] } } else d
  | 0x2110 => if s = 3 then (if v = 1 then d.leaveFabric else d) else if s = 4 then peerResume (BitVec.ofNat 32 v) d else set
  | 0x2120 => if v = 1 then d.portOn (s - 1) else d.portOff (s - 1)
  | 0x2121 => d.bitSlip (s - 1) v
  | 0x2140 =>
    if s = 2 then d.passStream fz (via, none) b
    else if s = 3 then (if v = 1 then d.reprogram 2 else d)
    else if s = 4 then { d with bbramKey := some b }
    else if s = 5 then (if v = 1 then { d with bbramKey := none } else d)
    else d
  | 0x7042 => if v = 1 then coreHalt (s - 1) d else coreRelease (s - 1) d
  | 0x7100 => if v = 1 then probeArm d else probeDisarm d
  | 0x7120 => d.laneTest (s - 1) (v = 1)
  | _ => set

/-- A write of an object of the device (R349, R354, R356, R358): the device after it, or the abort code. The two fuse objects change
nothing here: see `dictWrite`. -/
def Dev.objWrite (fz : Fuses) (d : Dev) (via : Transport) (i s : Nat) (b : List Byte) : Except Nat Dev :=
  match objInfo i s with
  | none => .error abNoObject
  | some info =>
    let good := info.type.lengthOk b.length
    match lowest (typeCauses info b ++ (if good then d.ownerCauses fz via i s b else []) ++ d.seamCauses i s ++ cause (d.rights via < 2) abTransport) with
    | some c => .error c
    | none =>
      let d := d.overSeam true i s b.length
      if s = 0 ∧ i ∈ groups then d.commitWrite i (leNat b)
      else if info.access = .staged then
        .ok { d with staging := if b = d.obj i s then tabErase d.staging (okey i s) else tabSet d.staging (okey i s) b }
      else if i = 0x4110 then (if leNat b = 1 then d.translatorCommit else .ok { d with staging := d.staging.filter fun e => !isEntryKey e.1 })
      else if (profileGroups i).isSome ∧ s = 1 then d.profile i
      else .ok (d.writeEffect fz via i s b)

/-- Blows fuses: bit 4 only with the eFuse key (R325). -/
def Fuses.blow (fz : Fuses) (mask : Word) : Fuses := { fz with security := fz.security ||| (mask.truncate 6 &&& 0b101111) }
/-- Blows the eFuse key, once (R323, R325). -/
def Fuses.setKey (fz : Fuses) (key : List Byte) : Fuses :=
  if fz.efuseKey.isSome then fz else { security := fz.security ||| 0b010000, efuseKey := some key }

/-- A write of any object: it alone may blow fuses (R325). -/
def dictWrite (fz : Fuses) (d : Dev) (via : Transport) (i s : Nat) (b : List Byte) : Except Nat (Fuses × Dev) :=
  match d.objWrite fz via i s b with
  | .error c => .error c
  | .ok d1 =>
    .ok (if i = 0x2140 ∧ s = 6 then fz.blow (BitVec.ofNat 32 (leNat b)) else if i = 0x2140 ∧ s = 7 then fz.setKey b else fz, d1)

/-- A segment of bytes for the configuration controller. -/
def Dev.configPass (fz : Fuses) (d : Dev) (who : StreamWriter) (b : List Byte) : Except Nat Dev :=
  match lowest (d.streamCauses fz who b ++ cause (d.rights who.1 < 2) abTransport) with
  | some c => .error c
  | none => .ok (d.passStream fz who b)

end Sys2Proof.Machine
end

