-- ==== Sys2Proof/Machine/Transport.lean ====
section
/-! DEFINITION. The transports of the dictionary: the transfer protocol (R363, R364), ConfigStream (R365), the mirror and its mailbox
(R359, R360), and the commands that act through the dictionary. -/

namespace Sys2Proof.Machine

/-! ### Transfers -/

/-- Largest segment of a transport (R363). -/
def segMax : Transport → Nat
  | .pcie => 2024
  | .mgmt => 56
  | .saeri _ => 248

/-- Two transfers share a limit (R364). -/
def sameBus : Transport → Transport → Bool
  | .pcie, .pcie => true
  | .mgmt, .mgmt => true
  | .saeri _, .saeri _ => true
  | _, _ => false

/-- A frame as bytes (R363), and back. -/
def frameBytes (f : TFrame) : List Byte := [f.cmd, f.tid] ++ leBytes 2 f.index.toNat ++ [f.sub, f.flags] ++ leBytes 2 f.seq.toNat ++ f.data
def bytesFrame (b : List Byte) : TFrame :=
  { cmd := b.getD 0 0, tid := b.getD 1 0, index := BitVec.ofNat 16 (field b 2 2), sub := b.getD 4 0, flags := b.getD 5 0,
    seq := BitVec.ofNat 16 (field b 6 2), data := b.drop 8 }

/-- A waiting response moves into the free mailbox buffer (R360). -/
def Dict.fill (k : Dict) : Dict :=
  if k.response = [] then
    match k.out.find? fun e => e.1 = .pcie with
    | some e => { k with response := frameBytes e.2, out := k.out.erase e }
    | none => k
  else k

/-- The CAN FD frame length that takes `n` bytes, 8 at least (R361). -/
def canLength (n : Nat) : Nat := if n ≤ 24 then 4 * ceilDiv n 4 else if n ≤ 32 then 32 else if n ≤ 48 then 48 else 64
/-- A frame as it goes onto the management bus: its data padded with zeros to a CAN FD length (R361). -/
def canPad (f : TFrame) : TFrame := { f with data := f.data ++ List.replicate (canLength (8 + f.data.length) - (8 + f.data.length)) 0 }

/-- A frame for a client. To a peer it leaves as a Saeri packet (R362). -/
def Dev.sendFrame (d : Dev) (via : Transport) (f : TFrame) : Dev :=
  match via with
  | .saeri n => d.saeriNotice n 0x08 0 (frameBytes f)
  | .mgmt => { d with dict := { d.dict with out := d.dict.out ++ [(.mgmt, canPad f)] } }
  | .pcie => { d with dict := Dict.fill { d.dict with out := d.dict.out ++ [(.pcie, f)] } }

/-- An abort frame (R363). -/
def Dev.sendAbort (d : Dev) (via : Transport) (f : TFrame) (code : Nat) : Dev :=
  d.sendFrame via { cmd := 0x85, tid := f.tid, index := f.index, sub := f.sub, flags := 0, seq := 0, data := leBytes 4 code }

def Dev.findTransfer (d : Dev) (via : Transport) (tid : Byte) : Option Transfer := d.dict.transfers.find? fun t => t.via = via ∧ t.tid = tid

/-- The transfer is into ConfigStream. -/
def Transfer.isStream (t : Transfer) : Bool := t.write && t.index == 0x2140 && t.sub == 2

/-- A transfer is gone. With a ConfigStream write ends the load that it has not brought to its tag (R322, R365). -/
def Dev.dropTransfer (d : Dev) (t : Transfer) : Dev :=
  let d1 : Dev := { d with dict := { d.dict with transfers := d.dict.transfers.filter fun u => u ≠ t } }
  if t.isStream then d1.endFeed (t.via, some t.tid) else d1

/-- A transfer ends with an abort code. -/
def Dev.failTransfer (d : Dev) (t : Transfer) (f : TFrame) (code : Nat) : Dev := (d.dropTransfer t).sendAbort t.via f code

def Dev.putTransfer (d : Dev) (t : Transfer) : Dev :=
  { d with dict := { d.dict with transfers := (d.dict.transfers.filter fun u => u.via ≠ t.via ∨ u.tid ≠ t.tid) ++ [t] } }

/-- Up to eight read segments go out; after the last one the transfer is over (R364). -/
def Dev.readBatch (d : Dev) (t : Transfer) : Dev :=
  let whole := leBytes 4 t.data.length ++ t.data
  let m := segMax t.via
  let total := ceilDiv whole.length m
  let stop := min (t.next + 8) total
  let d1 := (List.range (stop - t.next)).foldl
    (fun e i =>
      let q := t.next + i
      e.sendFrame t.via { cmd := 0x81, tid := t.tid, index := t.index, sub := t.sub, flags := if q + 1 = total then 1 else 0,
                          seq := BitVec.ofNat 16 q, data := (whole.drop (q * m)).take m }) d
  if stop = total then d1.dropTransfer t else d1.putTransfer { t with next := stop }

/-- A read command (R364). -/
def Dev.readInit (fz : Fuses) (d : Dev) (via : Transport) (f : TFrame) : Dev :=
  match d.objRead fz via f.index.toNat f.sub.toNat (f.flags.getLsbD 1) with
  | .error c => d.sendAbort via f c
  | .ok v =>
    (d.overSeam false f.index.toNat f.sub.toNat v.length).readBatch
      { via := via, tid := f.tid, index := f.index, sub := f.sub, write := false, len := v.length, data := v, next := 0 }

/-- A write segment of a transfer in its place (R364, R365). -/
def writeSegment (fz : Fuses) (d : Dev) (t : Transfer) (f : TFrame) : Fuses × Dev :=
  let last := f.flags.getLsbD 0
  let ack (d : Dev) : Dev :=
    d.sendFrame t.via { cmd := 0x82, tid := t.tid, index := t.index, sub := t.sub, flags := if last then 1 else 0, seq := f.seq, data := [] }
  let first := t.next = 0
  if (!last ∧ f.data.length ≠ segMax t.via) ∨ (first ∧ f.data.length < 4) then (fz, d.failTransfer t f abLength)
  else
    let len := if first then field f.data 0 4 else t.len
    let body := if first then f.data.drop 4 else f.data
    let body := if last ∧ t.via = .mgmt then body.take (len - t.data.length) else body
    let t' : Transfer := { t with len := len, data := t.data ++ body, next := t.next + 1 }
    if len < t'.data.length ∨ (last ∧ t'.data.length < len) then (fz, d.failTransfer t f abLength)
    else
      let passed : Except Nat Dev := if t.isStream then d.configPass fz (t.via, some t.tid) body else .ok d
      match passed with
      | .error c => (fz, d.failTransfer t f c)
      | .ok d1 =>
        if !last then (fz, (fun e : Dev => if t.next % 8 = 7 then ack e else e) (d1.putTransfer t'))
        else if t.isStream then (fz, ack (d1.dropTransfer t))
        else
          match dictWrite fz (d1.dropTransfer t) t.via t.index.toNat t.sub.toNat t'.data with
          | .error c => (fz, (d1.dropTransfer t).sendAbort t.via f c)
          | .ok (fz', d2) => (fz', ack d2)

/-- The write segment that a transfer waits for. SEQ counts modulo 2^16. (DESIGN CHOICE, log entry 101) -/
def Transfer.nextSegment (t : Transfer) (f : TFrame) : Bool := t.write && f.seq.toNat == t.next % 65536

/-- A frame from a client (R363, R364). -/
def frameIn (fz : Fuses) (d : Dev) (via : Transport) (f : TFrame) : Fuses × Dev :=
  let old := d.findTransfer via f.tid
  let cmd := f.cmd.toNat
  if f.flags.toNat / 4 ≠ 0 then
    (fz, match old with | some t => d.failTransfer t f abCommand | none => d.sendAbort via f abCommand)
  else if cmd = 0x05 then (fz, match old with | some t => d.dropTransfer t | none => d)
  else if cmd = 0x01 ∨ (cmd = 0x02 ∧ f.seq = 0 ∧ !(old.any fun t => t.nextSegment f)) then
    match old with
    | some t => (fz, d.failTransfer t f abSequence)
    | none =>
      if (if via = .pcie then 1 else 4) ≤ (d.dict.transfers.filter fun t => sameBus t.via via).length then (fz, d.sendAbort via f abBusy)
      else if cmd = 0x01 then (fz, d.readInit fz via f)
      else writeSegment fz d { via := via, tid := f.tid, index := f.index, sub := f.sub, write := true, len := 0, data := [], next := 0 } f
  else if cmd = 0x02 then
    match old with
    | some t => if t.nextSegment f then writeSegment fz d t f else (fz, d.failTransfer t f abSequence)
    | none => (fz, d.sendAbort via f abSequence)
  else if cmd = 0x04 then
    match old with
    | some t => (fz, if !t.write ∧ (f.seq.toNat + 1) % 65536 = t.next % 65536 then d.readBatch t else d.failTransfer t f abSequence)
    | none => (fz, d.sendAbort via f abSequence)
  else (fz, match old with | some t => d.failTransfer t f abCommand | none => d.sendAbort via f abCommand)

/-- Frames are served from this transport: on the management bus only with an address (R361), from peers only if the Topology in force lists
them or while they join as direct neighbours (R362). -/
def Dev.served (d : Dev) (via : Transport) : Bool :=
  match via with
  | .mgmt => d.pins.straps.mgtAddr != 0
  | .saeri n => ((topoOf (d.obj 0x4111 1)).pos? n.toNat).isSome || (List.range 16).any fun p => (d.port p).step == 7 && (d.port p).peerNode == n
  | _ => true

/-- A transfer with nothing from the client for 100 ms (R364). -/
def transferTimeout (via : Transport) (tid : Byte) (silentMs : Nat) (d : Dev) : Dev :=
  match d.findTransfer via tid with
  | some t =>
    if 100 ≤ silentMs then
      d.failTransfer t { cmd := 0, tid := tid, index := t.index, sub := t.sub, flags := 0, seq := 0, data := [] } abTimeout
    else d
  | none => d

/-! ### The mailbox (R360) -/

def mailReq : Nat := 0x1FFF000
def mailRsp : Nat := 0x1FFF800
def mailReqLen : Nat := 0x1FFFFF0
def mailRspLen : Nat := 0x1FFFFF8

/-- A refused direct access: LastMirrorAbort (R359, R366). -/
def Dev.mirrorAbort (d : Dev) (i s code : Nat) : Dev :=
  { d with dict := { d.dict with lastAbort := BitVec.ofNat 64 (code * 2 ^ 32 + i * 2 ^ 16 + s * 2 ^ 8) } }

/-- A write to REQLEN submits the request frame, which is taken at once; a length out of range takes none. Over the mailbox no fuse
can be blown (R325). (DESIGN CHOICE, log entry 32) -/
def reqlenWrite (fz : Fuses) (len : Nat) (d : Dev) : Status × Dev :=
  if len < 8 ∨ 2048 < len then (.address, d.mirrorAbort 0x1FFF 0xFF abLength)
  else (.done, (frameIn fz d .pcie (bytesFrame (tableBytes d.dict.request len))).2)

/-- Writing 0 to RSPLEN frees the response buffer; the next waiting response moves in. -/
def rsplenFree (value : Nat) (d : Dev) : Status × Dev :=
  if value = 0 then (.done, { d with dict := Dict.fill { d.dict with response := [] } }) else (.address, d)

/-! ### The mirror (R359) -/

/-- The slots of an access: index and subindex of each. -/
def mirrorSlots (off n : Nat) : List (Nat × Nat) :=
  if n = 0 then [] else (List.range ((off + n - 1) / 16 + 1 - off / 16)).map fun k => ((off / 16 + k) / 256, (off / 16 + k) % 256)

/-- Causes by the slots that an access covers: no object, no such right, or more than one slot. -/
def spanCauses (write : Bool) (off n : Nat) : List Nat :=
  let sl := mirrorSlots off n
  let some' (f : OAccess → Bool) : Bool := sl.any fun k => match objInfo k.1 k.2 with | some o => f o.access | none => false
  cause (sl.any fun k => (objInfo k.1 k.2).isNone) abNoObject
    ++ (if write then cause (some' fun a => a = .ro || a = .const) abReadOnly else cause (some' (· = .wo)) abWriteOnly)
    ++ cause (sl.length != 1) abLength

/-- A read of the mirror: status, data, device. -/
def Dev.mirrorRead (fz : Fuses) (d : Dev) (off n : Nat) : Status × List Byte × Dev :=
  if 0x1FFF000 ≤ off ∧ off + n ≤ 0x2000000 then
    let within (lo len : Nat) : Bool := lo ≤ off && off + n ≤ lo + len
    if within mailReq 2048 then (.done, slice (tableBytes d.dict.request 2048) (off - mailReq) n, d)
    else if within mailRsp 2032 then (.done, slice d.dict.response (off - mailRsp) n, d)
    else if within mailReqLen 8 then (.done, List.replicate n 0, d)
    else if within mailRspLen 8 then (.done, slice (leBytes 8 d.dict.response.length) (off - mailRspLen) n, d)
    else (.address, deadBytes off n, d)
  else
    let i := off / 0x1000
    let s := off % 0x1000 / 16
    match lowest (spanCauses false off n ++ d.readCauses fz i s ++ d.seamCauses i s), objInfo i s with
    | none, some info =>
      let v := d.objValue fz i s info
      let img := if info.type.size.isSome then v else leBytes 4 v.length
      (.done, slice img (off % 16) n, d.overSeam false i s n)
    | some c, _ => (.address, deadBytes off n, d.mirrorAbort i s c)
    | none, none => (.address, deadBytes off n, d)

/-- A write of the mirror: status, device. Fuses cannot be blown over it (R325). -/
def Dev.mirrorWrite (fz : Fuses) (d : Dev) (off : Nat) (b : List Byte) : Status × Dev :=
  let n := b.length
  if 0x1FFF000 ≤ off ∧ off + n ≤ 0x2000000 then
    if off + n ≤ mailReq + 2048 then
      (.done, { d with dict := { d.dict with request := (List.range n).foldl (fun t k => tabSet t (off - mailReq + k) (b.getD k 0)) d.dict.request } })
    else if off = mailReqLen ∧ n ≤ 8 then reqlenWrite fz (leNat b) d
    else if off = mailRspLen ∧ n ≤ 8 then rsplenFree (leNat b) d
    else (.address, d)
  else
    let i := off / 0x1000
    let s := off % 0x1000 / 16
    let shape := match objInfo i s with
      | some o => cause o.type.size.isNone abTransport
          ++ cause (o.type.size.isSome && (off % 16 != 0 || o.type.size != some n)) abLength
      | none => []
    match lowest (spanCauses true off n ++ shape) with
    | some c => (.address, d.mirrorAbort i s c)
    | none =>
      match d.objWrite fz .pcie i s b with
      | .error c => (.address, d.mirrorAbort i s c)
      | .ok d1 => (.done, d1)

/-! ### Commands through the dictionary -/

/-- The dictionary answers a transport: once the PLL has locked, and over the management bus also on the oscillator (R371). (DEDUCED, log entry 31) -/
def Dev.dictRuns (d : Dev) (via : Transport) : Bool := (d.pins.clocks || (d.pins.oscillator && via = .mgmt)) && d.served via

/-- A write of an object over a transport. A refusal changes nothing; over the mirror its code is kept (R359). -/
def State.dict (s : State) (via : Transport) (i sub : Nat) (b : List Byte) : Host.Outcome State Fault Refusal :=
  if s.dev.dictRuns via then
    match dictWrite s.fuses s.dev via i sub b with
    | .ok (fz, d) => .next { s with fuses := fz, dev := d }
    | .error c =>
      let direct : Bool := match objInfo i sub with | some o => o.type.size.isSome | none => true
      .next (if via = .pcie ∧ direct then { s with dev := s.dev.mirrorAbort i sub c } else s)
  else .next s

/-- A transfer frame over a transport, if its CMD is the one the command names. -/
def State.transfer (s : State) (via : Transport) (f : TFrame) (cmd : Byte) : Host.Outcome State Fault Refusal :=
  if s.dev.dictRuns via ∧ f.cmd = cmd then
    let out := frameIn s.fuses s.dev via f
    .next { s with fuses := out.1, dev := out.2 }
  else .next s

/-- REPROGRAM (R329). -/
def execReprogram (via : Transport) (value : Byte) (s : State) : Host.Outcome State Fault Refusal := s.dict via 0x2140 3 [value]
/-- CONFIG_STREAM (R365). -/
def execConfigStream (via : Transport) (bytes : List Byte) (s : State) : Host.Outcome State Fault Refusal :=
  s.onDev fun d => d.when (d.dictRuns via) fun d =>
    match d.configPass s.fuses (via, none) bytes with
    | .ok d1 => d1
    | .error _ => d
/-- BBRAM_KEY (R325). -/
def execBbramKey (via : Transport) (key : List Byte) (s : State) : Host.Outcome State Fault Refusal := s.dict via 0x2140 4 key
/-- BBRAM_ERASE (R325). -/
def execBbramErase (via : Transport) (value : Byte) (s : State) : Host.Outcome State Fault Refusal := s.dict via 0x2140 5 [value]
/-- FUSE_PROGRAM (R325). -/
def execFuseProgram (via : Transport) (mask : Word) (s : State) : Host.Outcome State Fault Refusal := s.dict via 0x2140 6 (leBytes 4 mask.toNat)
/-- EFUSE_KEY (R325). -/
def execEfuseKey (via : Transport) (key : List Byte) (s : State) : Host.Outcome State Fault Refusal := s.dict via 0x2140 7 key
/-- REGISTER_WRITE (R125, R349). -/
def execRegisterWrite (via : Transport) (target : RegTarget) (bytes : List Byte) (s : State) : Host.Outcome State Fault Refusal :=
  match target with
  | .object i sub => s.dict via i.toNat sub.toNat bytes
  | .sequencer off => s.onClock fun d => (d.seqWrite off.toNat bytes true).2
/-- STAGED_WRITE (R354): of a staged field. -/
def execStagedWrite (via : Transport) (index : BitVec 16) (sub : Byte) (bytes : List Byte) (s : State) : Host.Outcome State Fault Refusal :=
  s.dict via index.toNat sub.toNat bytes
/-- GROUP_COMMIT (R354). -/
def execGroupCommit (via : Transport) (index : BitVec 16) (s : State) : Host.Outcome State Fault Refusal := s.dict via index.toNat 0 [1]
/-- STAGING_RESET (R354). -/
def execStagingReset (via : Transport) (index : BitVec 16) (s : State) : Host.Outcome State Fault Refusal := s.dict via index.toNat 0 [0]
/-- TRANSLATOR_COMMIT (R245). -/
def execTranslatorCommit (via : Transport) (s : State) : Host.Outcome State Fault Refusal := s.dict via 0x4110 1 [1]
/-- FORMAT_PROFILE (R47). -/
def execFormatProfile (via : Transport) (value : Byte) (s : State) : Host.Outcome State Fault Refusal := s.dict via 0x2020 1 [value]
/-- ARRAY_PROFILE (R72). -/
def execArrayProfile (via : Transport) (value : Byte) (s : State) : Host.Outcome State Fault Refusal := s.dict via 0x2030 1 [value]
/-- REDUCTION_PROFILE (R98). -/
def execReductionProfile (via : Transport) (value : Byte) (s : State) : Host.Outcome State Fault Refusal := s.dict via 0x2040 1 [value]
/-- FUSION_PROFILE (R174). -/
def execFusionProfile (via : Transport) (value : Byte) (s : State) : Host.Outcome State Fault Refusal := s.dict via 0x2070 1 [value]
/-- MEMORY_PROFILE (R222). -/
def execMemoryProfile (via : Transport) (value : Byte) (s : State) : Host.Outcome State Fault Refusal := s.dict via 0x2090 1 [value]
/-- HBM_PROFILE (R222). -/
def execHbmProfile (via : Transport) (value : Byte) (s : State) : Host.Outcome State Fault Refusal := s.dict via 0x2410 1 [value]
/-- NOC_PROFILE (R241). -/
def execNocProfile (via : Transport) (value : Byte) (s : State) : Host.Outcome State Fault Refusal := s.dict via 0x2100 1 [value]
/-- SAERI_PROFILE (R269). -/
def execSaeriProfile (via : Transport) (value : Byte) (s : State) : Host.Outcome State Fault Refusal := s.dict via 0x2110 1 [value]
/-- LANE_PROFILE (R293). -/
def execLaneProfile (via : Transport) (value : Byte) (s : State) : Host.Outcome State Fault Refusal := s.dict via 0x2122 1 [value]
/-- FABRIC_PROFILE (R315). -/
def execFabricProfile (via : Transport) (value : Byte) (s : State) : Host.Outcome State Fault Refusal := s.dict via 0x2130 1 [value]
/-- CONFIG_PROFILE (R348). -/
def execConfigProfile (via : Transport) (value : Byte) (s : State) : Host.Outcome State Fault Refusal := s.dict via 0x2140 1 [value]
/-- POWER_PROFILE (R387). -/
def execPowerProfile (via : Transport) (value : Byte) (s : State) : Host.Outcome State Fault Refusal := s.dict via 0x2160 1 [value]
/-- REQLEN_WRITE (R360). -/
def execReqlenWrite (len : Word64) (s : State) : Host.Outcome State Fault Refusal := s.onClock fun d => (reqlenWrite s.fuses len.toNat d).2
/-- RSPLEN_FREE (R360). -/
def execRsplenFree (value : Word64) (s : State) : Host.Outcome State Fault Refusal := s.onClock fun d => (rsplenFree value.toNat d).2
/-- TRANSFER_READ (R364). -/
def execTransferRead (via : Transport) (frame : TFrame) (s : State) : Host.Outcome State Fault Refusal := s.transfer via frame 0x01
/-- WRITE_SEGMENT (R364). -/
def execWriteSegment (via : Transport) (frame : TFrame) (s : State) : Host.Outcome State Fault Refusal := s.transfer via frame 0x02
/-- READ_ACKNOWLEDGE (R364). -/
def execReadAcknowledge (via : Transport) (frame : TFrame) (s : State) : Host.Outcome State Fault Refusal := s.transfer via frame 0x04
/-- CLIENT_ABORT (R364). -/
def execClientAbort (via : Transport) (frame : TFrame) (s : State) : Host.Outcome State Fault Refusal := s.transfer via frame 0x05
/-- TRANSFER_TIMEOUT (R364). -/
def execTransferTimeout (via : Transport) (tid : Byte) (silentMs : Nat) (s : State) : Host.Outcome State Fault Refusal :=
  s.onDev fun d => d.when (d.dictRuns via) (transferTimeout via tid silentMs)
/-- CORE_HALT (R96). -/
def execCoreHalt (via : Transport) (core : CoreId) (s : State) : Host.Outcome State Fault Refusal := s.dict via 0x7042 (core.toNat + 1) [1]
/-- CORE_RELEASE (R96). -/
def execCoreRelease (via : Transport) (core : CoreId) (s : State) : Host.Outcome State Fault Refusal := s.dict via 0x7042 (core.toNat + 1) [0]
/-- RECKONER_RUN_START (R196). -/
def execReckonerRunStart (via : Transport) (core : CoreId) (s : State) : Host.Outcome State Fault Refusal :=
  s.dict via 0x2080 (core.toNat + 1) [1]
/-- RECKONER_STOP_REQUEST (R196). -/
def execReckonerStopRequest (via : Transport) (core : CoreId) (s : State) : Host.Outcome State Fault Refusal :=
  s.dict via 0x2080 (core.toNat + 1) [0]
/-- IBANK_SELECT (R195). -/
def execIbankSelect (via : Transport) (core : CoreId) (value : Byte) (s : State) : Host.Outcome State Fault Refusal :=
  s.dict via 0x2081 (core.toNat + 1) [value]
/-- NOC_STATS_CLEAR (R238). -/
def execNocStatsClear (via : Transport) (value : Byte) (s : State) : Host.Outcome State Fault Refusal := s.dict via 0x2100 2 [value]
/-- PROBE_ARM (R239). -/
def execProbeArm (via : Transport) (s : State) : Host.Outcome State Fault Refusal := s.dict via 0x7100 1 [1]
/-- PROBE_DISARM (R239). -/
def execProbeDisarm (via : Transport) (s : State) : Host.Outcome State Fault Refusal := s.dict via 0x7100 1 [0]
/-- LEAVE (R266). -/
def execLeave (via : Transport) (value : Byte) (s : State) : Host.Outcome State Fault Refusal := s.dict via 0x2110 3 [value]
/-- PEER_RESUME (R268). -/
def execPeerResume (via : Transport) (round : RoundNo) (s : State) : Host.Outcome State Fault Refusal := s.dict via 0x2110 4 (leBytes 4 round.toNat)
/-- PORT_ENABLE (R278). -/
def execPortEnable (via : Transport) (port : PortId) (s : State) : Host.Outcome State Fault Refusal := s.dict via 0x2120 (port.toNat + 1) [1]
/-- PORT_DISABLE (R278). -/
def execPortDisable (via : Transport) (port : PortId) (s : State) : Host.Outcome State Fault Refusal := s.dict via 0x2120 (port.toNat + 1) [0]
/-- BIT_SLIP (R279). -/
def execBitSlip (via : Transport) (lane : LaneId) (value : Byte) (s : State) : Host.Outcome State Fault Refusal :=
  s.dict via 0x2121 (lane.toNat + 1) [value]
/-- LANE_TEST_START (R291). -/
def execLaneTestStart (via : Transport) (lane : LaneId) (s : State) : Host.Outcome State Fault Refusal := s.dict via 0x7120 (lane.toNat + 1) [1]
/-- LANE_TEST_END (R291). -/
def execLaneTestEnd (via : Transport) (lane : LaneId) (s : State) : Host.Outcome State Fault Refusal := s.dict via 0x7120 (lane.toNat + 1) [0]

end Sys2Proof.Machine
end

