-- ==== Sys2Proof/Machine/Access.lean ====
section
/-! DEFINITION. Memory accesses of every initiator: the import pages of the translator (R246), the ranges of the address map, wakes
(R23), protected inputs (R147), active instruction banks (R194), delivery into fabric user space (R311), and reads by the engines. -/

namespace Sys2Proof.Machine

/-! ### Translation (R246, R248) -/

def Dev.imports (d : Dev) : List TEntry := (d.entries.filter fun e => !e.2.outward).map (·.2)
def Dev.exports (d : Dev) : List TEntry := (d.entries.filter fun e => e.2.outward).map (·.2)

/-- A stretch of an access: its start, its length, and the node and address it goes to where an import covers it. -/
structure Stretch where
  addr : Nat
  len : Nat
  goes : Option (NodeId × Nat)
deriving DecidableEq, Repr

/-- [a, a + n) cut at the ends of import pages, at most `fuel` stretches. -/
def cutImports (imps : List TEntry) : Nat → Nat → Nat → List Stretch
  | 0, _, _ => []
  | fuel + 1, a, n =>
    if n = 0 then []
    else match imps.find? fun t => t.base ≤ a && a < t.base + t.size with
      | some t =>
        let l := min n (t.base + t.size - a)
        { addr := a, len := l, goes := some (BitVec.ofNat 12 t.node, t.remote + (a - t.base)) } :: cutImports imps fuel (a + l) (n - l)
      | none =>
        let l := ((imps.filter fun t => a < t.base).map fun t => t.base - a).foldl min n
        { addr := a, len := l, goes := none } :: cutImports imps fuel (a + l) (n - l)

/-- Stretches to other nodes in requests of at most 256 bytes (R248). -/
def cutRequests (x : Stretch) : List Stretch :=
  match x.goes with
  | none => [x]
  | some (node, r) =>
    (List.range (ceilDiv x.len 256)).map fun i =>
      { addr := x.addr + 256 * i, len := min 256 (x.len - 256 * i), goes := some (node, r + 256 * i) }

def Dev.stretches (d : Dev) (a n : Nat) : List Stretch :=
  let imps := d.imports
  (cutImports imps (2 * imps.length + 1) a n).flatMap cutRequests

/-! ### One part, at one place -/

/-- The initiator is the host or a Saeri peer (R307): by itself, or by the endpoint of a packet. -/
def Origin.isExt : Origin → Bool
  | .host | .saeri _ => true
  | .noc pkt => 13 ≤ endPort pkt.src
  | _ => false

/-- The initiator is told of a refused write to an active bank, and it is counted (R194). A packet of a core that names a round is its
store engine's. (DEDUCED, log entry 41) -/
def Origin.counted : Origin → Bool
  | .host | .saeri _ | .fabric _ _ _ => true
  | .noc pkt => (coreOfEnd pkt.src).isNone || pkt.rslot == 0x7F
  | _ => false

/-- A read of memory proper for an initiator. -/
def Dev.readFor (d : Dev) (o : Origin) (a n : Nat) : Status × List Byte × Dev :=
  match d.readerCore o with
  | some core => d.readCached core a n
  | none => d.readMem a n

/-- A write that lands in protected inputs is dropped: a descriptor's fails the descriptor or, over the network, the round its packet
names; any other fails the rounds that declared them (R147). -/
def Dev.inputWrite (d : Dev) (o : Origin) (rs : List RoundNo) : Dev :=
  match o with
  | .engine _ _ _ => d
  | .noc pkt => match d.slotRound pkt.rslot.toNat with | some r => d.raise r.number .inputWrite | none => d.failInputs rs
  | _ => d.failInputs rs

/-- A write of memory proper for an initiator. -/
def Dev.writeFor (d : Dev) (o : Origin) (a : Nat) (b : List Byte) : Status × Dev :=
  if d.bankBusy a b.length then (.accessActive, if o.counted then d.bump 0x3081 3 1 else d) else d.writeMem a b

/-- The port that a part is delivered to (R311): it must lie in one claimed slice. -/
def Dev.userPort (d : Dev) (a n : Nat) : Option Nat :=
  if (a - userBase) / 0x100000000 = (a + n - 1 - userBase) / 0x100000000 then d.sliceOwner a else none

/-- The command word that a part delivered into user space carries (R301, R311): READ or WRITE with its initiator's TAG, its round and that
round's attempt. An initiator whose commands have no TAG is given the number of its access. (DESIGN CHOICE, log entry 40) -/
def Dev.deliveryWord (d : Dev) (o : Origin) (p : Part) : BitVec 128 :=
  let tag : BitVec 6 := match o with
    | .fabric _ _ cmd => cmd.tag
    | .noc pkt => pkt.tag.truncate 6
    | .saeri pkt => pkt.tag.truncate 6
    | _ => BitVec.ofNat 6 p.id
  let of : BitVec 36 := match (d.originRound o).bind d.round? with
    | some r => (1 : BitVec 1) ++ BitVec.ofNat 3 (min r.attempt 7) ++ r.number
    | none => 0
  (if p.data.isSome then 0x2 else 0x1 : BitVec 4) ++ of ++ tag ++ BitVec.ofNat 8 (p.len - 1) ++ (0 : BitVec 22) ++ BitVec.ofNat 52 p.addr

/-- A part that finds its memory ready is performed: a write into a protected input is dropped (R147). -/
def Dev.perform (fz : Fuses) (d : Dev) (o : Origin) (p : Part) : Dev :=
  let ks := d.partPackets o p
  match p.data with
  | none =>
    match d.regionOfRange p.addr p.len with
    | .sequencer => let r := d.seqRead (p.addr - seqBase) p.len; d.answerPart ks p r.1 r.2
    | .mirror => let r := d.mirrorRead fz (p.addr - mirrorBase) p.len; r.2.2.answerPart ks p r.1 r.2.1
    | _ => let r := d.readFor o p.addr p.len; r.2.2.answerPart ks p r.1 r.2.1
  | some b =>
    match d.protectors p.addr p.len with
    | [] =>
      match d.regionOfRange p.addr p.len with
      | .sequencer => let r := d.seqWrite (p.addr - seqBase) b o.isExt; r.2.answerPart ks p r.1 []
      | .mirror => let r := d.mirrorWrite fz (p.addr - mirrorBase) b; r.2.answerPart ks p r.1 []
      | _ => let r := d.writeFor o p.addr b; r.2.answerPart ks p r.1 []
    | rs => (d.inputWrite o rs).answerPart ks p .inputWrite []

/-- A part is served where it lies (R18 to R23, R219, R311): once the cluster it addresses is in P0, once HBM is trained. -/
def Dev.serve (fz : Fuses) (d : Dev) (o : Origin) (p : Part) : Dev :=
  match d.regionOfRange p.addr p.len with
  | .reserved => d.partDone p .address (deadBytes p.addr p.len)
  | .hbm => if d.hbm.trained then d.perform fz o p else { d with hbm := { d.hbm with waiting := d.hbm.waiting ++ [p] } }
  | .scratch _ | .tile _ | .rk _ =>
    match d.sleeping? p.addr p.len with
    | some c => (d.requestWake c).updCluster c fun k => { k with waiting := k.waiting ++ [p] }
    | none => d.perform fz o p
  | .sequencer | .mirror => d.perform fz o p
  | .user =>
    match (if p.data.isSome then d.protectors p.addr p.len else []), d.userPort p.addr p.len with
    | [], some n =>
      let d1 := match d.originRound o with | some r => d.dependOn r n | none => d
      d1.updFab n fun f => { f with delivered := f.delivered ++ [(d.deliveryWord o p, p)] }
    | [], none => d.partDone p .address (deadBytes p.addr p.len)
    | rs, _ => (d.inputWrite o rs).partDone p .inputWrite []

/-- A part of this device goes to its place over the network: one that no link carries fails (R233). -/
def Dev.servePart (fz : Fuses) (d : Dev) (o : Origin) (p : Part) : Dev :=
  let r := d.crossAll (d.partPackets o p)
  if r.1 then r.2.serve fz o p else r.2.partDone p .hwUncorrectable (deadBytes p.addr p.len)

/-- A part goes to another node (R248, R250). -/
def Dev.sendPart (d : Dev) (o : Origin) (node : NodeId) (r : Nat) (p : Part) : Dev :=
  let ks := d.remotePackets o node p
  if (topoOf (d.obj 0x4111 1)).pos? node.toNat = none then d.partDone p .address (deadBytes p.addr p.len)
  else if d.nodeLost node then d.partDone p .peerLost (deadBytes p.addr p.len)
  else if !(d.crossAll ks).1 then (d.crossAll ks).2.partDone p .hwUncorrectable (deadBytes p.addr p.len)
  else let d := (d.crossAll ks).2; match p.data with
    | none => (d.bump 0x3110 1 p.len).saeriRequest node 0x01 r p.len [] (.part p)
    | some b => (d.bump 0x3110 2 p.len).saeriRequest node 0x02 r p.len b (.part p)

/-! ### Whole accesses -/

/-- Fabric user space takes at most 256 bytes in one command (R311). -/
def Dev.cutUser (d : Dev) (x : Stretch) : List Stretch :=
  if x.goes.isNone ∧ d.regionOfRange x.addr x.len = .user ∧ (d.userPort x.addr x.len).isSome then
    (List.range (ceilDiv x.len 256)).map fun i => { addr := x.addr + 256 * i, len := min 256 (x.len - 256 * i), goes := none }
  else [x]

/-- Bytes of an access entered in its initiator's record (R238). Accesses to the core's own tile memory do not reach the network.
(DEDUCED, log entry 41) -/
def Dev.netCount (d : Dev) (a : Access) : Dev :=
  let own (n : Nat) : Bool := match d.regionOf a.addr with | .tile k => k == n | .rk k => k == n | _ => false
  let key := match a.origin with
    | .host => some 416
    | .fabric core _ _ => if own core.toNat then none else some (3 * core.toNat + 2)
    | .engine k _ _ => match d.desc? k with
      | some x => if own x.core then none else some (3 * x.core + if a.data.isNone then 0 else 1)
      | none => none
    | _ => none
  match key with
  | none => d
  | some k => d.statAdd k a.data.isSome a.len none

/-- Where some packet of a stretch finds no link, each packet is a part of its own (R233). -/
def Dev.cutDead (d : Dev) (a : Access) (x : Stretch) : List Stretch :=
  let p : Part := { id := 0, off := 0, addr := x.addr, len := x.len, data := a.data }
  if x.goes.isNone ∧ (d.partPackets a.origin p).any d.pathDead then
    (packetRanges x.addr x.len).map fun q => { addr := q.1, len := q.2, goes := none }
  else [x]

/-- The stretches of an access: none is performed where it lies partly in reserved space (R22); else it is cut at the ends of import pages
where `out` says that it passes them (R246). -/
def Dev.cuts (d : Dev) (out : Bool) (a : Access) : List Stretch :=
  let whole : Stretch := { addr := a.addr, len := a.len, goes := none }
  if d.regionOfRange a.addr a.len = .reserved then [whole]
  else ((if out then d.stretches a.addr a.len else [whole]).flatMap d.cutUser).flatMap (d.cutDead a)

/-- Issues an access: every part is sent to its place. -/
def Dev.issueAs (fz : Fuses) (d : Dev) (out : Bool) (a : Access) : Dev :=
  if a.len = 0 then d.reply a .done []
  else
    let xs := d.cuts out a
    let o : OpenAccess := { id := d.nextAccess, access := a, parts := xs.length, status := .done, data := List.replicate a.len 0 }
    let d0 := d.netCount a
    let d1 : Dev := { d0 with accesses := d0.accesses ++ [o], nextAccess := d0.nextAccess + 1 }
    xs.foldl
      (fun d x =>
        let p : Part := { id := o.id, off := x.addr - a.addr, addr := x.addr, len := x.len,
                          data := a.data.map fun b => slice b (x.addr - a.addr) x.len }
        match x.goes with
        | some (node, r) => d.sendPart a.origin node r p
        | none => d.servePart fz a.origin p)
      d1

/-- An access of an initiator of this device (R246). -/
def Dev.issue (fz : Fuses) (d : Dev) (a : Access) : Dev := d.issueAs fz true a
/-- An access that arrives from a peer or over the network: it passes no import. -/
def Dev.issueHere (fz : Fuses) (d : Dev) (a : Access) : Dev := d.issueAs fz false a

/-- A held part goes on: its access is still open. -/
def Dev.resumePart (fz : Fuses) (d : Dev) (p : Part) : Dev :=
  match d.accesses.find? fun o => o.id = p.id with
  | some o => d.serve fz o.access.origin p
  | none => d

/-- The accesses that waited for a cluster (R23), or for HBM training (R219), are performed. -/
def Dev.drainCluster (fz : Fuses) (d : Dev) (c : Nat) : Dev :=
  (d.cluster c).waiting.foldl (fun e p => e.resumePart fz p) (d.updCluster c fun k => { k with waiting := [] })
def Dev.drainHbm (fz : Fuses) (d : Dev) : Dev :=
  d.hbm.waiting.foldl (fun e p => e.resumePart fz p) { d with hbm := { d.hbm with waiting := [] } }

/-! ### Reads by the engines and the Sequencer -/

/-- A read answered in the step that makes it: no import, memory proper, awake and trained; or the Sequencer range, or reserved
space. -/
def Dev.syncServe (d : Dev) (o : Origin) (a n : Nat) : Option (Status × List Byte × Dev) :=
  if d.regionOfRange a n = .reserved then some (.address, deadBytes a n, d)
  else if d.imports.any fun t => overlaps a n t.base t.size then none
  else match d.regionOfRange a n with
    | .hbm => if d.hbm.trained then some (d.readFor o a n) else none
    | .scratch _ | .tile _ | .rk _ => if (d.sleeping? a n).isNone then some (d.readFor o a n) else none
    | .sequencer => let r := d.seqRead (a - seqBase) n; some (r.1, r.2, d)
    | _ => none

/-- Such a read with its way over the network and back. -/
def Dev.syncRead (d : Dev) (o : Origin) (a n : Nat) : Option (Status × List Byte × Dev) :=
  let ks := d.partPackets o { id := d.nextAccess, off := 0, addr := a, len := n, data := none }
  let go := d.crossAll ks
  match go.2.syncServe o a n with
  | none => none
  | some r =>
    let back := r.2.2.crossAll (ks.map fun k => nocAnswer k r.1 [])
    some (if go.1 && back.1 then (r.1, r.2.1, back.2) else (.hwUncorrectable, deadBytes a n, if go.1 then back.2 else go.2))

/-- The bytes [a, a + n) of a list of cells, if all are there. -/
def cellsGet (m : List Host.Cell) (a n : Nat) : Option (List Byte) :=
  let l := (List.range n).filterMap fun i => tabFind m (a + i)
  if l.length = n then some l else none

/-- What a read by an engine or the Sequencer gives now: its data, or nothing yet. -/
inductive Got where
  | wait (d : Dev)
  | got (st : Status) (b : List Byte) (d : Dev)

/-- Cells that have arrived for an origin, and the status of a failed fetch. -/
def Dev.arrived (d : Dev) (o : Origin) : List Host.Cell :=
  match o with
  | .engine key _ _ => ((d.desc? key).map Desc.remote).getD []
  | .fetch s => (d.stream s).remote
  | _ => []
def Dev.failedFetch (d : Dev) (o : Origin) : Option Status := match o with | .fetch s => (d.stream s).remoteStatus | _ => none

/-- A read by an engine or the Sequencer. What cannot be answered at once is requested, and the command that reads goes on when it is
given again. -/
def Dev.tryRead (fz : Fuses) (d : Dev) (o : Origin) (a n : Nat) : Got :=
  if n = 0 then .got .done [] d
  else match d.failedFetch o with
    | some st => .got st (deadBytes a n) d
    | none =>
      match cellsGet (d.arrived o) a n with
      | some b => .got .done b d
      | none =>
        match d.syncRead o a n with
        | some r => .got r.1 r.2.1 (r.2.2.netCount { origin := o, addr := a, len := n, data := none })
        | none =>
          if d.accesses.any fun x => x.access.origin = o ∧ x.access.addr = a ∧ x.access.len = n ∧ x.access.data.isNone then .wait d
          else
            let d1 := d.issue fz { origin := o, addr := a, len := n, data := none }
            match cellsGet (d1.arrived o) a n with
            | some b => .got .done b d1
            | none => match d1.failedFetch o with
              | some st => .got st (deadBytes a n) d1
              | none => .wait d1

end Sys2Proof.Machine
end

