-- ==== Sys2Proof/Machine/Peers.lean ====
section
/-! DEFINITION. What arrives from Saeri peers and is served here (R248 to R251, R362), and the switch to new routes (R256). -/

namespace Sys2Proof.Machine

/-- A packet for this node is taken from its receive slot. -/
def Dev.saeriTake (d : Dev) (k : SaeriPkt) : Dev :=
  match d.saeri.inbox.find? fun e => e.2 = k with
  | none => d
  | some e => Dev.freeSlot { d with saeri := { d.saeri with inbox := d.saeri.inbox.erase e } } e.1 (saeriClass k.op)

def saeriLen (k : SaeriPkt) : Nat := k.lenm1.toNat + 1

/-- A request of a node must follow an earlier one of that node: a flag add every write, others what touches a 64-byte piece of theirs
(R133, R249). -/
def saeriFollows (k e : SaeriPkt) : Bool :=
  let span (p : SaeriPkt) : Nat × Nat := (p.addr.toNat / 64, (p.addr.toNat + p.lenm1.toNat) / 64)
  let mem (p : SaeriPkt) : Bool := p.op == 0x01 || p.op == 0x02
  e.snode == k.snode && ((k.op == 0x05 && e.op == 0x02)
    || (mem k && mem e && (span e).1 ≤ (span k).2 && (span k).1 ≤ (span e).2))

/-- Requests that have arrived before a packet: those of the inbox before it, and those not yet answered. -/
def Dev.saeriBefore (d : Dev) (k : SaeriPkt) : List SaeriPkt :=
  (d.saeri.inbox.map Prod.snd).takeWhile (fun e => e != k)
    ++ d.accesses.filterMap fun o => match o.access.origin with | .saeri e => some e | _ => none

/-- A packet of an operation for this node arrives, in its order. -/
def Dev.saeriArrive (d : Dev) (k : SaeriPkt) (op : BitVec 6) (f : Dev → Dev) : Dev :=
  if k.op ≠ op ∨ k.dnode ≠ d.nodeId ∨ (d.saeriBefore k).any (fun e => saeriFollows k e) then d else f (d.saeriTake k)

/-- One export covers every byte and lets this node do it (R250). (DEDUCED, log entry 38) -/
def Dev.mayPeer (d : Dev) (k : SaeriPkt) (right : TEntry → Bool) : Bool :=
  d.exports.any fun t => t.base ≤ k.addr.toNat && k.addr.toNat + saeriLen k ≤ t.base + t.size && right t && (t.any || t.node == k.snode.toNat)

/-- A read request. -/
def saeriRead (fz : Fuses) (k : SaeriPkt) (d : Dev) : Dev :=
  d.saeriArrive k 0x01 fun d =>
    if d.mayPeer k TEntry.rd then d.issueHere fz { origin := .saeri k, addr := k.addr.toNat, len := saeriLen k, data := none }
    else d.saeriAnswer k .address (deadBytes k.addr.toNat (saeriLen k))

/-- A write request. -/
def saeriWrite (fz : Fuses) (k : SaeriPkt) (d : Dev) : Dev :=
  if k.data.length < saeriLen k then d
  else d.saeriArrive k 0x02 fun d =>
    if d.mayPeer k TEntry.wr then
      d.issueHere fz { origin := .saeri k, addr := k.addr.toNat, len := saeriLen k, data := some (slice k.data 0 (saeriLen k)) }
    else d.saeriAnswer k .address []

/-- The request that a response answers. -/
def Dev.reqOf (d : Dev) (k : SaeriPkt) : Option SaeriReq := d.saeri.outstanding.find? fun q => q.tag == k.tag && q.node == k.snode

/-- A response; one that no request waits for is discarded. LINK_LOST with the tag of a notice fails that notice's round (R289). -/
def saeriResponse (k : SaeriPkt) (op : BitVec 6) (d : Dev) : Dev :=
  d.saeriArrive k op fun d =>
    match d.reqOf k with
    | none =>
      if Status.ofCode k.status.toNat = .linkLost then
        ([0x06, 0x07, 0x09].filter fun o => noticeTag o == k.tag).foldl (fun d o => d.lostNotice o k.addr.toNat) d
      else d
    | some q => if q.isRead = (op == 0x03) then d.saeriEnd q (Status.ofCode k.status.toNat) (slice k.data 0 q.len) else d

/-- A remote flag add is accepted from any node of Topology and needs no export (R251). (DESIGN CHOICE, log entry 39) -/
def saeriFlagAdd (k : SaeriPkt) (d : Dev) : Dev :=
  d.saeriArrive k 0x05 fun d =>
    if ((topoOf (d.obj 0x4111 1)).pos? k.snode.toNat).isSome then
      (flagAdd (bits k.addr.toNat 11 0) (BitVec.ofNat 32 (field k.data 0 4)) d).saeriAnswer k .done []
    else d.saeriAnswer k .address []

/-- A request is still held here: nothing of it has been sent (R256). -/
def Dev.unsent (d : Dev) (q : SaeriReq) : Bool := d.saeri.heldOut.any fun k => k.tag == q.tag && k.dnode == q.node && saeriClass k.op == 2

/-- The device switches to its new routes once every request that it has sent is answered (R256). NodeState follows the new table: a listed node
that had joined or departed counts by its route again, unless it is a neighbour no port to which is up. (DEDUCED, log entry 68; DESIGN CHOICE, log
entry 91) -/
def routeSwitch (d : Dev) : Dev :=
  if !d.saeri.switching ∨ d.saeri.outstanding.any (fun q => !d.unsent q) then d
  else
    let t := topoOf (d.obj 0x4111 1)
    Dev.sendHeld { d with saeri := { d.saeri with
      switching := false, routeTopo := d.obj 0x4111 1, routeRole := d.obj 0x4111 2
      departed := d.saeri.departed.filter fun n => (t.pos? n.toNat).isNone || d.stillGone t (d.obj 0x4111 2) n
      nodeState := d.saeri.nodeState.filter fun e => (t.pos? e.1).isNone } }

/-! ### The commands -/

/-- SAERI_READ (R285). -/
def execSaeriRead (pkt : SaeriPkt) (s : State) : Host.Outcome State Fault Refusal := s.onClock (saeriRead s.fuses pkt)
/-- SAERI_WRITE (R285). -/
def execSaeriWrite (pkt : SaeriPkt) (s : State) : Host.Outcome State Fault Refusal := s.onClock (saeriWrite s.fuses pkt)
/-- SAERI_READ_DATA (R285). -/
def execSaeriReadData (pkt : SaeriPkt) (s : State) : Host.Outcome State Fault Refusal := s.onClock (saeriResponse pkt 0x03)
/-- SAERI_WRITE_ACK (R285). -/
def execSaeriWriteAck (pkt : SaeriPkt) (s : State) : Host.Outcome State Fault Refusal := s.onClock (saeriResponse pkt 0x04)
/-- SAERI_FLAG_ADD (R251). -/
def execSaeriFlagAdd (pkt : SaeriPkt) (s : State) : Host.Outcome State Fault Refusal := s.onClock (saeriFlagAdd pkt)
/-- SAERI_MANAGEMENT (R362). No fuse can be blown over Saeri. -/
def execSaeriManagement (pkt : SaeriPkt) (s : State) : Host.Outcome State Fault Refusal :=
  s.onClock fun d => d.saeriArrive pkt 0x08 fun d =>
    if d.served (.saeri pkt.snode) then (frameIn s.fuses d (.saeri pkt.snode) (bytesFrame (slice pkt.data 0 (saeriLen pkt)))).2 else d
/-- ROUTE_SWITCH (R256). -/
def execRouteSwitch (s : State) : Host.Outcome State Fault Refusal := s.onClock routeSwitch

end Sys2Proof.Machine
end

