-- ==== Sys2Proof/Machine/Board.lean ====
section
/-! DEFINITION. Resets, clocks, rails and pins (R371, R418 to R421), the commands of configuration and start-up (R319 to R345), the end
of a wake (R372), and quiescence notices of peers (R151). -/

namespace Sys2Proof.Machine

def Dev.updPins (d : Dev) (f : Pins → Pins) : Dev := { d with pins := f d.pins }

/-- The pins when RESET_N rises: straps sampled, DONE low, no thermal trip, the PLL not yet locked (R371, R417, R418). -/
def Pins.resetRise (p : Pins) (straps : Straps) : Pins :=
  { p with powered := true, vddIo := true, straps := straps, doneReleased := false, thermTrip := false, pllLocked := false, clocks := false,
           oscillator := false }

/-- POWER_ON: the rails come up in order after having been down. Without VBATT the battery-backed key is lost (R323, R420). -/
def powerOn (straps : Straps) (d : Dev) : Dev :=
  let d1 := (d.deviceReset 0).updPins fun p => p.resetRise straps
  { d1 with bbramKey := if d.pins.vbatt then d.bbramKey else none }

/-- RAIL_FAULT: more than 1 µs out of range resets as at power-on. Without VDD_IO and VBATT the key is lost (R323, R421).
(DESIGN CHOICE, log entry 26) -/
def railFault (rail : Rail) (lowNs : Nat) (d : Dev) : Dev :=
  if lowNs ≤ 1000 then d
  else
    let io := rail = .vddIo
    let d1 := (d.deviceReset 0).updPins fun p => { p.resetRise p.straps with vddIo := !io }
    { d1 with bbramKey := if io ∧ !d.pins.vbatt then none else d.bbramKey }

/-- DEVICE_RESET: after a thermal trip ResetCause reads 4 (R381, R418). (DEDUCED, log entry 27) -/
def resetPin (straps : Straps) (d : Dev) : Dev := (d.deviceReset (if d.pins.thermTrip then 4 else 1)).updPins fun p => p.resetRise straps

/-- PLL_LOCK: the clocks start; after a clock loss the device resets as by Reprogram. After a thermal trip nothing starts (R371, R381). -/
def pllLock (d : Dev) : Dev :=
  if d.pins.thermTrip ∨ d.pins.pllLocked then d
  else
    let start (p : Pins) : Pins := { p with pllLocked := true, clocks := true, oscillator := false }
    if d.pins.oscillator then (d.reprogram 3).updPins start else d.updPins start

/-- CLOCK_LOSS: the clocks stop, the management controller runs on its oscillator, DONE goes low (R371). -/
def clockLoss (d : Dev) : Dev :=
  if d.pins.clocks then d.updPins fun p => { p with pllLocked := false, clocks := false, oscillator := true, doneReleased := false } else d

/-- FULL_LOAD (R326, R328). -/
def fullLoad (d : Dev) : Dev := if d.cfg.state = 0 then d.updCfg fun c => { c with started := true } else d

/-- Whether a source may bring the next unit of a load: the internal port only while ready, ConfigStream only where no writer of it brings the load by
bytes. -/
def Dev.mayBring (d : Dev) (src : LoadSource) : Bool :=
  match src with
  | .icp => d.icpReady
  | .configStream => match d.cfg.load with | some l => l.feeder.isNone | none => true
  | .flash => true

/-- STREAM_HEADER. -/
def streamHeader (fz : Fuses) (src : LoadSource) (b : List Byte) (d : Dev) : Dev :=
  if b.length = 64 ∧ d.mayBring src then d.takeHeader fz src none b else d

/-- The unit that a load expects next arrives. -/
def Dev.loadUnit (d : Dev) (b : List Byte) (n : Nat) (f : Dev → Dev) : Dev :=
  match d.cfg.load with
  | some l => if b.length = n ∧ d.mayBring l.src then f d else d
  | none => d

/-- CLEAR_DONE: the columns are clear; what ConfigStream has brought meanwhile goes on (R335). -/
def clearDone (fz : Fuses) (d : Dev) : Dev :=
  match d.cfg.load with
  | some l =>
    if l.clearing then
      let d1 := d.updCfg fun c => { c with load := some { l with clearing := false } }
      match l.feeder with
      | some who => d1.passStream fz who []
      | none => d1
    else d
  | none => d

/-- ICP_ABORT: the active load ends with TRUNCATED, unless the internal port is isolated (R341, R344). (DEDUCED, log entry 29) -/
def icpAbort (d : Dev) : Dev := if d.cfg.load.isSome ∧ d.cfg.state = 5 ∧ !d.isolated 0 then d.truncate else d

/-- HBM_TRAINING_DONE: step 4 of start-up ends, and what waited for it is served (R219, R220, R332). -/
def hbmTrainingDone (fz : Fuses) (failed : List Nat) (d : Dev) : Dev :=
  if d.cfg.state = 4 ∧ d.cfg.phase = 4 then (d.trained failed).drainHbm fz else d

/-- WAKE_COMPLETE: the exit of a cluster whose slot was granted has taken its time (R372, R377). -/
def wakeComplete (fz : Fuses) (c ns : Nat) (d : Dev) : Dev :=
  let k := d.cluster c
  if k.granted ∧ exitNs k.state (!k.noRetention) ≤ ns then (d.wakeDone c).drainCluster fz c else d

/-- VBATT_REMOVAL (R323). -/
def vbattRemoval (d : Dev) : Dev :=
  let d1 := d.updPins fun p => { p with vbatt := false }
  if d.pins.vddIo then d1 else { d1 with bbramKey := none }

/-- CAN_ERROR_FRAME (R366). -/
def canErrorFrame (d : Dev) : Dev := d.when (d.pins.clocks || d.pins.oscillator) fun d => d.bumpSat32 0x1120 2

/-- QUIESCENCE_NOTICE: set or withdrawn for a round (R151, R285). -/
def quiescenceNotice (k : SaeriPkt) (d : Dev) : Dev :=
  d.saeriArrive k 0x09 fun d =>
    let e : RoundNo × NodeId := (BitVec.ofNat 32 (bits k.addr.toNat 31 0), k.snode)
    let rest := d.saeri.notices.filter fun q => q ≠ e
    { d with saeri := { d.saeri with notices := if bit k.addr.toNat 32 then rest ++ [e] else rest } }

/-! ### The commands -/

/-- POWER_ON (R420). -/
def execPowerOn (straps : Straps) (s : State) : Host.Outcome State Fault Refusal := s.onDev (powerOn straps)
/-- RAIL_FAULT (R421). -/
def execRailFault (rail : Rail) (lowNs : Nat) (s : State) : Host.Outcome State Fault Refusal := s.onDev (railFault rail lowNs)
/-- DEVICE_RESET (R418). -/
def execDeviceReset (straps : Straps) (s : State) : Host.Outcome State Fault Refusal := s.onDev (resetPin straps)
/-- PLL_LOCK (R371). -/
def execPllLock (s : State) : Host.Outcome State Fault Refusal := s.onDev pllLock
/-- CLOCK_LOSS (R371). -/
def execClockLoss (s : State) : Host.Outcome State Fault Refusal := s.onDev clockLoss
/-- FULL_LOAD (R328). -/
def execFullLoad (s : State) : Host.Outcome State Fault Refusal := s.onClock fullLoad
/-- STREAM_HEADER (R319). -/
def execStreamHeader (src : LoadSource) (bytes : List Byte) (s : State) : Host.Outcome State Fault Refusal :=
  s.onClock (streamHeader s.fuses src bytes)
/-- CLEAR_DONE (R335). -/
def execClearDone (s : State) : Host.Outcome State Fault Refusal := s.onClock (clearDone s.fuses)
/-- FRAME_RECORD (R321). -/
def execFrameRecord (bytes : List Byte) (s : State) : Host.Outcome State Fault Refusal :=
  s.onClock fun d => d.loadUnit bytes 576 fun d => d.takeFrame s.fuses bytes
/-- STREAM_TAG (R321). -/
def execStreamTag (bytes : List Byte) (s : State) : Host.Outcome State Fault Refusal :=
  s.onClock fun d => d.loadUnit bytes 16 fun d => d.takeTag s.fuses bytes
/-- ICP_ABORT (R341). -/
def execIcpAbort (s : State) : Host.Outcome State Fault Refusal := s.onClock icpAbort
/-- DONE_HIGH (R331). -/
def execDoneHigh (s : State) : Host.Outcome State Fault Refusal := s.onClock doneHigh
/-- STARTUP_STEP_END (R332). -/
def execStartupStepEnd (s : State) : Host.Outcome State Fault Refusal := s.onClock startupStepEnd
/-- HBM_TRAINING_DONE (R219). -/
def execHbmTrainingDone (failed : List PcId) (s : State) : Host.Outcome State Fault Refusal :=
  s.onClock (hbmTrainingDone s.fuses (failed.map BitVec.toNat))
/-- SCRUB_PASS (R343). -/
def execScrubPass (die : BitVec 1) (s : State) : Host.Outcome State Fault Refusal := s.onClock (scrubPass die.toNat)
/-- SCRUB_FRAME (R343). -/
def execScrubFrame (frame : FAddr) (obs : ScrubObs) (s : State) : Host.Outcome State Fault Refusal := s.onClock (scrubFrame frame.toNat obs)
/-- WAKE_COMPLETE (R372). -/
def execWakeComplete (cluster : ClusterId) (exitNs : Nat) (s : State) : Host.Outcome State Fault Refusal :=
  s.onClock (wakeComplete s.fuses cluster.toNat exitNs)
/-- VBATT_REMOVAL (R323). -/
def execVbattRemoval (s : State) : Host.Outcome State Fault Refusal := s.onDev vbattRemoval
/-- CAN_ERROR_FRAME (R366). -/
def execCanErrorFrame (s : State) : Host.Outcome State Fault Refusal := s.onDev canErrorFrame
/-- QUIESCENCE_NOTICE (R151). -/
def execQuiescenceNotice (pkt : SaeriPkt) (s : State) : Host.Outcome State Fault Refusal := s.onClock (quiescenceNotice pkt)

end Sys2Proof.Machine
end

