-- ==== Sys2Proof/Machine/Fabric.lean ====
section
/-! DEFINITION. The fabric ports (R301 to R312): the commands of fabric logic, its answers to what is delivered into user space, and the
host port's requests and losses (R402 to R404). -/

namespace Sys2Proof.Machine

/-! ### Acceptance and refusals (R301, R302, R306) -/

/-- The OP and the fields of a command word (R301). -/
def fabDecode (w : BitVec 128) (beats : List Byte) : BitVec 4 × FabCmd :=
  let f (lo n : Nat) : BitVec n := BitVec.extractLsb' lo n w
  (f 124 4, { rvalid := w.getLsbD 123, attempt := f 120 3, round := f 88 32, tag := f 82 6, lenm1 := f 74 8, rsvd := f 52 22, addr := f 0 52,
              beats := beats })

/-- A word whose OP no operation has: 0x0 and 0x7 to 0xF (R302, R303). -/
def fabReserved (op : BitVec 4) : Bool := op == 0 || 6 < op.toNat

/-- The port takes a command: it works, holds fewer than 64, its tag is free and the beats are all there. -/
def Dev.accepts (d : Dev) (core : Nat) (cmd : FabCmd) (beats : Nat) : Bool :=
  let p := (d.core core).port
  d.portLive core && decide (p.outstanding.length < 64) && !(p.outstanding.any fun o => o.2.tag == cmd.tag)
    && cmd.beats.length == 64 * beats

/-- Why a command of a round is refused, if it is (R306): the status with which its attempt aborted. An attempt that has not begun has none.
(DESIGN CHOICE, log entry 97) -/
def Dev.staleCmd (d : Dev) (cmd : FabCmd) : Option Status :=
  if !cmd.rvalid then none
  else match d.round? cmd.round with
    | none => some .badDescriptor
    | some r =>
      if r.phase = .running ∧ cmd.attempt.toNat = min r.attempt 7 then none
      else match r.endings.find? fun e => cmd.attempt.toNat = min e.1 7 with
        | some e => some e.2
        | none => some .badDescriptor

/-- A command is answered at once. -/
def Dev.fabAnswer (d : Dev) (core : Nat) (op : BitVec 4) (cmd : FabCmd) (st : Status) (h : BitVec 3) (result : BitVec 52) : Dev :=
  d.updFab core fun p => p.answer op cmd.tag st h result []

/-- A word with a reserved OP is answered with BAD_DESCRIPTOR (R303). -/
def Dev.fabBadOp (d : Dev) (core : Nat) (op : BitVec 4) (cmd : FabCmd) : Dev :=
  if d.accepts core cmd (cmd.beats.length / 64) then d.fabAnswer core op cmd .badDescriptor 0 0 else d

/-- A command word arrives at a port with its beats: `f` is the operation of the command's row. A word of another operation is not that
command. -/
def Dev.fabWord (d : Dev) (core : Nat) (row : BitVec 4) (w : FabWord) (f : FabCmd → Dev → Dev) : Dev :=
  let c := fabDecode w.word w.beats
  if c.1 = row then f c.2 d else if fabReserved c.1 then d.fabBadOp core c.1 c.2 else d

/-- What every command meets first: acceptance, unused fields that must be 0, a round that is not open or has moved on. -/
def Dev.fabFront (d : Dev) (core : Nat) (op : BitVec 4) (cmd : FabCmd) (beats : Nat) (used : Bool) (f : Dev → Dev) : Dev :=
  if !d.accepts core cmd beats then d
  else if !used ∨ cmd.rsvd ≠ 0 then d.fabAnswer core op cmd .badDescriptor 0 0
  else match d.staleCmd cmd with
    | some st => d.fabAnswer core op cmd st 0 0
    | none => f (if cmd.rvalid then d.dependOn cmd.round core else d)

/-- A command is outstanding. -/
def Dev.fabHold (d : Dev) (core : Nat) (op : BitVec 4) (cmd : FabCmd) : Dev :=
  d.updFab core fun p => { p with outstanding := p.outstanding ++ [(op, cmd)] }

/-! ### READ and WRITE (R305) -/

/-- Bytes that a command moves. -/
def fabBytes (c : FabCmd) : Nat := c.lenm1.toNat + 1

/-- READ and WRITE; one that crosses a 4 KiB boundary is refused. -/
def fabAccess (fz : Fuses) (core : CoreId) (op : BitVec 4) (cmd : FabCmd) (data : Option (List Byte)) (d : Dev) : Dev :=
  if cmd.addr.toNat / 4096 ≠ (cmd.addr.toNat + (fabBytes cmd) - 1) / 4096 then d.fabAnswer core.toNat op cmd .address 0 0
  else (d.fabHold core.toNat op cmd).issue fz { origin := .fabric core op cmd, addr := cmd.addr.toNat, len := (fabBytes cmd), data := data }

def fabRead (fz : Fuses) (core : CoreId) (cmd : FabCmd) (d : Dev) : Dev :=
  d.fabFront core.toNat 0x1 cmd 0 true (fabAccess fz core 0x1 cmd none)

def fabWrite (fz : Fuses) (core : CoreId) (cmd : FabCmd) (d : Dev) : Dev :=
  d.fabFront core.toNat 0x2 cmd (ceilDiv (fabBytes cmd) 64) true (fabAccess fz core 0x2 cmd (some (slice cmd.beats 0 (fabBytes cmd))))

/-! ### INJECT (R307) -/

/-- The ring is full (R128). -/
def Stream.full (x : Stream) : Bool := x.entries == 0 || (x.tail.toNat + 1) % x.entries == x.release.toNat

/-- A stream takes INJECTs: it is marked and enabled. -/
def Dev.injectOpen (d : Dev) (s : Nat) : Bool := d.fabricStream s && (d.stream s).enable

/-- A descriptor of an INJECT is on its way to a stream's ring. -/
def Dev.injecting (d : Dev) (s : Nat) : Bool :=
  d.accesses.any fun o => match o.access.origin with | .fabric _ op c => op == 0x3 && c.addr.toNat == s | _ => false

/-- An INJECT of a higher core has been appended in this cycle: one of a lower core belongs to the next (R307). -/
def Dev.injectLate (d : Dev) (core s : Nat) : Bool := match (d.stream s).injected with | some e => e.1 == d.cycles && core < e.2 | none => false

/-- Writes the descriptor to slot TAIL; its arrival advances TAIL. A full ring makes the command wait at the port. -/
def Dev.injectGo (fz : Fuses) (d : Dev) (core : CoreId) (cmd : FabCmd) : Dev :=
  let s := cmd.addr.toNat
  let x := d.stream s
  if x.full ∨ d.injecting s ∨ d.injectLate core.toNat s then d.updFab core.toNat fun p => { p with injects := p.injects ++ [cmd] }
  else
    let a : Access := { origin := .fabric core 0x3 cmd, addr := x.ringBase.toNat + 128 * x.tail.toNat, len := 128, data := some cmd.beats }
    (d.updStream s fun x => { x with injected := some (d.cycles, core.toNat) }).issue fz a

def fabInject (fz : Fuses) (core : CoreId) (cmd : FabCmd) (d : Dev) : Dev :=
  d.fabFront core.toNat 0x3 cmd 2 (cmd.lenm1 == 0 && cmd.addr.toNat < 256) fun d =>
    if !d.injectOpen cmd.addr.toNat then d.fabAnswer core.toNat 0x3 cmd .address 0 0
    else (d.fabHold core.toNat 0x3 cmd).injectGo fz core cmd

/-- The oldest waiting INJECT of a port whose stream has room is appended; one whose stream was disabled or lost its mark meanwhile is refused.
(DESIGN CHOICE, log entry 97) -/
def injectResume (fz : Fuses) (core : CoreId) (d : Dev) : Dev :=
  let ready (c : FabCmd) : Bool :=
    let x := d.stream c.addr.toNat
    !d.injectOpen c.addr.toNat || (!x.full && !d.injecting c.addr.toNat && !d.injectLate core.toNat c.addr.toNat)
  match (d.core core.toNat).port.injects.find? ready with
    | none => d
    | some c =>
      let d1 := d.updFab core.toNat fun p => { p with injects := p.injects.erase c }
      if d.injectOpen c.addr.toNat then d1.injectGo fz core c
      else if (d.core core.toNat).port.outstanding.contains (0x3, c) then d1.fabAnswer core.toNat 0x3 c .address 0 0
      else d1.updFab core.toNat fun p => { p with orphans := p.orphans.erase (0x3, c) }

/-! ### TAKE and RELEASE (R308, R309) -/

/-- The head handle may be taken on behalf of a round, or of none. -/
def Handle.takeable (h : Handle) (cmd : FabCmd) : Bool := h.committed || (cmd.rvalid && h.round == cmd.round)

def fabTake (core : CoreId) (cmd : FabCmd) (d : Dev) : Dev :=
  let n := core.toNat
  let q := cmd.addr.toNat
  d.fabFront n 0x4 cmd 0 (cmd.lenm1 == 0 && q < 16) fun d =>
    if !(d.ringCfg n q).port then d.fabAnswer n 0x4 cmd .badDescriptor 0 0
    else match (d.ring n q).queue with
      | [] => d.fabAnswer n 0x4 cmd .empty 0 0
      | h :: rest =>
        if h.takeable cmd then
          let d1 := d.updRing n q fun g =>
            { queue := rest, held := g.held ++ [{ handle := h, holder := .port cmd.rvalid cmd.round false false }] }
          d1.fabAnswer n 0x4 cmd .done (BitVec.ofNat 3 h.buf) (BitVec.ofNat 52 (d.bufAddr n q h.buf))
        else d.fabAnswer n 0x4 cmd .empty 0 0

/-- A buffer that the port holds and has not released. -/
def Held.ofPort (e : Held) (buf : Nat) : Bool :=
  e.handle.buf == buf && match e.holder with | .port _ _ released _ => !released | _ => false

/-- A released buffer is free at once if its take had no round or its round has committed; otherwise when that round commits. -/
def Held.release (e : Held) : Option Held :=
  match e.holder with
  | .port rv r _ done => if !rv || done then none else some { e with holder := .port rv r true done }
  | _ => some e

def fabRelease (core : CoreId) (cmd : FabCmd) (d : Dev) : Dev :=
  let n := core.toNat
  let q := bits cmd.addr.toNat 3 0
  let h := bits cmd.addr.toNat 6 4
  d.fabFront n 0x5 cmd 0 (cmd.lenm1 == 0 && cmd.addr.toNat < 128) fun d =>
    if (d.ring n q).held.any fun e => e.ofPort h then
      (d.updRing n q fun g => { g with held := g.held.filterMap fun e => if e.ofPort h then e.release else some e }).fabAnswer n 0x5 cmd .done 0 0
    else d.fabAnswer n 0x5 cmd .badDescriptor 0 0

/-! ### FLAGADD (R302, R250, R251) -/

def fabFlagadd (core : CoreId) (cmd : FabCmd) (d : Dev) : Dev :=
  let n := core.toNat
  let node : NodeId := BitVec.ofNat 12 (bits cmd.addr.toNat 23 12)
  let f := bits cmd.addr.toNat 11 0
  d.fabFront n 0x6 cmd 1 (cmd.lenm1 == 0 && cmd.addr.toNat < 2 ^ 24) fun d =>
    if d.isHere node then (flagAdd f (BitVec.ofNat 32 (field cmd.beats 0 4)) d).fabAnswer n 0x6 cmd .done 0 0
    else if (topoOf (d.obj 0x4111 1)).pos? node.toNat = none then d.fabAnswer n 0x6 cmd .address 0 0
    else if d.nodeLost node then d.fabAnswer n 0x6 cmd .peerLost 0 0
    else (d.fabHold n 0x6 cmd).saeriRequest node 0x05 f 4 (slice cmd.beats 0 4) (.flagAdd (some (core, cmd)))

/-! ### Delivered accesses (R303, R311, R312) -/

/-- OP and TAG of a command word, and of a response word (R301, R303). -/
def commandTag (w : BitVec 128) : BitVec 4 × BitVec 6 := (BitVec.extractLsb' 124 4 w, BitVec.extractLsb' 82 6 w)
def responseTag (w : BitVec 128) : BitVec 4 × BitVec 6 := (BitVec.extractLsb' 124 4 w, BitVec.extractLsb' 118 6 w)

/-- Fabric logic answers the oldest delivered command of the response word's OP and TAG; any status but DONE reaches the initiator as ADDRESS.
A READ answered with DONE must bring its beats: an answer without them is not taken. (DESIGN CHOICE, log entry 40) -/
def fabricResponse (core : Nat) (w : BitVec 128) (beats : List Byte) (d : Dev) : Dev :=
  match (d.core core).port.delivered.find? fun e => commandTag e.1 = responseTag w with
  | none => d
  | some (cw, p) =>
    let ok := BitVec.extractLsb' 110 8 w = 0
    if ok ∧ beats.length ≠ (if p.data.isNone then 64 * ceilDiv p.len 64 else 0) then d
    else
      let d1 := d.updFab core fun f => { f with delivered := f.delivered.erase (cw, p) }
      if ok then d1.partDone p .done (slice beats 0 p.len) else d1.partDone p .address (deadBytes p.addr p.len)

/-- A delivered command reaches FabricTimeout: it is answered as reserved space. -/
def fabricTimeout (core : Nat) (tag : BitVec 6) (waited : Nat) (d : Dev) : Dev :=
  match (d.core core).port.delivered.find? fun e => (commandTag e.1).2 = tag with
  | none => d
  | some (cw, p) =>
    if d.objNat 0x4130 2 ≤ waited then
      ((d.bump 0x3130 3 1).updFab core fun f => { f with delivered := f.delivered.erase (cw, p) }).partDone p .address (deadBytes p.addr p.len)
    else d

/-! ### The host port (R402 to R404) -/

/-- Every stream stops and every open round is to abort with HOST_ABORT. -/
def Dev.hostStops (d : Dev) : Dev :=
  let d1 : Dev := { d with streams := d.streams.map fun e => (e.1, { e.2 with enable := false }) }
  (d1.rounds.map Round.number).foldl (fun d n => hostAbort n d) d1

/-- The host link leaves L0. -/
def hostLinkDown (d : Dev) : Dev :=
  let d1 := d.bump 0x3170 7 1
  if d.objNat 0x2170 2 = 1 then d1.hostStops else d1

/-- The PCIe configuration space is reset. -/
def Dev.pcieReset (d : Dev) : Dev := { d with pins := { d.pins with pcieResets := d.pins.pcieResets + 1 } }

/-! ### The commands -/

/-- HOST_READ (R402). -/
def execHostRead (addr : BitVec 52) (len : Nat) (s : State) : Host.Outcome State Fault Refusal :=
  s.onClock fun d => d.issue s.fuses { origin := .host, addr := addr.toNat, len := len, data := none }
/-- HOST_WRITE (R402). -/
def execHostWrite (addr : BitVec 52) (bytes : List Byte) (s : State) : Host.Outcome State Fault Refusal :=
  s.onClock fun d => d.issue s.fuses { origin := .host, addr := addr.toNat, len := bytes.length, data := some bytes }
/-- HOST_LINK_DOWN (R403). -/
def execHostLinkDown (s : State) : Host.Outcome State Fault Refusal := s.onClock hostLinkDown
/-- FUNCTION_LEVEL_RESET (R404). -/
def execFunctionLevelReset (s : State) : Host.Outcome State Fault Refusal := s.onClock fun d => d.hostStops.pcieReset
/-- PCIE_PERST (R418): only the host port is reset. -/
def execPciePerst (s : State) : Host.Outcome State Fault Refusal := s.onDev fun d => { d.pcieReset with hostOut := [] }
/-- READ (R302, R305). -/
def execRead (core : CoreId) (cmd : FabWord) (s : State) : Host.Outcome State Fault Refusal :=
  s.onClock fun d => d.fabWord core.toNat 0x1 cmd (fabRead s.fuses core)
/-- WRITE (R302, R305). -/
def execWrite (core : CoreId) (cmd : FabWord) (s : State) : Host.Outcome State Fault Refusal :=
  s.onClock fun d => d.fabWord core.toNat 0x2 cmd (fabWrite s.fuses core)
/-- INJECT (R307). -/
def execInject (core : CoreId) (cmd : FabWord) (s : State) : Host.Outcome State Fault Refusal :=
  s.onClock fun d => d.fabWord core.toNat 0x3 cmd (fabInject s.fuses core)
/-- INJECT_RESUME (R307). -/
def execInjectResume (core : CoreId) (s : State) : Host.Outcome State Fault Refusal := s.onClock (injectResume s.fuses core)
/-- TAKE (R308). -/
def execTake (core : CoreId) (cmd : FabWord) (s : State) : Host.Outcome State Fault Refusal :=
  s.onClock fun d => d.fabWord core.toNat 0x4 cmd (fabTake core)
/-- RELEASE (R309). -/
def execRelease (core : CoreId) (cmd : FabWord) (s : State) : Host.Outcome State Fault Refusal :=
  s.onClock fun d => d.fabWord core.toNat 0x5 cmd (fabRelease core)
/-- FLAGADD (R302). -/
def execFlagadd (core : CoreId) (cmd : FabWord) (s : State) : Host.Outcome State Fault Refusal :=
  s.onClock fun d => d.fabWord core.toNat 0x6 cmd (fabFlagadd core)
/-- FABRIC_RESPONSE (R312). -/
def execFabricResponse (core : CoreId) (upper lower : Word64) (beats : List Byte) (s : State) : Host.Outcome State Fault Refusal :=
  s.onClock (fabricResponse core.toNat (upper ++ lower) beats)
/-- FABRIC_TIMEOUT (R312). -/
def execFabricTimeout (core : CoreId) (tag : BitVec 6) (waited : Nat) (s : State) : Host.Outcome State Fault Refusal :=
  s.onClock (fabricTimeout core.toNat tag waited)

end Sys2Proof.Machine
end

