-- ==== Sys2Proof/Machine/Hbm.lean ====
section
/-! DEFINITION. The HBM controllers and the cluster caches (R203 to R221): accesses, refresh, temperature, retraining, patrol, line
fills and removals. -/

namespace Sys2Proof.Machine

def hbmSize : Nat := 0x4800000000

def Dev.updHbm (d : Dev) (f : Hbm → Hbm) : Dev := { d with hbm := f d.hbm }

/-! ### Accesses (R209, R210, R212, R216) -/

/-- One access lies within one grain and one row. -/
def Dev.oneRow (d : Dev) (a n : Nat) : Bool :=
  let g := 2 ^ d.objNat 0x2410 3
  n != 0 && a + n ≤ hbmSize && a / g == (a + n - 1) / g && (d.hbmMap a).2 / 1024 == (d.hbmMap (a + n - 1)).2 / 1024

/-- What the controller keeps of an access. -/
def Dev.hbmRecord (d : Dev) (a : Nat) (st : Status) (data : List Byte) : Dev :=
  let m := d.hbmMap a
  let w := hbmPlace m.2
  d.updHbm fun h => { h with last := some { pc := m.1, bank := w.1, row := w.2.1, column := w.2.2, status := st, data := data } }

/-- An access, whose words the errors have struck: a second parity error fails it and is logged with SOURCE 3 for its first word; a write
into protected inputs is dropped (R147). (DESIGN CHOICE, log entry 43) -/
def hbmAccess (a n : Nat) (write : Option (List Byte)) (us : List UpsetAt) (parityErrors : Nat) (d : Dev) : Dev :=
  if !d.hbm.trained ∨ !d.oneRow a n ∨ (write.any fun b => b.length != n) then d
  else if 2 ≤ parityErrors then ((d.lockMap.hbmEvent (a / 16) 3).hbmRecord a .hwUncorrectable (deadBytes a n))
  else
    let d1 := d.strikes us
    match write with
    | none => let r := d1.readMem a n; r.2.2.hbmRecord a r.1 r.2.1
    | some b =>
      let owners := d1.protectors a b.length
      if owners ≠ [] then (d1.failInputs owners).hbmRecord a .inputWrite []
      else let r := d1.writeMem a b; r.2.hbmRecord a r.1 []

/-! ### Refresh, temperature, retraining (R209, R214, R221) -/

/-- A per-bank refresh is issued, from the end of training on (R219). (DEDUCED, log entry 80) -/
def hbmRefresh (pc bank : Nat) (d : Dev) : Dev :=
  if bank < 48 ∧ d.hbm.trained then d.updHbm fun h => { h with refreshes := tabSet h.refreshes (pc * 64 + bank) (tabGet 0 h.refreshes (pc * 64 + bank) + 1) }
  else d

/-- Refresh management that a stack requests is issued. -/
def refreshManagement (stack : Nat) (d : Dev) : Dev :=
  d.updHbm fun h => { h with managed := tabSet h.managed stack (tabGet 0 h.managed stack + 1) }

/-- The stack reports its temperature. -/
def hbmTempRead (stack : Nat) (celsius : Byte) (d : Dev) : Dev := d.updHbm fun h => { h with temps := tabSet h.temps stack celsius }

/-- A bank's refresh rate is doubled: its stack reports above 85 °C. -/
def Dev.refreshDoubled (d : Dev) (stack : Nat) : Bool := 85 < (tabGet 0 d.hbm.temps stack).toInt

/-- A pass over a stack is due (R221): RetrainPeriod has gone by since the last, or the stack's temperature has moved by 10 °C. Before the
stack's first pass the period counts from device reset. (DEDUCED, log entry 83) -/
def Dev.retrainDue (d : Dev) (stack : Nat) : Bool :=
  let t (l : Table Byte) : Int := (tabGet 0 l stack).toInt
  d.objNat 0x4410 1 * 1000000 ≤ d.timestamp - tabGet 0 d.hbm.passTimes stack
    || 10 ≤ (t d.hbm.temps - t d.hbm.passTemps).natAbs

/-- A retraining pass over a stack: a pseudo-channel that fails its third pass in a row is marked failed. -/
def retrainPass (stack : Nat) (failed : List Nat) (d : Dev) : Dev :=
  if !d.hbm.trained ∨ !d.retrainDue stack then d
  else
    let one (h : Hbm) (pc : Nat) : Hbm :=
      if failed.contains pc then
        let n := tabGet 0 h.passFails pc + 1
        { h with passFails := tabSet h.passFails pc n, failed := if 3 ≤ n ∧ !h.failed.contains pc then h.failed ++ [pc] else h.failed }
      else { h with passFails := tabErase h.passFails pc }
    d.updHbm fun h =>
      let h1 := ((List.range 32).map fun i => 32 * stack + i).foldl one h
      { h1 with passTemps := tabSet h1.passTemps stack (tabGet 0 h1.temps stack), passTimes := tabSet h1.passTimes stack d.timestamp }

/-! ### Patrol (R216, R218) -/

/-- The patrol reads one word: it corrects, or logs with SOURCE 2 after a second read. It is no access of an initiator, so it does not lock
the map (R211), and it reads a failed pseudo-channel as any other (R220). (DESIGN CHOICE, log entry 81) -/
def patrolRead (a : Nat) (first second : Upset) (d : Dev) : Dev :=
  if !d.hbm.trained ∨ d.objNat 0x4410 2 = 0 ∨ hbmSize ≤ a then d
  else
    let w := a / 16
    if d.badWords.contains w ∨ (first.failed ∧ second.failed) then
      Dev.hbmEvent { d with badWords := w :: d.badWords.filter fun x => x ≠ w, latent := d.latent.filter fun x => x ≠ w } w 2
    else if d.latent.contains w then d.correct [w]
    else if first = .clean then d
    else d.bump 0x3410 1 1

/-! ### Cluster caches (R204, R205, R207, R208) -/

/-- The line that a miss has asked for returns and is filled, unless the controller cannot deliver it whole; it enters the cluster's record
(R238). What the part's words then meet is corrected, or drops the line and fetches it again (R208). (DESIGN CHOICE, log entry 82) -/
def cacheLineFill (cluster a : Nat) (u : Upset) (d : Dev) : Dev :=
  let k := d.cluster cluster
  let line := a / 256
  let ws := wordsOf (256 * line) 256
  if !d.hbm.trained ∨ !k.fills.contains line ∨ d.cacheWays cluster = 0 ∨ 2 ≤ k.state then d
  else
    let d0 := d.updCluster cluster fun k => { k with fills := k.fills.erase line }
    if ws.any (fun w => d.badWords.contains w) ∨ d.hbmFailed (256 * line) 256 then d0
    else
      let d1 := (((d0.lockMap.correct ws).statAdd (384 + cluster) false 256 none).cacheFill cluster line).bump 0x3090 2 u.corrected
      if u.failed then d1.bump 0x3090 3 1 else d1

/-- A removal reaches a cluster's cache part. -/
def cacheRemoval (cluster a : Nat) (d : Dev) : Dev :=
  d.updCluster cluster fun k =>
    { k with cache := (k.cache.map fun s => (s.1, s.2.filter fun l => l ≠ a / 256)).filter fun s => s.2 ≠ [] }

/-! ### The commands -/

/-- HBM_ACCESS (R212). -/
def execHbmAccess (addr : BitVec 52) (len : Nat) (write : Option (List Byte)) (upsets : List UpsetAt) (parityErrors : Nat) (s : State) :
    Host.Outcome State Fault Refusal := s.onClock (hbmAccess addr.toNat len write upsets parityErrors)
/-- HBM_REFRESH (R214). -/
def execHbmRefresh (pc : PcId) (bank : BitVec 6) (s : State) : Host.Outcome State Fault Refusal := s.onClock (hbmRefresh pc.toNat bank.toNat)
/-- HBM_TEMP_READ (R214). -/
def execHbmTempRead (stack : StackId) (celsius : BitVec 8) (s : State) : Host.Outcome State Fault Refusal :=
  s.onClock (hbmTempRead stack.toNat celsius)
/-- RETRAIN_PASS (R221). -/
def execRetrainPass (stack : StackId) (failed : List PcId) (s : State) : Host.Outcome State Fault Refusal :=
  s.onClock (retrainPass stack.toNat (failed.map BitVec.toNat))
/-- PATROL_READ (R218). -/
def execPatrolRead (addr : BitVec 52) (first second : Upset) (s : State) : Host.Outcome State Fault Refusal :=
  s.onClock (patrolRead addr.toNat first second)
/-- REFRESH_MANAGEMENT (R209). -/
def execRefreshManagement (stack : StackId) (s : State) : Host.Outcome State Fault Refusal := s.onClock (refreshManagement stack.toNat)
/-- CACHE_LINE_FILL (R204). -/
def execCacheLineFill (cluster : ClusterId) (addr : BitVec 52) (upset : Upset) (s : State) : Host.Outcome State Fault Refusal :=
  s.onClock (cacheLineFill cluster.toNat addr.toNat upset)
/-- CACHE_REMOVAL (R205). -/
def execCacheRemoval (cluster : ClusterId) (addr : BitVec 52) (s : State) : Host.Outcome State Fault Refusal :=
  s.onClock (cacheRemoval cluster.toNat addr.toNat)

end Sys2Proof.Machine
end

