-- ==== Sys2Proof/Machine/Network.lean ====
section
/-! DEFINITION. The on-chip network (R223 to R241): routes and bundles, probes, initiator records, the arrival of each kind of packet,
replays and the removal of links. -/

namespace Sys2Proof.Machine

/-- A response enters its initiator's record (R238). -/
def Dev.countResponse (d : Dev) (k : NocPacket) (latency : Nat) : Dev :=
  let write := k.op = 0x04
  match statKey k.dest k.vc write with
  | none => d
  | some key => d.statAdd key write (k.lenm1.toNat + 1) (some latency)

/-! ### Arrival -/

/-- A packet leaves the network. -/
def Dev.nocTake (d : Dev) (k : NocPacket) : Dev := { d with noc := { d.noc with flight := d.noc.flight.erase k } }

/-- No packet of the same SRC, DEST and VC was sent before it (R228). -/
def Dev.nocFirst (d : Dev) (k : NocPacket) : Bool :=
  match d.noc.flight.find? fun q => q.src == k.src && q.dest == k.dest && q.vc == k.vc with
  | some q => q == k
  | none => !d.noc.held.any fun q => q.src == k.src && q.dest == k.dest && q.vc == k.vc

/-- A packet can arrive now: it is first of its order, and no draining bundle holds it (R228, R233). -/
def Dev.nocReady (d : Dev) (k : NocPacket) (op : BitVec 6) : Bool :=
  k.op == op && nocOk k && d.nocFirst k && (d.noc.flight.contains k || !d.pathDraining k)

/-- The request that a response answers (R230). -/
def Dev.nocRequestOf (d : Dev) (k : NocPacket) : Option NocPacket :=
  d.noc.outstanding.find? fun q => q.src == k.dest && q.dest == k.src && q.tag == k.tag && (if k.op = 0x03 then q.op == 0x01 else q.op == 0x02)

/-- A response reaches its initiator; the request is outstanding no more. -/
def Dev.nocDeliver (d : Dev) (q k : NocPacket) : Dev :=
  { d with noc := { d.noc with outstanding := d.noc.outstanding.erase q, received := d.noc.received ++ [k] } }

/-- A packet is lost (R232, R233): the round in RSLOT fails with HW_UNCORRECTABLE; without a round the initiator of a request is told in a
response, and that of a response in its place. -/
def Dev.nocFail (d : Dev) (k : NocPacket) : Dev :=
  if k.rslot = 0x7F then
    if k.vc = 1 then
      match d.nocRequestOf k with
      | some q => d.nocDeliver q { k with status := BitVec.ofNat 8 Status.hwUncorrectable.code, body := .none }
      | none => d
    else d.nocSend (nocAnswer k .hwUncorrectable [])
  else match d.slotRound k.rslot.toNat with
    | some r => d.raise r.number .hwUncorrectable
    | none => d

/-- A packet of an operation arrives: it has passed the probes, unless its route has failed. -/
def Dev.nocArrive (d : Dev) (k : NocPacket) (op : BitVec 6) (f : Dev → Dev) : Dev :=
  if !d.nocReady k op then d
  else if d.pathDead k then Dev.nocFail ((d.nocTake k).probesTo k d.bundleDead false) k
  else f ((d.nocTake k).probes k)

/-- The attempt that sent a packet still runs: what arrives for an aborted attempt is discarded (R234). -/
def Dev.attemptRuns (d : Dev) (n : RoundNo) : Bool := match d.round? n with | some r => r.phase == .running | none => false

/-- A request enters the network: at most 4,096 of one SRC are outstanding (R230). -/
def Dev.nocAsk (d : Dev) (k : NocPacket) (f : Dev → Dev) : Dev :=
  if 4096 ≤ (d.noc.outstanding.filter fun q => q.src == k.src).length then d
  else f { d with noc := { d.noc with outstanding := d.noc.outstanding ++ [k] } }

/-- A read request is served at its target, whose words the errors have struck. -/
def nocRead (fz : Fuses) (k : NocPacket) (us : List UpsetAt) (d : Dev) : Dev :=
  d.nocArrive k 0x01 fun d => d.nocAsk k fun d =>
    (d.strikes us).issueHere fz { origin := .noc k, addr := k.addr.toNat, len := k.lenm1.toNat + 1, data := none }

/-- A write request is performed at its target. -/
def nocWrite (fz : Fuses) (k : NocPacket) (d : Dev) : Dev :=
  match k.body with
  | .bytes b =>
    if b.length ≠ k.lenm1.toNat + 1 then d
    else d.nocArrive k 0x02 fun d => d.nocAsk k fun d =>
      d.issueHere fz { origin := .noc k, addr := k.addr.toNat, len := b.length, data := some b }
  | _ => d

/-- A response: one that answers no request, or a request of an aborted attempt, is discarded (R234); any other is handed to the initiator,
whose round fails where the status is a fault. -/
def nocResponse (k : NocPacket) (op : BitVec 6) (latency : Nat) (d : Dev) : Dev :=
  d.nocArrive k op fun d =>
    match d.nocRequestOf k with
    | none => d
    | some q =>
      let d1 := d.countResponse k latency
      let st := Status.ofCode k.status.toNat
      if k.rslot = 0x7F then d1.nocDeliver q k
      else match d.slotRound k.rslot.toNat with
        | some r =>
          if r.phase ≠ .running then { d1 with noc := { d1.noc with outstanding := d1.noc.outstanding.erase q } }
          else if st.isSuccess then d1.nocDeliver q k else (d1.nocDeliver q k).raise r.number st
        | none => { d1 with noc := { d1.noc with outstanding := d1.noc.outstanding.erase q } }

/-- A flag add: ADDR names the flag in the add view, the payload holds INCR. (DEDUCED, log entry 42) -/
def nocFlagAdd (k : NocPacket) (d : Dev) : Dev :=
  d.nocArrive k 0x05 fun d =>
    match k.body with
    | .bytes b =>
      match seqReg (k.addr.toNat - seqBase) 4 with
      | some (.add f) => if seqBase ≤ k.addr.toNat then flagAdd f (BitVec.ofNat 32 (field b 0 4)) d else d
      | _ => d
    | _ => d

/-- A carry partial reaches its core; a sleeping cluster is woken (R236). -/
def nocCarryPartial (k : NocPacket) (d : Dev) : Dev :=
  match k.body with
  | .carry n m => d.nocArrive k 0x06 fun d =>
    if d.attemptRuns m.round then (d.updCore n.toNat fun c => { c with carryIn := c.carryIn ++ [m] }).requestWake (clusterOf n.toNat) else d
  | _ => d

/-- Bytes of the tile image of R66: for every bead row the codes of 64 rods, then the scales of its blocks. -/
def tileBytes (h : TileHdr) : Nat :=
  let deep := 2 ^ h.dclass
  let k := 64 * deep
  k * 64 * formatWidth h.format / 8 +
    match (formatKind h.format).bind Kind.blockSize with
    | some b => k * 64 / b
    | none => 0
/-- Packets of a tile. -/
def tilePieces (h : TileHdr) : Nat := ceilDiv (tileBytes h) 256

/-- Dictionary, configuration and scrubber traffic: what it carries acts where its own command says. -/
def nocManagement (k : NocPacket) (d : Dev) : Dev := d.nocArrive k 0x08 id

/-! ### Replays and links (R232, R233) -/

/-- A replay is requested, on the link that the packet uses, after `failures` failed replays of the flit; after three the packet, which has
left by that link, is dropped and the link is to leave its bundle. -/
def flitReplay (k : NocPacket) (bundle link failures : Nat) (d : Dev) : Dev :=
  if !nocOk k ∨ !(bundlesOf k).contains bundle ∨ d.linkOf k bundle ≠ some link then d
  else if failures < 3 then d.bump 0x3100 2 1
  else
    let d1 := (((d.nocTake k).probesTo k (fun b => b = bundle) true).bump 0x3100 3 1).nocFail k
    { d1 with noc := { d1.noc with draining := (bundle, link) :: d1.noc.draining.filter fun e => e ≠ (bundle, link) } }

/-- The drained bundle, which no packet is on, resumes without the link; what waited before it goes on. -/
def linkRemoval (bundle link : Nat) (d : Dev) : Dev :=
  if d.noc.draining.contains (bundle, link) ∧ bundle < 52 ∧ link < 6 ∧ d.noc.flight.all fun k => !(bundlesOf k).contains bundle then
    let d1 : Dev := { d with noc := { d.noc with
        draining := d.noc.draining.filter fun e => e ≠ (bundle, link)
        health := tabSet d.noc.health bundle (tabGet 0 d.noc.health bundle ||| (1 : Byte) <<< link), held := [] } }
    d.noc.held.foldl Dev.nocSend d1
  else d

/-! ### The commands -/

/-- NOC_READ (R230). -/
def execNocRead (pkt : NocPacket) (upsets : List UpsetAt) (s : State) : Host.Outcome State Fault Refusal := s.onClock (nocRead s.fuses pkt upsets)
/-- NOC_WRITE (R230). -/
def execNocWrite (pkt : NocPacket) (s : State) : Host.Outcome State Fault Refusal := s.onClock (nocWrite s.fuses pkt)
/-- NOC_READ_DATA (R230, R238). -/
def execNocReadData (pkt : NocPacket) (latency : Nat) (s : State) : Host.Outcome State Fault Refusal := s.onClock (nocResponse pkt 0x03 latency)
/-- NOC_WRITE_ACK (R230). -/
def execNocWriteAck (pkt : NocPacket) (s : State) : Host.Outcome State Fault Refusal := s.onClock (nocResponse pkt 0x04 0)
/-- NOC_FLAG_ADD (R230). -/
def execNocFlagAdd (pkt : NocPacket) (s : State) : Host.Outcome State Fault Refusal := s.onClock (nocFlagAdd pkt)
/-- NOC_CARRY_PARTIAL (R230). -/
def execNocCarryPartial (pkt : NocPacket) (s : State) : Host.Outcome State Fault Refusal := s.onClock (nocCarryPartial pkt)
/-- NOC_MANAGEMENT (R230). -/
def execNocManagement (pkt : NocPacket) (s : State) : Host.Outcome State Fault Refusal := s.onClock (nocManagement pkt)
/-- FLIT_REPLAY (R232). -/
def execFlitReplay (pkt : NocPacket) (bundle : BitVec 6) (link : BitVec 3) (failures : Nat) (s : State) : Host.Outcome State Fault Refusal :=
  s.onClock (flitReplay pkt bundle.toNat link.toNat failures)
/-- LINK_REMOVAL (R233). -/
def execLinkRemoval (bundle : BitVec 6) (link : BitVec 3) (s : State) : Host.Outcome State Fault Refusal :=
  s.onClock (linkRemoval bundle.toNat link.toNat)

end Sys2Proof.Machine
end

