-- ==== Sys2Proof/Machine/Operands.lean ====
section
/-! DEFINITION. The operands of a descriptor: view records (R123), the walk (R154), packing (R30 to R36), handle views (R163), loads
and stores of elements, and the check of a descriptor (R122). -/

namespace Sys2Proof.Machine

/-! ### View records (R123) -/

structure View where
  format : Nat
  pack : Bool
  base : Nat
  slate : Nat
  auxSlate : Nat
  auxInt : Bool
  auxEn : Bool
  auxBase : Nat
  counts : List Nat
  strides : List Int
  /-- The reserved bits are 0. -/
  clean : Bool
deriving DecidableEq, Repr

def viewOf (b : List Byte) : View :=
  let w0 := field b 0 8
  let w1 := field b 8 8
  { format := bits w0 63 56, pack := bit w0 52, base := bits w0 51 0, slate := bits w1 63 59, auxSlate := bits w1 58 54,
    auxInt := bit w1 53, auxEn := bit w1 52, auxBase := bits w1 51 0,
    counts := (List.range 6).map fun k => field b (0x10 + 7 * k) 2
    strides := (List.range 6).map fun k => signed 40 (field b (0x12 + 7 * k) 5)
    clean := bits w0 55 53 == 0 && (slice b 0x3A 6).all (· == 0) }

def Desc.view (x : Desc) (v : Nat) : View := viewOf (slice x.image (128 + 64 * v) 64)

def View.count (v : View) (k : Nat) : Nat := v.counts.getD k 0
def View.stride (v : View) (k : Nat) : Int := v.strides.getD k 0
/-- Elements of a view (R154). -/
def View.elems (v : View) : Nat := v.counts.foldl (· * ·) 1
/-- Runs of level 0. -/
def View.runs (v : View) : Nat := (v.counts.drop 1).foldl (· * ·) 1
/-- Batch index of levels 3 to 5 counted over (R159). -/
def View.batch (v : View) : Nat := v.count 3 * v.count 4 * v.count 5

def View.width (v : View) : Nat := formatWidth v.format
def View.block? (v : View) : Option Nat := (formatKind v.format).bind Kind.blockSize

/-- BASE plus the indices of levels 1 to 5 times their strides (R154). -/
def View.at (v : View) (i1 i2 i3 i4 i5 : Nat) : Int :=
  v.base + i1 * v.stride 1 + i2 * v.stride 2 + i3 * v.stride 3 + i4 * v.stride 4 + i5 * v.stride 5

/-- Start of run `r` in walk order. -/
def View.runAt (v : View) (r : Nat) : Int :=
  let c := fun k => max 1 (v.count k)
  v.at (r % c 1) (r / c 1 % c 2) (r / c 1 / c 2 % c 3) (r / c 1 / c 2 / c 3 % c 4) (r / c 1 / c 2 / c 3 / c 4)

/-- Indices of levels 3 to 5 of a batch (R159). -/
def View.batchAt (v : View) (i1 i2 b : Nat) : Int :=
  let c3 := max 1 (v.count 3)
  let c4 := max 1 (v.count 4)
  v.at i1 i2 (b % c3) (b / c3 % c4) (b / c3 / c4)

/-! ### Handle views (R163) -/

/-- The ring and buffer that a view of a descriptor is bound to. -/
def Dev.bindOf (d : Dev) (x : Desc) (v : Nat) : Option (Nat × Nat × Nat) :=
  (d.ringAt (x.view v).base).map fun g => (g.1, g.2, (if v = 0 then x.inBuf0 else if v = 1 then x.inBuf1 else x.outBuf).getD 0)

/-- Where an access of a view goes: within the held buffer, or in the device's space (R156, R163). -/
def Dev.locate (d : Dev) (bound : Option (Nat × Nat × Nat)) (a : Int) (n : Nat) : Except Status Nat :=
  match bound with
  | none => if 0 ≤ a ∧ a + n ≤ 2 ^ 52 then .ok a.toNat else .error .address
  | some (core, q, h) =>
    let r := a - (d.bufAddr core q 0 : Nat)
    if r < 0 ∨ ((d.ringCfg core q).size : Int) < r + n then .error .mapOverflow else .ok (d.bufAddr core q h + r.toNat)

/-! ### Loads -/

/-- What a load gives now. -/
inductive Pull (α : Type) where
  | wait (d : Dev)
  | fail (st : Status) (d : Dev)
  | ok (v : α) (d : Dev)

/-- Goes on with what a load gave. -/
def Pull.then {α β : Type} (p : Pull α) (f : α → Dev → Pull β) : Pull β :=
  match p with
  | .wait d => .wait d
  | .fail st d => .fail st d
  | .ok v d => f v d

/-- Loads in turn. -/
def pullAll {α : Type} : List (Dev → Pull α) → Dev → Pull (List α)
  | [], d => .ok [] d
  | f :: t, d => (f d).then fun v d => (pullAll t d).then fun vs d => .ok (v :: vs) d

/-- Bytes of a view. -/
def pullBytes (fz : Fuses) (o : Origin) (bound : Option (Nat × Nat × Nat)) (a : Int) (n : Nat) (d : Dev) : Pull (List Byte) :=
  match d.locate bound a n with
  | .error st => .fail st d
  | .ok p =>
    match d.tryRead fz o p n with
    | .wait d => .wait d
    | .got st b d => if st = .done then .ok b d else .fail st d

/-- `n` codes of `w` bits, the lowest first (R30). -/
def unpackCodes (w n v : Nat) : List Nat := (List.range n).map fun k => v / 2 ^ (w * k) % 2 ^ w
def packCodes (w : Nat) (l : List Nat) : Nat := l.foldr (fun c v => c + 2 ^ w * v) 0

/-- Bytes of a group of 32 blocks and of one block's elements (R33). -/
def groupBytes (w b : Nat) : Nat := 32 + 32 * (b * w / 8)

/-- The scale and the codes of block `q` of a run (R33, R34). -/
def pullBlock (fz : Fuses) (o : Origin) (bound : Option (Nat × Nat × Nat)) (r : Int) (w b q : Nat) (d : Dev) : Pull (Nat × List Nat) :=
  let g := r + (q / 32 * groupBytes w b : Nat)
  let e := b * w / 8
  (pullBytes fz o bound (g + (q % 32 : Nat)) 1 d).then fun s d =>
    (pullBytes fz o bound (g + (32 + q % 32 * e : Nat)) e d).then fun c d => .ok (leNat s, unpackCodes w b (leNat c)) d

/-- Elements `i` to `i + n - 1` of a run: scale and code of each; plain formats have scale code 127 (R30, R34, R154). -/
def pullCodes (fz : Fuses) (o : Origin) (bound : Option (Nat × Nat × Nat)) (v : View) (r : Int) (i n : Nat) (d : Dev) :
    Pull (List (Nat × Nat)) :=
  let w := v.width
  match v.block? with
  | some b =>
    let q0 := i / b
    let qs := (List.range (if n = 0 then 0 else (i + n - 1) / b + 1 - q0)).map fun k => pullBlock fz o bound r w b (q0 + k)
    (pullAll qs d).then fun bs d => .ok (((bs.flatMap fun e => e.2.map fun c => (e.1, c)).drop (i % b)).take n) d
  | none =>
    if w < 8 then
      let lo := i * w / 8
      let hi := ceilDiv ((i + n) * w) 8
      (pullBytes fz o bound (r + lo) (hi - lo) d).then fun s d =>
        .ok ((unpackCodes w n (leNat s / 2 ^ (i * w - 8 * lo))).map fun c => (127, c)) d
    else if v.stride 0 = (w / 8 : Nat) then
      (pullBytes fz o bound (r + (i * (w / 8) : Nat)) (n * (w / 8)) d).then fun s d =>
        .ok ((unpackCodes w n (leNat s)).map fun c => (127, c)) d
    else
      (pullAll ((List.range n).map fun k => pullBytes fz o bound (r + (i + k : Nat) * v.stride 0) (w / 8)) d).then fun ss d =>
        .ok (ss.map fun s => (127, leNat s)) d

/-- The exact value of an element (R24, R35). -/
def View.value (v : View) (e : Nat × Nat) : Val :=
  if v.block?.isSome then scaleVal e.1 (decodeElem v.format e.2) else decodeElem v.format e.2

/-- Elements of a run as exact values. -/
def pullRun (fz : Fuses) (o : Origin) (bound : Option (Nat × Nat × Nat)) (v : View) (r : Int) (i n : Nat) (d : Dev) : Pull (List Val) :=
  (pullCodes fz o bound v r i n d).then fun es d => .ok (es.map v.value) d

/-- Every element of a view in walk order. -/
def pullView (fz : Fuses) (o : Origin) (bound : Option (Nat × Nat × Nat)) (v : View) (d : Dev) : Pull (List Val) :=
  (pullAll ((List.range v.runs).map fun k => pullRun fz o bound v (v.runAt k) 0 (v.count 0)) d).then fun vs d => .ok vs.flatten d

/-- An element as a slate holds it: integer formats as INT32, all others as FP32 (R38). -/
def slateWord (v : View) (x : Val) : Word :=
  match x with
  | .int i => if v.format = 0x02 ∨ isPlainInt v.format then BitVec.ofInt 32 i else toFp32 x
  | _ => toFp32 x

/-- The 16-bit code of a packed element: NaNs canonical, −0 kept (R38). -/
def packedCode (v : View) (x : Val) : Nat := encodeFloat (if v.format = 0x03 then bf16 else fp16) x

/-- `n` values of a side vector from byte address `a` (R124). -/
def pullAux (fz : Fuses) (o : Origin) (a : Nat) (n : Nat) (d : Dev) : Pull (List Word) :=
  (pullBytes fz o none a (4 * n) d).then fun b d => .ok ((List.range n).map fun k => BitVec.ofNat 32 (field b (4 * k) 4)) d

/-! ### Stores (R36, R41, R42) -/

/-- What a store of values forms: writes in order, SATURATED events, elements that underflowed. -/
structure Stored where
  writes : List (Int × List Byte)
  sat : Nat
  under : Nat
deriving DecidableEq, Repr

/-- Values cut into blocks of `b`, at most `fuel` of them. -/
def blocksOf (b : Nat) : Nat → List Val → List (List Val)
  | 0, _ => []
  | fuel + 1, l => if l = [] then [] else l.take b :: blocksOf b fuel (l.drop b)

/-- Blocks from block `q0` of a run; after the last block of the run the scale bytes of absent blocks are written as 0 (R34). -/
def storeBlocks (v : View) (f : Option FFmt) (b emax : Nat) (r : Int) (q0 : Nat) (vals : List Val) : Stored :=
  let w := v.width
  let e := b * w / 8
  let outs := (blocksOf b vals.length vals).map fun l => formBlock f emax (l.map viaFp32)
  let writes := (outs.zip (List.range outs.length)).flatMap fun ok =>
    let q := q0 + ok.2
    let g := r + (q / 32 * groupBytes w b : Nat)
    let zeros := if q + 1 = v.count 0 / b then 31 - q % 32 else 0
    [(g + (q % 32 : Nat), leBytes 1 ok.1.scale ++ List.replicate zeros 0),
     (g + (32 + q % 32 * e : Nat), leBytes e (packCodes w ok.1.codes))]
  { writes := writes, sat := (outs.filter BlockOut.sat).length, under := (outs.map BlockOut.under).foldl (· + ·) 0 }

/-- Values from element `i` of a run on. -/
def storeRun (v : View) (policy : Nat) (r : Int) (i : Nat) (vals : List Val) : Stored :=
  match formatKind v.format with
  | some (.block f b emax) => storeBlocks v f b emax r (i / b) vals
  | _ =>
    let w := v.width
    let outs := vals.map (narrow v.format policy)
    let codes := outs.map (·.1)
    let writes :=
      if w < 8 then [(r + (i * w / 8 : Nat), leBytes (ceilDiv (vals.length * w) 8) (packCodes w codes))]
      else if v.stride 0 = (w / 8 : Nat) then [(r + (i * (w / 8) : Nat), codes.flatMap (leBytes (w / 8)))]
      else (codes.zip (List.range codes.length)).map fun ck => (r + (i + ck.2 : Nat) * v.stride 0, leBytes (w / 8) ck.1)
    { writes := writes, sat := (outs.filter (·.2)).length, under := 0 }

/-- Elements that go to memory together: those of a byte group of R30, or of a block. -/
def View.unit (v : View) : Nat :=
  match v.block? with
  | some b => b
  | none => if v.width = 4 then 2 else if v.width < 8 then 4 else 1

/-- Whole units of a list of values, from element `e` of the view's walk on: the writes of every run they reach, at most `fuel`
runs. -/
def storeWalk (v : View) (policy : Nat) : Nat → Nat → List Val → List Stored
  | 0, _, _ => []
  | fuel + 1, e, vals =>
    let c := v.count 0
    if vals = [] ∨ c = 0 then []
    else
      let i := e % c
      let n := min vals.length (c - i)
      storeRun v policy (v.runAt (e / c)) i (vals.take n) :: storeWalk v policy fuel (e + n) (vals.drop n)

/-- The origin of an engine's accesses. -/
def Desc.origin (x : Desc) : Origin := .engine x.key x.round x.attempt

/-- The descriptor may go on: it has met no fault. -/
def Dev.descOk (d : Dev) (k : DescKey) : Bool :=
  match d.desc? k with
  | some x => match x.status with | some s => s.isSuccess | none => true
  | none => false

/-- What an access of a view meets: a status of the view's own, its region, the port it goes to, a busy bank, and the rounds whose inputs
it would change. -/
def Dev.fare (d : Dev) (bound : Option (Nat × Nat × Nat)) (a : Int) (n : Nat) : Option Status × Region × Option Nat × Bool × List RoundNo :=
  match d.locate bound a n with
  | .error st => (some st, .reserved, none, false, [])
  | .ok p => let g := d.regionOfRange p n; (none, g, if g = .user then d.userPort p n else none, d.bankBusy p n, d.protectors p n)

/-- Bytes that go to memory together from one generated address: an element, or a byte group of R30; the scales or the elements of a block. -/
def View.accessBytes (v : View) (n : Nat) : Nat := if v.block?.isSome then max 1 n else max 1 (v.unit * v.width / 8)

/-- A contiguous write as accesses: neighbours that meet the same go as one access, others apart, so that what lies before the first address that
fails is written (R22, R156, R163). (DESIGN CHOICE, log entry 87) -/
def Dev.cutWrite (d : Dev) (bound : Option (Nat × Nat × Nat)) (u : Nat) (w : Int × List Byte) : List (Int × List Byte) :=
  let one (i : Nat) : Int × List Byte := (w.1 + (i * u : Nat), slice w.2 (i * u) (min u (w.2.length - i * u)))
  let like (e f : Int × List Byte) : Bool := d.fare bound e.1 e.2.length == d.fare bound f.1 (min u f.2.length)
  ((List.range (ceilDiv w.2.length u)).map one).foldr
    (fun e acc => match acc with | f :: t => if like e f then (e.1, e.2 ++ f.2) :: t else e :: acc | [] => [e]) []

/-- The store engine's writes in order; the first that fails ends them and its descriptor (R156, R163). -/
def Dev.storeWrites (fz : Fuses) (d : Dev) (x : Desc) (bound : Option (Nat × Nat × Nat)) (ws : List (Int × List Byte)) : Dev :=
  (ws.flatMap fun w => d.cutWrite bound ((x.view 2).accessBytes w.2.length) w).foldl
    (fun d w =>
      if !d.descOk x.key then d
      else match d.locate bound w.1 w.2.length with
        | .error st => d.failDesc x.key st
        | .ok a => d.issue fz { origin := x.origin, addr := a, len := w.2.length, data := some w.2 })
    d

/-- A store of a descriptor: flags and counts, then the writes (R37, R43). -/
def Dev.store (fz : Fuses) (d : Dev) (x : Desc) (s : Stored) : Dev :=
  let d1 := d.updDesc x.key fun x =>
    { x with sat := x.sat || 0 < s.sat, nSat := x.nSat + s.sat, under := x.under || 0 < s.under, nUnder := x.nUnder + s.under }
  d1.storeWrites fz x (d.bindOf x 2) s.writes

/-! ### Steps (R104 to R106) -/

structure StepW where
  op : Nat
  dst : Nat
  a : Nat
  b : Nat
  c : Nat
  mode : Nat
  type : Nat
deriving DecidableEq, Repr

def stepOf (w : Nat) : StepW :=
  { op := bits w 31 24, dst := bits w 23 19, a := bits w 18 14, b := bits w 13 9, c := bits w 8 4, mode := bits w 3 2, type := bits w 1 0 }

def Desc.stepAt (x : Desc) (i : Nat) : StepW := stepOf (x.step i)
def Desc.steps (x : Desc) : List StepW := (List.range (min 8 x.nSteps)).map x.stepAt

/-- What an opcode uses and allows: DST, A, B, C; FP32, INT32, packed; modes. -/
structure StepInfo where
  dst : Bool
  a : Bool
  b : Bool
  c : Bool
  f : Bool
  i : Bool
  p : Bool
  modes : Nat
deriving DecidableEq, Repr

def unary (f i p : Bool) : StepInfo := { dst := true, a := true, b := false, c := false, f := f, i := i, p := p, modes := 2 }
def binary (f i p : Bool) : StepInfo := { dst := true, a := true, b := true, c := false, f := f, i := i, p := p, modes := 4 }

/-- The rows of R106. -/
def stepInfo (op : Nat) : Option StepInfo :=
  match op with
  | 0x01 | 0x08 | 0x09 | 0x0A => some (unary true true true)
  | 0x02 | 0x03 | 0x04 | 0x06 | 0x07 => some (binary true true true)
  | 0x05 | 0x0B => some { binary true true true with c := true }
  | 0x10 | 0x11 | 0x12 | 0x13 | 0x14 => some (binary false true false)
  | 0x18 => some (unary false true false)
  | 0x19 => some (unary true false false)
  | 0x1A => some { binary false false true with modes := 1 }
  | 0x1B | 0x1C => some { unary false false true with modes := 1 }
  | 0x20 | 0x21 | 0x22 | 0x23 | 0x24 => some (unary true false false)
  | 0x30 | 0x31 | 0x32 => some (unary true true false)
  | 0x38 => some (binary true true true)
  | 0x3C => some { dst := true, a := false, b := false, c := false, f := true, i := true, p := false, modes := 4 }
  | 0x3D => some { dst := false, a := true, b := false, c := false, f := true, i := true, p := true, modes := 1 }
  | _ => none

/-- A step that its row allows, its unused fields 0. -/
def StepW.ok (s : StepW) : Bool :=
  match stepInfo s.op with
  | none => false
  | some k =>
    (k.dst || s.dst == 0) && (k.a || s.a == 0) && (k.b || s.b == 0) && (k.c || s.c == 0) && s.mode < k.modes
      && (if s.type = 0 then k.f else if s.type = 1 then k.i else k.p)

/-- Slates a step reads, and writes. -/
def StepW.reads (s : StepW) : List Nat :=
  match stepInfo s.op with
  | some k => (if k.a then [s.a] else []) ++ (if k.b then [s.b] else []) ++ (if k.c then [s.c] else [])
  | none => []
def StepW.writes (s : StepW) : List Nat := match stepInfo s.op with | some k => if k.dst then [s.dst] else [] | none => []

/-- Every slate is loaded or written before it is read (R101). -/
def readsDefined : List Nat → List StepW → Bool
  | _, [] => true
  | have', s :: t => s.reads.all (have'.contains ·) && readsDefined (s.writes ++ have') t

/-! ### The check of a descriptor (R120 to R124, R150, R155, R158) -/

/-- Present views, by number. -/
def Desc.views (x : Desc) : List (Nat × View) := ((List.range 3).filter x.viewPresent).map fun v => (v, x.view v)

/-- Reserved bits and alignments of the words of R120. -/
def Desc.wordsOk (x : Desc) : Bool :=
  let z (i hi lo : Nat) : Bool := bits (x.word i) hi lo == 0
  z 0 31 28 && z 0 23 23 && z 0 15 14 && z 1 63 52 && z 1 3 0 && (x.isOpen || z 1 51 0)
    && (List.range 3).all (fun v => z (2 + v) 62 52 && z (2 + v) 5 0 && (x.viewPresent v || z (2 + v) 51 0))
    && (List.range 4).all (fun v => z (5 + v) 62 44)
    && z 9 61 56 && !(bit x.signal 63 && bits x.signal 31 0 == 0)
    && z 11 63 48 && z 11 39 39 && z 11 31 31 && z 11 23 23 && z 11 11 11
    && x.nSteps ≤ 8 && (List.range 8).all fun i => i < x.nSteps || x.step i == 0

/-- One view record (R31, R123, R155). -/
def View.ok (v : View) (slateInput : Bool) : Bool :=
  let w := v.width
  let dense := w < 8 || v.block?.isSome
  let size := w / 8
  v.clean && (formatKind v.format).isSome && (slateInput || (v.slate == 0 && !v.pack)) && (!v.pack || v.format == 0x03 || v.format == 0x04)
    && (if v.auxEn then v.auxBase % 4 == 0 else v.auxSlate == 0 && !v.auxInt && v.auxBase == 0)
    && (!dense || (v.stride 0 == 0 && v.count 0 * w % 8 == 0 && (match v.block? with | some b => v.count 0 % b == 0 | none => true)))
    && (dense || w < 16 || (v.base % size == 0 && (List.range 6).all fun k => v.count k ≤ 1 || v.stride k % size == 0))

/-- Zero counts of an input view (R150): `red` where level 0 and 2 carry the reduction extent. -/
def View.inputCounts (v : View) (red outZero : Bool) : Bool := (List.range 6).all fun k => v.count k != 0 || (red && (k == 0 || k == 2)) || outZero

/-- The chain table and the carry group as a round sees them (R62, R67, R89). -/
def Round.chainOf (r : Round) (c : Nat) : List Nat := let v := r.setting 0x4031 (c + 1); (List.range (field v 0 1)).map fun k => field v (1 + k) 1
def Round.carryOf (r : Round) (c : Nat) : List Nat := let v := r.setting 0x4041 (c + 1); (List.range (field v 0 1)).map fun k => field v (1 + k) 1

/-- The core takes its weights from its own view: no chain, or the head of one that starts here (R62, R262). -/
def Round.ownWeights (r : Round) (x : Desc) : Bool :=
  !x.chainEn || ((r.chainOf x.chain).head? == some x.core && (r.chainPrev x.chain).isNone)

/-- Position of the core in its carry group; a group with M = 0 has the core at position 0 (R89). -/
def Round.carryPos (r : Round) (x : Desc) : Option Nat :=
  if r.carryOf x.carry = [] then some 0 else (r.carryOf x.carry).findIdx? (· == x.core)

/-- The descriptor stores: it is in no carry group or at position 0. -/
def Round.stores (r : Round) (x : Desc) : Bool := !x.carryEn || r.carryPos x == some 0

/-- Chain and carry groups list the core, node groups lie in the peer group (R62, R89, R258, R262). -/
def Dev.groupsOk (d : Dev) (r : Round) (x : Desc) : Bool :=
  let peersHold (l : List NodeId) : Bool := r.peerGroup != 0 && l.all fun n => r.peers.contains n
  (!x.chainEn ||
    ((r.chainOf x.chain).contains x.core
      && (let ns := (r.chainPrev x.chain).toList ++ (r.chainNext x.chain).toList; ns.isEmpty || peersHold (d.nodeId :: ns))))
  && (!x.carryEn ||
    ((r.carryPos x).isSome
      && (let ns := r.nodeCarry x.carry; ns.length < 2 || (ns.contains d.nodeId && peersHold ns))))

/-- Slates that the views of a descriptor load. -/
def Desc.loads (x : Desc) : List Nat :=
  (if x.op = 2 then (x.views.filter fun e => e.1 < 2).map fun e => e.2.slate else [])
    ++ (x.views.filter fun e => e.2.auxEn).map fun e => e.2.auxSlate

/-- The step list of a SLATE or a MATMUL (R101, R104 to R106, R113 to R115, R124). `floatOnly`: known to accumulate in FP32. -/
def Desc.stepsOk (x : Desc) (floatOnly : Bool) : Bool :=
  let l := x.steps
  let reads := l.filter fun s => s.op == 0x3C
  let stores := l.filter fun s => s.op == 0x3D
  1 ≤ x.nSteps && l.all StepW.ok && decide x.loads.Nodup && readsDefined x.loads l &&
    (if x.op = 2 then
      let handed := (stores.map fun s => if 2 ≤ s.type then 2 * x.vl else x.vl).foldl (· + ·) 0
      let n := (x.view 2).elems
      reads.isEmpty && (if x.viewPresent 2 then !stores.isEmpty && (n == 0 || handed == n) else stores.isEmpty)
    else
      1 ≤ reads.length && reads.length ≤ 4 && decide (reads.map StepW.mode).Nodup && stores.length == 1 && stores.all (fun s => s.type < 2)
        && reads.all (fun s => 64 * (s.mode + 1) ≤ x.vl && !(floatOnly && s.type == 1)))

/-- K, N and M of a MATMUL as its views give them (R158): N is 0 where no view tells it. -/
def Desc.kExt (x : Desc) : Nat := (x.view 1).count 0 * (x.view 1).count 2
def Desc.mExt (x : Desc) : Nat := (x.view 1).count 1
def Desc.nExt (x : Desc) : Nat := if x.viewPresent 2 then (x.view 2).count 0 else if x.viewPresent 0 then (x.view 0).count 1 else 0
def Desc.nKnown (x : Desc) : Bool := x.viewPresent 2 || x.viewPresent 0

/-- The agreement of the views of a MATMUL (R29, R158). -/
def Desc.matmulOk (x : Desc) : Bool :=
  let w := x.view 0
  let a := x.view 1
  let o := x.view 2
  let bead (v : View) : Bool := v.format != 0x01 && v.format != 0x02
  bead a && (!x.viewPresent 0 || (bead w && w.count 0 * w.count 2 == x.kExt))
    && (!x.viewPresent 2 || (o.count 1 == a.count 1 && o.count 2 == 1))
    && (!(x.viewPresent 0 && x.viewPresent 2) || w.count 1 == o.count 0)
    && x.views.all fun e => e.2.counts.drop 3 == a.counts.drop 3

/-- The output view holds no element (R150). -/
def Desc.outZero (x : Desc) : Bool := x.viewPresent 2 && (x.view 2).elems == 0

/-- The descriptor completes EMPTY (R150). -/
def Desc.isEmpty (x : Desc) : Bool := x.op != 0 && x.outZero

/-- Handle views: an input on a ring of the own core that its load engine consumes; an output that holds something (R164, R165). -/
def Dev.handlesOk (d : Dev) (x : Desc) : Bool :=
  x.views.all fun e =>
    match d.ringAt e.2.base with
    | none => true
    | some (n, q) => if e.1 = 2 then !x.outZero else n == x.core && !(d.ringCfg n q).port

/-- Locked bytes are as they were at delivery (R187). -/
def Desc.lockedOk (x : Desc) : Bool :=
  let same (lo n : Nat) : Bool := slice x.image lo n == slice x.original lo n
  same 0 72 && same 91 1 && field x.image 92 1 % 128 == field x.original 92 1 % 128
    && (List.range 3).all fun v => x.viewPresent v || same (128 + 64 * v) 64

/-- A rule of R120 to R124 and of what they name is broken. -/
def Dev.malformed (d : Dev) (r : Round) (x : Desc) : Bool :=
  let pres := (x.viewPresent 0, x.viewPresent 1, x.viewPresent 2)
  let floatOnly := !isPlainInt (x.view 1).format || (x.viewPresent 0 && !isPlainInt (x.view 0).format)
  let opOk : Bool := match x.op with
    | 0 => pres == (false, false, false) && x.nSteps == 0
    | 1 => pres == (true, false, true) && x.nSteps == 0 && x.views.all (fun e => !e.2.auxEn) && (x.view 0).elems == (x.view 2).elems
    | 2 => x.stepsOk false && (x.views.filter fun e => e.1 < 2).all fun e => e.2.elems ≤ if e.2.pack then 2 * x.vl else x.vl
    | 3 => x.viewPresent 0 == r.ownWeights x && x.viewPresent 1 && x.viewPresent 2 == r.stores x && d.groupsOk r x && x.matmulOk
        && x.stepsOk floatOnly
    | _ => false
  !(x.wordsOk && x.lockedOk && opOk && (!x.isCommit || x.op == 0)
    && (x.op == 3 || (!x.accumulate && !x.chainEn && !x.carryEn && bits (x.word 11) 22 0 == 0))
    && x.views.all (fun e => e.2.ok (x.op == 2 && e.1 < 2))
    && x.views.all (fun e => e.1 == 2 || e.2.inputCounts (x.op == 3) x.outZero)
    && !(x.outZero && (x.chainEn || x.carryEn))
    && d.handlesOk x)

/-- The beam window is too small, or leaves the beam (R74, R160). -/
def Desc.windowBad (x : Desc) : Bool :=
  x.op == 3 && x.viewPresent 1 && (2048 < x.beamBase + x.beamRows || x.beamRows < x.mExt)

/-- The check of R122: the status with which the descriptor fails, if it does. Two causes met in one cycle follow R8. -/
def Dev.checkDesc (d : Dev) (r : Round) (x : Desc) : Option Status :=
  if x.windowBad then some .mapOverflow else if d.malformed r x then some .badDescriptor else none

/-! ### The walk of a MATMUL (R46, R48, R158 to R160) -/

/-- D of the pairing; the weight format is known. -/
def MatJob.depth (j : MatJob) : Nat := depthOf (formatWidth j.wfmt) (formatWidth j.afmt)
/-- K_t. -/
def MatJob.kt (j : MatJob) : Nat := 64 * j.depth
/-- KT and NT. -/
def MatJob.tiles (j : MatJob) : Nat := ceilDiv j.k j.kt
def MatJob.cols (j : MatJob) : Nat := ceilDiv j.n 64
/-- Blocks. -/
def MatJob.total (j : MatJob) : Nat := j.batch * j.cols
/-- INT32 accumulation (R40); a chain member that meets no tile goes by its activations. -/
def MatJob.isInt (j : MatJob) : Bool := (j.wfmt == 0 || isPlainInt j.wfmt) && isPlainInt j.afmt
/-- Blocks of the job may be repeated, by itself or by another member of its chain (R82, R84): the weights are integers. -/
def MatJob.mayRepeat (j : MatJob) : Bool := j.isInt || (j.chained && isPlainInt j.wfmt)
/-- Reduction extent of a tile (R51). -/
def MatJob.kext (j : MatJob) (t : Nat) : Nat := min j.kt (j.k - t * j.kt)
/-- Bead rows that a tile uses. -/
def MatJob.rowsUsed (j : MatJob) (t : Nat) : Nat := ceilDiv (j.kext t) j.depth
/-- Columns of a block. -/
def MatJob.width (j : MatJob) (blk : Nat) : Nat := min 64 (j.n - 64 * (blk % max 1 j.cols))
def MatJob.batchOf (j : MatJob) (blk : Nat) : Nat := blk / max 1 j.cols
/-- The beam row of a vector (R160). -/
def MatJob.rowOf (j : MatJob) (blk m : Nat) : Nat := j.base + (blk * j.m + m) % max 1 j.window
/-- Activation shift of an attempt (R82). -/
def attemptShift (a : Nat) : Nat := if a ≤ 1 then 0 else if a = 2 then 1 else if a = 3 then 2 else 4

/-- The MATMULs of a core that have not ended: the one in the array, then those that wait. -/
def Core.jobs (c : Core) : List MatJob := c.array.waiting ++ c.array.job.toList ++ c.array.next.toList
def Core.job? (c : Core) (k : DescKey) : Option MatJob := c.jobs.find? fun j => j.key = k
/-- Changes one of them. -/
def Dev.updJob (d : Dev) (n : Nat) (k : DescKey) (f : MatJob → MatJob) : Dev :=
  d.updArray n fun a =>
    { a with job := a.job.map (fun j => if j.key = k then f j else j), next := a.next.map (fun j => if j.key = k then f j else j),
             waiting := a.waiting.map fun j => if j.key = k then f j else j }

/-- Members next to a core in a chain. -/
def Round.chainSucc (r : Round) (c n : Nat) : Option Nat :=
  let l := r.chainOf c
  match l.findIdx? (· == n) with | some i => l[i + 1]? | none => none
def Round.chainPred (r : Round) (c n : Nat) : Option Nat :=
  let l := r.chainOf c
  match l.findIdx? (· == n) with | some (i + 1) => l[i]? | _ => none

/-- A tile of a descriptor on a chain (R424). -/
def tileOfDesc (t : ChainTile) (x : Desc) (ordinal : Nat) : Bool := t.round == x.round && t.chain == x.chain && t.ordinal == ordinal

/-- The descriptor of the same round, chain and ordinal on another core. -/
def Dev.partner (d : Dev) (x : Desc) (n : Nat) : Option Desc :=
  d.descs.find? fun q => q.round == x.round && q.core == n && q.chainEn && q.chain == x.chain && q.chainOrd == x.chainOrd
    && q.stage != .fetched && q.stage != .issued

/-- A MATMUL takes or sends no further tile: its last pass is complete. -/
def MatJob.tilesDone (j : MatJob) : Bool :=
  !j.nOpen && (j.total == 0 || (j.total ≤ j.loadBlk + 1 && j.tiles ≤ j.loadTile && (j.wfmt != 0 || j.k == 0)))
def Dev.tilesDone (d : Dev) (x : Desc) : Bool :=
  match (d.core x.core).job? x.key with
  | some j => j.tilesDone
  | none => x.stage == .executed || x.stage == .completed

/-- The input handle views of a descriptor whose handles are not yet taken (R165). -/
def Dev.untaken (d : Dev) (x : Desc) : List Nat :=
  [0, 1].filter fun v => (d.ringAt (x.view v).base).isSome && (if v = 0 then x.inBuf0 else x.inBuf1).isNone

/-- A descriptor at the head of its core's load queue waits for a handle (R165, R168, R174). -/
def Dev.handleBlocked (d : Dev) (x : Desc) : Bool :=
  (d.core x.core).loadQ.head? == some x.key && (x.stage == .ready || x.stage == .running) && !x.isEmpty &&
    match (d.untaken x).head?.bind fun v => d.ringAt (x.view v).base with
    | none => false
    | some (m, q) => match (d.ring m q).queue with
      | [] => true
      | h :: _ => h.round != x.round && !h.committed

/-- A chain descriptor has passed on every tile, and no tile beyond its count reaches it (R63, R65). -/
def Dev.chainSettled (d : Dev) (r : Round) (x : Desc) : Bool :=
  let c := d.core x.core
  let clear (n : Nat) (ord : Nat) : Bool := match (d.core n).chainOut with | some t => !tileOfDesc t x ord | none => true
  !x.chainEn || (clear x.core x.chainOrd && c.chainIn.all (fun t => !tileOfDesc t x x.chainOrd) &&
    d.noc.packets.all (fun k => !(k.op == 0x07 && coreOfEnd k.dest == some x.core && bits k.addr.toNat 25 20 == x.chain && k.rslot.toNat == r.rslot)) &&
    match r.chainPred x.chain x.core with
    | none => true
    | some p => clear p x.chainOrd && match d.partner x p with | some q => d.tilesDone q | none => false)

end Sys2Proof.Machine
end

