-- ==== Sys2Proof/Machine/Sequencer.lean ====
section
/-! DEFINITION. The Sequencer: fetching (R128, R130, R145, R426, R427), issue (R132), delivery (R136, R138, R139, R186), completion
(R137, R141), and what the end of a round frees (R129). -/

namespace Sys2Proof.Machine

/-! ### Slots and records -/

def Stream.slotAddr (x : Stream) (i : Nat) : Nat := x.ringBase.toNat + 128 * i
def Stream.recordAddr (x : Stream) (i : Nat) : Nat := x.cplBase.toNat + 16 * i

/-- PHASE of an unreleased slot: that of the pass at FETCH for slots below FETCH, the one before for the others (R141). -/
def Stream.slotPhase (x : Stream) (slot : Nat) : Bool := if slot < x.fetch.toNat then x.phase else !x.phase

/-- RELEASE passes every released slot, at most `fuel` of them (R129). -/
def Stream.advance : Nat → Stream → Stream
  | 0, x => x
  | fuel + 1, x =>
    if x.freed.contains x.release.toNat then
      Stream.advance fuel { x with freed := x.freed.filter fun i => i ≠ x.release.toNat,
                                   release := BitVec.ofNat 16 (x.wrap (x.release.toNat + 1)) }
    else x

/-- Slots are released (R129). -/
def Stream.releaseSlots (x : Stream) (l : List Nat) : Stream := Stream.advance (x.freed ++ l).length { x with freed := x.freed ++ l }

/-- Writes the record of a slot (R141). -/
def Dev.writeRecord (fz : Fuses) (d : Dev) (stream slot : Nat) (st : Status) (sticky attempt : Nat) (phase : Bool) (round : RoundNo) : Dev :=
  d.issue fz { origin := .record stream, addr := (d.stream stream).recordAddr slot, len := 16,
               data := some (recordBytes st sticky attempt phase round d.timestamp) }

/-- Writes the record of a descriptor with a status. -/
def Dev.recordAs (fz : Fuses) (d : Dev) (x : Desc) (st : Status) : Dev :=
  let d1 := d.writeRecord fz x.key.stream x.key.slot st (if st = .empty then 0 else x.sticky) x.attempt x.phase x.roundField
  d1.updDesc x.key fun x => { x with recorded := true }

/-! ### Fetching -/

def newDesc (key : DescKey) (round : RoundNo) (attempt : Nat) (phase : Bool) (image : List Byte) : Desc :=
  { key := key, round := round, attempt := attempt, phase := phase, stage := .fetched, image := image, original := [],
    status := none, sat := false, resc := false, under := false, lane := false, nSat := 0, nUnder := 0, nResc := 0, nLane := 0,
    inBuf0 := none, inBuf1 := none, outBuf := none, remote := [], chainOrd := 0, carryOrd := 0, seq := 0, begun := false, recorded := false }

/-- A descriptor is in flight; the peak is kept (R130, R153). -/
def Dev.placeDesc (d : Dev) (x : Desc) : Dev :=
  let d1 : Dev := { d with descs := (d.descs.filter fun q => q.key ≠ x.key) ++ [x] }
  { d1 with counters := tabSet d1.counters (okey 0x3060 3) (max (d1.count 0x3060 3) d1.inFlight) }

/-- FETCH passes its slot; PHASE toggles on a wrap (R141). What the fetch had read is used up. -/
def Stream.fetched (x : Stream) (refetch : Bool) (slot : Nat) : Stream :=
  let x := { x with remote := [], remoteStatus := none, openWait := false, refetch := if refetch then x.refetch.drop 1 else x.refetch }
  if refetch ∧ slot ≠ x.fetch.toNat then x
  else { x with fetch := BitVec.ofNat 16 (x.wrap (x.fetch.toNat + 1)), phase := if x.wrap (x.fetch.toNat + 1) = 0 then !x.phase else x.phase }

/-- Bytes that the Sequencer reads. -/
def fetchBytes (fz : Fuses) (s a n : Nat) (d : Dev) : Pull (List Byte) :=
  match d.tryRead fz (.fetch s) a n with
  | .wait d => .wait d
  | .got st b d => if st = .done then .ok b d else .fail st d

/-- A descriptor that a slot between ROUND_OPENs holds (R427): recorded with BAD_DESCRIPTOR, its slot released. (DEDUCED, log entry 45) -/
def Dev.orphan (fz : Fuses) (d : Dev) (s slot : Nat) (phase : Bool) (x : Desc) : Dev :=
  let d1 := d.updStream s fun q => q.fetched false slot
  (d1.writeRecord fz s slot .badDescriptor 0 0 phase x.roundField).updStream s fun q => q.releaseSlots [slot]

/-- The run of a stream in a round that holds a slot as its first. -/
def Round.startsAt (r : Round) (s slot : Nat) : Bool := r.runs.any fun u => u.stream == s && u.first == slot

/-- A ROUND_COMMIT closes the run in progress (R145). -/
def Dev.closeRun (d : Dev) (n : RoundNo) (s slot : Nat) : Dev :=
  (d.updRound n fun r => { r with runs := r.runs.map fun u => if u.stream = s ∧ u.commitSlot.isNone then { u with commitSlot := some slot } else u }).updStream s
    fun q => { q with run := none }

/-- A descriptor fetched within a run, or again by a restart (R145). -/
def Dev.takeInRun (d : Dev) (r : Round) (s slot : Nat) (again : Bool) (x : Desc) : Dev :=
  let first := again && r.startsAt s slot
  let bad := x.roundField ≠ r.number ∨ x.isOpen ≠ first ∨ (first ∧ x.rrec ≠ r.rrec)
  let fresh := !again || slot == (d.stream s).fetch.toNat
  let d1 := (d.placeDesc x).updStream s fun q => q.fetched again slot
  let d2 := d1.updRound r.number fun r => { r with runs := r.runs.map fun u => if u.stream = s ∧ fresh then { u with stuck := false } else u }
  if bad then d2.failDesc x.key .badDescriptor
  else if x.isCommit ∧ fresh then d2.closeRun r.number s slot else d2

/-- Round record: words that break R144, the peer group of R263 included. -/
def recordBad (settings : Table (List Byte)) (w0 w1 : Nat) : Bool :=
  bits w0 63 48 != 0 || bits w0 39 21 != 0 || bits w0 15 9 != 0 || bits w1 63 52 != 0 || bits w1 3 0 != 0
    || bits w0 8 0 == 0 || 256 < bits w0 8 0 || 16 < bits w0 20 16
    || (bits w0 47 40 != 0 && (peersOf (objIn settings 0x4114 (bits w0 47 40))).isEmpty)

/-- The entries of an input list: base and length. -/
def inputsOf (b : List Byte) (n : Nat) : List (Nat × Nat) := (List.range n).map fun i => (field b (16 * i) 8, field b (16 * i + 8) 8)
def inputBad (e : Nat × Nat) : Bool := bits e.1 63 52 != 0 || e.2 == 0 || 2 ^ 52 ≤ e.2

/-- What the first ROUND_OPEN reads: the two words and the inputs, or the status with which it completes. -/
def Dev.readRecord (fz : Fuses) (d : Dev) (s : Nat) (settings : Table (List Byte)) (rrec : Nat) :
    Pull (Nat × Except Status (List (Nat × Nat))) :=
  match fetchBytes fz s rrec 16 d with
  | .wait d => .wait d
  | .fail st d => .ok (0, .error st) d
  | .ok b d =>
    let w0 := field b 0 8
    let n := bits w0 20 16
    if recordBad settings w0 (field b 8 8) then .ok (w0, .error .badDescriptor) d
    else match fetchBytes fz s (bits (field b 8 8) 51 0) (16 * n) d with
      | .wait d => .wait d
      | .fail st d => .ok (0, .error st) d
      | .ok l d =>
        let es := inputsOf l n
        if es.any inputBad then .ok (w0, .error .badDescriptor) d else .ok (w0, .ok es) d

/-- The lowest RSLOT that no open round and no pending subtraction uses (R230). -/
def Dev.freeRslot (d : Dev) : Option Nat :=
  (List.range 64).find? fun k => !(d.rounds.any fun r => r.rslot == k) && !(d.restores.any fun r => r.rslot == k)

/-- A round as its first ROUND_OPEN opens it. -/
def newRound (n : RoundNo) (rslot rrec : Nat) (settings : Table (List Byte)) (w0 : Nat) (inputs : List (Nat × Nat)) (u : Run) : Round :=
  { number := n, rslot := rslot, rrec := rrec, peerGroup := bits w0 47 40, inputs := inputs, streams := bits w0 8 0, runs := [u],
    attempt := 0, settings := settings, phase := .running, cause := none, causeAt := 0, later := none, lastStatus := none,
    endings := [], undelivered := [], nodesUsed := [], recorded := [], hold := .none, increments := [],
    deps := [], waitRegions := [] }

/-- A ROUND_OPEN outside a run (R145, R146, R239). While the round's record is still to be read again, a later one waits at fetch. -/
def Dev.takeOpen (fz : Fuses) (d : Dev) (s slot : Nat) (x : Desc) : Dev :=
  let n := x.roundField
  let wait := d.updStream s fun q => { q with openWait := true }
  let u : Run := { stream := s, first := slot, commitSlot := none, stuck := false }
  let enter (d : Dev) : Dev := ((d.placeDesc x).updStream s fun q => q.fetched false slot).updStream s fun q => { q with run := some n }
  let close (d : Dev) : Dev := if x.isCommit then d.closeRun n s slot else d
  if d.objNat 0x7100 1 = 1 then wait
  else match d.round? n with
    | some r =>
      if !r.active ∨ r.streams = 0 then d
      else
        let d1 := (enter d).updRound n fun r => { r with runs := r.runs ++ [u] }
        let d2 := d1.updDesc x.key fun x => { x with attempt := r.attempt }
        if x.rrec ≠ r.rrec ∨ r.streams ≤ r.runs.length then d2.failDesc x.key .badDescriptor else close d2
    | none =>
      match d.freeRslot with
      | none => wait
      | some k =>
        if 64 ≤ d.rounds.length then wait
        else match d.readRecord fz s d.objs x.rrec with
          | .wait d => d
          | .fail _ d => d
          | .ok (w0, out) d =>
            let open' (ins : List (Nat × Nat)) : Dev :=
              enter { d with rounds := d.rounds ++ [newRound n k x.rrec d.objs w0 ins u] }
            match out with
            | .error st => (close (open' [])).failDesc x.key st
            | .ok ins => close (open' ins)

/-- The record of a round whose first read failed is read again by a restart (R145): the round's streams read 0 until then. -/
def Dev.reopen (fz : Fuses) (d : Dev) (r : Round) (s : Nat) (x : Desc) : Dev :=
  match d.readRecord fz s r.settings x.rrec with
  | .wait d => d
  | .fail _ d => d
  | .ok (w0, out) d =>
    let d1 := d.takeInRun r s x.key.slot true x
    match out with
    | .error st => d1.failDesc x.key st
    | .ok ins => d1.updRound r.number fun r => { r with peerGroup := bits w0 47 40, streams := bits w0 8 0, inputs := ins }

/-- A fetch that fails (R426): the stream stops, and the round of its run, or of the refetched slot, aborts with the same status. -/
def Dev.fetchFail (d : Dev) (s : Nat) (run : Option RoundNo) (again : Bool) (st : Status) : Dev :=
  let d1 := d.updStream s fun q => { q with enable := false, status := BitVec.ofNat 8 st.code, remote := [], remoteStatus := none }
  match run with
  | none => d1
  | some n =>
    (d1.updRound n fun r => { r with runs := r.runs.map fun u =>
      if u.stream = s ∧ u.commitSlot.isNone ∧ !again then { u with stuck := true } else u }).raise n st

/-- A slot is fetched: `again` for a slot that a restart refetches; `run` is the round of the run it lies in. -/
def Dev.fetchSlot (fz : Fuses) (d : Dev) (s slot : Nat) (phase again : Bool) (run : Option RoundNo) : Dev :=
  let x := d.stream s
  let key : DescKey := { stream := s, slot := slot }
  let stalled : Bool := d.descs.any fun q => q.key.stream == s && q.stage == .fetched && x.place q.key.slot < x.place slot && (d.firstWait q).isSome
  if stalled ∨ 1024 ≤ d.inFlight then d
  else
    let go (r? : Option Round) : Dev :=
      match fetchBytes fz s (x.slotAddr slot) 128 d with
      | .wait d => d
      | .fail st d => d.fetchFail s run again st
      | .ok b d =>
        match r? with
        | some r =>
          let q := newDesc key r.number r.attempt phase b
          if again ∧ r.startsAt s slot ∧ r.streams = 0 then d.reopen fz r s q else d.takeInRun r s slot again q
        | none =>
          let q := newDesc key (BitVec.ofNat 32 (field b 4 4)) 0 phase b
          if q.isOpen then d.takeOpen fz s slot q else d.orphan fz s slot phase q
    match run with
    | none => go none
    | some n => match d.round? n with
      | some r => if r.active then go (some r) else d
      | none => d

/-- DESCRIPTOR_FETCH: the oldest slot that a restart refetches, else the slot at FETCH (R128, R392). -/
def descriptorFetch (fz : Fuses) (s : Nat) (d : Dev) : Dev :=
  let x := d.stream s
  match x.refetch with
  | e :: _ => d.fetchSlot fz s e.slot e.phase true (some e.round)
  | [] => if !x.enable ∨ x.empty then d else d.fetchSlot fz s x.fetch.toNat x.phase false x.run

/-! ### Issue and delivery -/

/-- A slot that a restart still refetches lies before a slot. -/
def Stream.refetchBefore (x : Stream) (slot : Nat) : Bool := x.refetch.any fun e => x.place e.slot < x.place slot

/-- Slots of a run that have been fetched: from the first to the ROUND_COMMIT, or to FETCH. -/
def Dev.runSlots (d : Dev) (u : Run) : List Nat :=
  let x := d.stream u.stream
  let n := match u.commitSlot with
    | some c => x.wrap (c + x.entries - u.first) + 1
    | none => x.wrap (x.fetch.toNat + x.entries - u.first)
  (List.range n).map fun i => x.wrap (u.first + i)

/-- Slots of a stream that an aborted round will fetch again lie before a slot. -/
def Dev.awaitsRestart (d : Dev) (s slot : Nat) : Bool :=
  let x := d.stream s
  x.refetchBefore slot || d.rounds.any fun r => r.phase != .running && r.runs.any fun u => u.stream == s && (d.runSlots u).any fun i => x.place i < x.place slot

/-- An earlier descriptor of an aborted attempt was never delivered (R136, R392). -/
def Dev.undelivered (d : Dev) (s slot : Nat) : Bool :=
  let x := d.stream s
  x.refetchBefore slot || d.rounds.any fun r => r.undelivered.any fun k => k.stream == s && x.place k.slot < x.place slot

/-- DESCRIPTOR_ISSUE (R132). -/
def descriptorIssue (s : Nat) (d : Dev) : Dev :=
  match d.oldestUnissued s with
  | none => d
  | some x =>
    if (d.firstWait x).isNone ∧ d.roundActive x.round ∧ !d.awaitsRestart s x.key.slot then d.setStage x.key .issued else d

/-- The oldest descriptor of a stream that has not been delivered. -/
def Dev.nextDelivery (d : Dev) (s : Nat) : Option Desc :=
  let x := d.stream s
  (d.descs.filter fun q => q.key.stream == s && (q.stage == .fetched || q.stage == .issued)).foldl
    (fun best q => match best with
      | none => some q
      | some b => if x.place q.key.slot < x.place b.key.slot then some q else some b) none

/-- An access of a descriptor's present attempt. -/
def OpenAccess.ofDesc (o : OpenAccess) (x : Desc) : Bool := o.access.origin == x.origin
/-- Parts of an access that are under way to other nodes. -/
def Dev.saeriParts (d : Dev) (o : OpenAccess) : Nat :=
  (d.saeri.outstanding.filter fun q => match q.use with | .part p => p.id == o.id | _ => false).length
/-- Open writes of a descriptor. -/
def Dev.openWrites (d : Dev) (x : Desc) : List OpenAccess := d.accesses.filter fun o => o.ofDesc x && o.access.data.isSome

/-- Earlier descriptors of the same stream. -/
def Dev.earlier (d : Dev) (x : Desc) : List Desc :=
  let s := d.stream x.key.stream
  d.descs.filter fun q => q.key.stream == x.key.stream && s.place q.key.slot < s.place x.key.slot

/-- An open access is a write of an earlier descriptor of the stream; one whose attempt is gone was earlier. -/
def Dev.earlierWrite (d : Dev) (x : Desc) (o : OpenAccess) : Bool :=
  let s := d.stream x.key.stream
  match o.access.origin with
  | .engine k n a => o.access.data.isSome && k.stream == x.key.stream &&
      match d.desc? k with
      | some q => q.round != n || q.attempt != a || s.place k.slot < s.place x.key.slot
      | none => true
  | _ => false

/-- FENCE_LOCAL and FENCE_FABRIC let a descriptor be delivered (R138, R139). -/
def Dev.fencesOk (d : Dev) (x : Desc) : Bool :=
  (!x.fenceLocal || (((d.earlier x).all fun q => q.stage == .completed) && !d.awaitsRestart x.key.stream x.key.slot))
    && (!x.fenceFabric || d.accesses.all fun o => !d.earlierWrite x o || d.saeriParts o == 0)

/-- A delivered descriptor that has not completed. -/
def Desc.atCore (x : Desc) (n : Nat) : Bool :=
  x.core == n && (x.stage == .patching || x.stage == .frozen || x.stage == .ready || x.stage == .running || x.stage == .executed)

/-- Every engine of a core is empty and what was delivered there has completed (R173). -/
def Dev.coreDrained (d : Dev) (n : Nat) : Bool :=
  let c := d.core n
  c.array.job.isNone && c.array.next.isNone && c.slate.job.isNone && c.loadQ.isEmpty && c.patchQ.isEmpty && d.descs.all fun x => !x.atCore n

/-- The core can accept a descriptor now (R96, R173, R188). A NOP enters no engine, so a halt does not hold it. -/
def Dev.coreAccepts (d : Dev) (r : Round) (x : Desc) : Bool :=
  let c := d.core x.core
  (c.halt == 0 || x.op == 0) && (!x.isPatch || c.patchQ.length < 4) && (r.settingNat 0x4070 1 != 1 || d.coreDrained x.core)

/-- The next ordinal of a chain or carry group on a core (R424, R91). -/
def ordNext (l : List (RoundNo × Nat × Nat)) (n : RoundNo) (c : Nat) : Nat :=
  match l.find? fun e => e.1 = n ∧ e.2.1 = c with | some e => e.2.2 | none => 0
def ordBump (l : List (RoundNo × Nat × Nat)) (n : RoundNo) (c : Nat) : List (RoundNo × Nat × Nat) :=
  (n, c, ordNext l n c + 1) :: l.filter fun e => ¬(e.1 = n ∧ e.2.1 = c)

/-- The descriptor is numbered among those of its round that name its chain and its carry group. -/
def Dev.number (d : Dev) (x : Desc) : Dev :=
  let c := d.core x.core
  let d1 := d.updDesc x.key fun q => { q with
    chainOrd := if x.chainEn then ordNext c.chainOrd x.round x.chain else 0
    carryOrd := if x.carryEn then ordNext c.carryOrd x.round x.carry else 0
    seq := c.deliveries }
  d1.updCore x.core fun c => { c with
    chainOrd := if x.chainEn then ordBump c.chainOrd x.round x.chain else c.chainOrd
    carryOrd := if x.carryEn then ordBump c.carryOrd x.round x.carry else c.carryOrd
    deliveries := c.deliveries + 1 }

/-- The record of a view, or zeros where it is absent or misaligned (R186); a misaligned one fails the check of R122. (DEDUCED, log entry 45) -/
def pullRecord (fz : Fuses) (x : Desc) (v : Nat) (d : Dev) : Pull (List Byte) :=
  if x.viewPresent v ∧ x.viewAddr v % 64 = 0 then
    match d.tryRead fz x.origin (x.viewAddr v) 64 with
    | .wait d => .wait d
    | .got st b d => if st = .done then .ok b d else .fail st d
  else .ok (List.replicate 64 0) d

/-- A descriptor passes the check of R122, or fails with its status. -/
def Dev.checked (d : Dev) (r : Round) (k : DescKey) : Dev :=
  d.withDesc k fun x =>
    match d.checkDesc r x with
    | some st => d.failDesc k st
    | none => d.setStage k .ready

/-- A descriptor reaches its core (R136, R186, R188, R196). -/
def Dev.deliver (fz : Fuses) (d : Dev) (r : Round) (x : Desc) : Dev :=
  match pullAll ((List.range 3).map (pullRecord fz x)) d with
  | .wait d => d
  | .fail st d => (d.number x).failDesc x.key st
  | .ok vs d =>
    let image := x.image ++ vs.flatten
    let d1 := (d.number x).updDesc x.key fun q => { q with image := image, original := image, remote := [] }
    let queued (d : Dev) : Dev := if x.op = 0 then d else d.updCore x.core fun c => { c with loadQ := c.loadQ ++ [x.key] }
    if x.isPatch then
      if (d.core x.core).rk.mode ≠ .running then d1.failDesc x.key .badDescriptor
      else (queued d1).updCore x.core (fun c => { c with patchQ := c.patchQ ++ [x.key] }) |>.setStage x.key .patching
    else (queued d1).checked r x.key

/-- DESCRIPTOR_DELIVERY. A cluster that is not in P0 is woken first. -/
def descriptorDelivery (fz : Fuses) (s : Nat) (d : Dev) : Dev :=
  match d.nextDelivery s with
  | none => d
  | some x => d.withRound x.round fun r =>
    if x.stage ≠ .issued ∨ d.undelivered s x.key.slot ∨ !r.active ∨ !d.fencesOk x then d
    else if !d.awake x.core then d.requestWake (clusterOf x.core)
    else if !d.coreAccepts r x then d
    else d.deliver fz r x

/-- PATCH_RELEASE (R190): a frozen image of a core is checked. -/
def patchRelease (n : Nat) (d : Dev) : Dev :=
  match d.descs.find? fun x => x.core == n && x.stage == .frozen with
  | none => d
  | some x => d.withRound x.round fun r => if r.active then d.checked r x.key else d

/-! ### Completion -/

/-- The node of a signal, none where it is this device (R133). -/
def Dev.signalNode (d : Dev) (x : Desc) : Option NodeId :=
  let n := BitVec.ofNat 12 (bits x.signal 55 44)
  if d.isHere n then none else some n

/-- Adds a signal's increment to its flag, `neg`: subtracts it (R133, R134). (DESIGN CHOICE, log entry 47) -/
def Dev.signalAdd (d : Dev) (i : Incr) (neg : Bool) (use : SaeriUse) : Dev :=
  let v := if neg then -i.amount else i.amount
  if d.isHere i.node then flagAdd i.flag.toNat v d
  else if ((topoOf (d.obj 0x4111 1)).pos? i.node.toNat).isNone ∨ d.nodeLost i.node then d
  else d.saeriRequest i.node 0x05 i.flag.toNat 4 (leBytes 4 v.toNat) use

/-- The increment of a descriptor's signal. -/
def Desc.incr (x : Desc) : Incr :=
  { node := BitVec.ofNat 12 (bits x.signal 55 44), flag := BitVec.ofNat 12 (bits x.signal 43 32), amount := BitVec.ofNat 32 x.signal }
def Desc.signals (x : Desc) : Bool := bit x.signal 63
def Desc.atCommit (x : Desc) : Bool := bit x.signal 62

/-- The status with which a completion-time signal to another node fails its descriptor (R250). -/
def Dev.signalFails (d : Dev) (x : Desc) : Option Status :=
  if !x.signals || x.atCommit || !x.finalStatus.isSuccess then none
  else match d.signalNode x with
    | none => none
    | some n =>
      if ((topoOf (d.obj 0x4111 1)).pos? n.toNat).isNone then some .address
      else if d.nodeLost n then some .peerLost else none

/-- What a completed descriptor's writes await: none but writes to other nodes that FENCE_FABRIC does not hold (R137, R139).
(DEDUCED, log entry 48) -/
def Dev.writesVisible (d : Dev) (x : Desc) : Bool :=
  (d.openWrites x).all fun o => o.parts == d.saeriParts o && !x.fenceFabric

/-- The producer's handle enters its queue (R164). -/
def Dev.pushHandle (d : Dev) (x : Desc) : Dev :=
  match d.ringAt (x.view 2).base, x.outBuf with
  | some (n, q), some h =>
    d.updRing n q fun g =>
      { queue := g.queue ++ [{ buf := h, round := x.round, committed := false }], held := g.held.filter fun e => e.handle.buf ≠ h }
  | _, _ => d

/-- A completed descriptor's effects in order: record, handle, signal. -/
def Dev.complete (fz : Fuses) (d : Dev) (x : Desc) : Dev :=
  let st := x.finalStatus
  let d1 := d.recordAs fz x st
  let d2 := if st.isSuccess then d1.pushHandle x else d1
  let d3 := if st.isSuccess ∧ x.signals ∧ !x.atCommit then
      (d2.signalAdd x.incr false (.signal x.key x.round x.attempt)).updRound x.round fun r => { r with increments := r.increments ++ [x.incr] }
    else d2
  d3.setStage x.key .completed

/-- A successful descriptor may complete: its round runs, its writes are visible, its chain has no more of it. -/
def Dev.mayComplete (d : Dev) (x : Desc) : Bool :=
  d.writesVisible x && match d.round? x.round with | some r => r.active && d.chainSettled r x | none => false

/-- DESCRIPTOR_COMPLETE. A ROUND_COMMIT completes only with its round (R140). -/
def descriptorComplete (fz : Fuses) (k : DescKey) (d : Dev) : Dev :=
  d.withDesc k fun x =>
    if x.stage ≠ .executed ∨ x.isCommit ∨ (d.descOk k ∧ !d.mayComplete x) then d
    else match d.signalFails x with
      | some st => d.failDesc k st
      | none => d.complete fz x

/-! ### The end of a round (R129) -/

/-- A core forgets the numbering, tiles and partials of a round. -/
def Core.forget (c : Core) (n : RoundNo) : Core :=
  { c with
    chainOrd := c.chainOrd.filter fun o => o.1 ≠ n
    carryOrd := c.carryOrd.filter fun o => o.1 ≠ n
    chainIn := c.chainIn.filter fun t => t.round ≠ n
    chainParts := c.chainParts.filter fun t => t.tile.round ≠ n
    carryIn := c.carryIn.filter fun m => m.round ≠ n }
/-- A stream forgets its run in a round and the slots to refetch for it. -/
def Stream.forget (x : Stream) (n : RoundNo) : Stream :=
  { x with run := if x.run = some n then none else x.run, refetch := x.refetch.filter fun q => q.round ≠ n }

/-- What remains of a round goes: its slots, its runs, its descriptors, its numbering, tiles, rows and notices, the round. -/
def Dev.dropRound (d : Dev) (r : Round) : Dev :=
  let n := r.number
  let d1 := r.runs.foldl (fun e u => e.updStream u.stream fun q => q.releaseSlots (d.runSlots u)) d
  { d1 with
    rounds := d1.rounds.filter fun q => q.number ≠ n
    descs := d1.descs.filter fun x => x.round ≠ n
    streams := d1.streams.map fun e => (e.1, e.2.forget n)
    cores := d1.cores.map fun e => (e.1, e.2.forget n)
    saeri := { d1.saeri with
      rows := d1.saeri.rows.filter fun q => q.round ≠ n
      rowAsks := d1.saeri.rowAsks.filter fun q => q.1 ≠ n
      notices := d1.saeri.notices.filter fun q => q.1 ≠ n } }

/-- The conditions of R140 hold in this device. (DEDUCED, log entry 46) -/
def Dev.commitReady (d : Dev) (r : Round) : Bool :=
  let ds := d.descs.filter fun x => x.round == r.number
  r.active && r.streams == r.runs.length
    && r.runs.all (fun u => match u.commitSlot with
        | some c => ds.any fun x => x.key.stream == u.stream && x.key.slot == c && x.isCommit
        | none => false)
    && ds.all (fun x => if x.isCommit then x.stage == .executed && d.descOk x.key else x.stage == .completed)
    && d.streams.all (fun e => e.2.refetch.all fun q => q.round != r.number)
    && d.accesses.all fun o => !(o.ofRound r && o.access.data.isSome)

/-- A row is released by its round (R75). -/
def BeamRow.free (w : BeamRow) (n : RoundNo) : BeamRow :=
  if w.owner = some n then { w with owner := none, unread := false, writer := none } else w
/-- The beam rows of a round are released (R75). -/
def Dev.freeRows (d : Dev) (n : RoundNo) : Dev :=
  { d with cores := d.cores.map fun e => (e.1, { e.2 with beam := e.2.beam.map fun b => (b.1, b.2.free n) }) }

/-- The round commits (R140, R141, R133, R146, R37, R43, R86, R112, R153). -/
def Dev.commitRound (fz : Fuses) (d : Dev) (r : Round) : Dev :=
  let n := r.number
  let ds := d.descs.filter fun x => x.round = n
  let total (f : Desc → Nat) : Nat := (ds.map f).foldl (· + ·) 0
  let d1 := (ds.filter Desc.isCommit).foldl (fun d x => d.recordAs fz x .done) d
  let d2 := (ds.filter fun x => x.signals && (x.atCommit || x.isCommit)).foldl (fun d x => d.signalAdd x.incr false (.flagAdd none)) d1
  let d3 := ((((d2.bump 0x3020 1 (total Desc.nUnder)).bump 0x3020 2 (total Desc.nSat)).bump 0x3040 1 (total Desc.nResc)).bump 0x3050 1
    (total Desc.nLane)).bump 0x3060 1 1
  let d4 := (d3.mapRings fun g => g.commit n).freeRows n
  (d4.eventAll 0 r.attempt n .done).dropRound r

/-- ROUND_COMMIT of a round of one device. A multi-device round commits by vote (R400). -/
def roundCommit (fz : Fuses) (n : RoundNo) (d : Dev) : Dev :=
  d.withRound n fun r => if r.peerGroup = 0 ∧ d.commitReady r then d.commitRound fz r else d

/-! ### The commands -/

/-- DESCRIPTOR_FETCH (R128). -/
def execDescriptorFetch (stream : StreamId) (s : State) : Host.Outcome State Fault Refusal := s.onClock (descriptorFetch s.fuses stream.toNat)
/-- DESCRIPTOR_ISSUE (R132). -/
def execDescriptorIssue (stream : StreamId) (s : State) : Host.Outcome State Fault Refusal := s.onClock (descriptorIssue stream.toNat)
/-- DESCRIPTOR_DELIVERY (R136). -/
def execDescriptorDelivery (stream : StreamId) (s : State) : Host.Outcome State Fault Refusal := s.onClock (descriptorDelivery s.fuses stream.toNat)
/-- PATCH_RELEASE (R190). -/
def execPatchRelease (core : CoreId) (s : State) : Host.Outcome State Fault Refusal := s.onClock (patchRelease core.toNat)
/-- DESCRIPTOR_COMPLETE (R137). -/
def execDescriptorComplete (stream : StreamId) (slot : SlotId) (s : State) : Host.Outcome State Fault Refusal :=
  s.onClock (descriptorComplete s.fuses { stream := stream.toNat, slot := slot.toNat })
/-- ROUND_COMMIT (R140). -/
def execRoundCommit (round : RoundNo) (s : State) : Host.Outcome State Fault Refusal := s.onClock (roundCommit s.fuses round)

end Sys2Proof.Machine
end

