-- ==== Sys2Proof/Machine/Restart.lean ====
section
/-! DEFINITION. Aborts and restarts of rounds (R134, R143, R390 to R392), the Tally bus (R394 to R401), the round timers (R148), deadlock
(R151, R152), and the end of a halt (R96). -/

namespace Sys2Proof.Machine

/-! ### Abort (R390, R143) -/

/-- A cause ends the round: it is no hardware fault, or the restart limit is reached (R7, R391). -/
def Round.endsOn (r : Round) (st : Status) : Bool := !st.isHardware || r.settingNat 0x2170 1 ≤ r.attempt

/-- A descriptor has failed with a status of its own. -/
def Desc.fault? (x : Desc) : Option Status := match x.status with | some s => if s.isSuccess then none else some s | none => none

/-- Records of an ended round for every slot that has none from the final attempt (R143). -/
def Dev.endRecords (fz : Fuses) (d : Dev) (r : Round) (st : Status) : Dev :=
  r.runs.foldl
    (fun d u => (d.runSlots u).foldl
      (fun d slot =>
        let k : DescKey := { stream := u.stream, slot := slot }
        match d.desc? k with
        | some x => if x.recorded then d else d.recordAs fz x (x.fault?.getD st)
        | none =>
          if r.recorded.contains k then d
          else d.writeRecord fz u.stream slot st 0 r.attempt ((d.stream u.stream).slotPhase slot) r.number) d) d

/-- Failed descriptors complete with their own cause: their records are provisional (R142). -/
def Dev.faultRecords (fz : Fuses) (d : Dev) (n : RoundNo) : Dev :=
  (d.descs.filter fun x => x.round == n && x.fault?.isSome && !x.recorded && !x.isCommit).foldl
    (fun d x => d.recordAs fz x x.finalStatus) d

/-- A round aborts here (R390, R391). `own`: the status of this device's abort; `received`: by a frame of another member. -/
def Dev.abortRound (fz : Fuses) (d : Dev) (n : RoundNo) (own : Status) (ends exhausted received : Bool) : Dev :=
  d.withRound n fun r =>
    let endSt := if exhausted ∧ !received then .hwUncorrectable else own
    let held := !ends && r.hold != .none
    let kind : BitVec 2 := if ends then 2 else if r.hold = .peer ∨ r.hold = .region then 3 else 1
    let d1 := if r.phase = .running then d.faultRecords fz n else d
    let d2 := if ends then d1.endRecords fz r endSt else d1
    let recorded := (d2.descs.filter fun x => x.round == n && x.recorded).map Desc.key
    let waiting := (d2.descs.filter fun x => x.round == n && (x.stage == .fetched || x.stage == .issued)).map Desc.key
    let d3 := if r.phase = .running then
        (let d3 := d2.clearRound n own
         { d3 with restores := d3.restores ++ [{ round := n, rslot := r.rslot, increments := r.increments }],
                   streams := d3.streams.map fun e => (e.1, { e.2 with refetch := e.2.refetch.filter fun q => q.round ≠ n }) })
      else d2
    let d4 := (d3.eventAll kind r.attempt n own).logFault n own r.attempt ends received held
    let d5 := if ends ∧ exhausted then d4.bump 0x3170 2 1 else d4
    if ends then (d5.bump 0x3060 2 1).dropRound r
    else d5.updRound n fun r =>
      { r with phase := .aborted, cause := r.later, later := none, lastStatus := some own, endings := (r.attempt, own) :: r.endings
               waitRegions := if r.hold = .region then r.deps else r.waitRegions, recorded := recorded, increments := []
               undelivered := if r.phase = .running then waiting else r.undelivered }

/-- A frame for a cause of a multi-device round is handed to the bus, in place of any earlier one for the round (R394). -/
def Dev.tallyFrame (d : Dev) (n : RoundNo) (final : Bool) (st : Status) : Dev :=
  { d with tally := { d.tally with frames := (d.tally.frames.filter fun f => f.1 ≠ n) ++ [(n, final, st)] } }

/-- ROUND_ABORT: the device acts on the cause of a round, and first on one that it is told of. -/
def roundAbort (fz : Fuses) (n : RoundNo) (cause : Option Status) (d : Dev) : Dev :=
  let d1 := match cause with
    | some st => if st.isSuccess then d else d.raise n st
    | none => d
  d1.withRound n fun r =>
    match r.cause with
    | none => d1
    | some st =>
      if r.peerGroup = 0 then d1.abortRound fz n st (r.endsOn st) (r.endsOn st && st.isHardware) false
      else d1.tallyFrame n (!r.endsOn st) st

/-! ### Restoring flags (R134) -/

/-- Traffic of the aborted attempt is still under way (R234, R390). -/
def Dev.trafficOf (d : Dev) (e : Restore) : Bool :=
  let live := match d.round? e.round with | some r => r.phase == .running | none => false
  d.noc.packets.any (fun k => k.rslot.toNat == e.rslot)
    || (!live && d.accesses.any fun o => match o.access.origin with
      | .engine _ m _ => m == e.round
      | .fabric _ _ cmd => cmdOfRound cmd e.round
      | _ => false)

/-- FLAG_RESTORE: local flags are reduced at once, flags of other nodes by requests; the round is restored once they are answered. -/
def flagRestore (n : RoundNo) (d : Dev) : Dev :=
  match d.restores.find? fun e => e.round = n with
  | none => d
  | some e =>
    if d.trafficOf e then d
    else
      let use : SaeriUse := .restore n e.rslot
      let left := d.restores.erase e
      let d1 := e.increments.foldl (fun d i => d.signalAdd i true use) { d with restores := { e with increments := [] } :: left }
      if d1.saeri.outstanding.any fun q => q.use = use then d1
      else Dev.updRound { d1 with restores := left } n fun r => if r.phase = .aborted ∧ r.rslot = e.rslot then { r with phase := .restored } else r

/-! ### Restart (R392) -/

/-- A slot to refetch put in its place. -/
def insertRefetch (x : Stream) (e : Refetch) : List Refetch → List Refetch
  | [] => [e]
  | h :: t => if x.place e.slot < x.place h.slot then e :: h :: t else h :: insertRefetch x e t

/-- The slots of a run are to be fetched again. -/
def Dev.refetchRun (d : Dev) (n : RoundNo) (u : Run) : Dev :=
  let x := d.stream u.stream
  let again := (d.runSlots u).map fun i => ({ slot := i, phase := x.slotPhase i, round := n } : Refetch)
  let next := if u.stuck then [({ slot := x.fetch.toNat, phase := x.phase, round := n } : Refetch)] else []
  d.updStream u.stream fun x => { x with refetch := (again ++ next).foldl (fun l e => insertRefetch x e l) x.refetch }

/-- The next attempt begins. -/
def Dev.restartRound (d : Dev) (r : Round) : Dev :=
  let d1 := r.runs.foldl (fun d u => d.refetchRun r.number u) d
  let d2 := d1.updRound r.number fun r =>
    { r with phase := .running, attempt := r.attempt + 1, cause := none, later := none, undelivered := [], nodesUsed := [], recorded := [], deps := [] }
  let d3 := d2.bump 0x3170 1 1
  if r.settingNat 0x4040 1 = 1 then d3.bump 0x3040 3 1 else d3

/-- The round waits for nothing but its restart. -/
def Round.restartReady (r : Round) : Bool := r.phase == .restored && r.hold == .none && r.cause.isNone

/-- ROUND_RESTART of a round of one device. A multi-device round restarts by vote (R398). -/
def roundRestart (n : RoundNo) (d : Dev) : Dev :=
  d.withRound n fun r => if r.peerGroup = 0 ∧ r.restartReady then d.restartRound r else d

/-! ### The round timers (R148, R96) -/

/-- A halted core holds a descriptor of the round: its timers stand (R96). -/
def Dev.timersStand (d : Dev) (n : RoundNo) : Bool :=
  d.descs.any fun x => x.round == n && x.stage != .completed && (d.core x.core).halt != 0

/-- ROUND_TOO_LONG: the attempt has run for `us` microseconds that count. -/
def roundTooLong (n : RoundNo) (us : Nat) (d : Dev) : Dev :=
  d.withRound n fun r =>
    if r.phase = .running ∧ r.settingNat 0x2060 1 ≤ us ∧ !d.timersStand n then d.raise n .roundTooLong else d

/-- CORE_HALTED: the engines of a core asked to halt are empty. -/
def coreHalted (n : Nat) (d : Dev) : Dev :=
  let c := d.core n
  if c.halt = 1 ∧ c.array.job.isNone ∧ c.slate.job.isNone ∧ d.descs.all fun x => !(x.core == n && (x.stage == .running || (x.stage == .ready && x.begun))) then
    d.updCore n fun c => { c with halt := 2 }
  else d

/-! ### Deadlock (R151, R152) -/

/-- A weight chain stops a descriptor (R65). One that waits for a handle holds its load engine instead (R168). -/
def Dev.stopped (d : Dev) (x : Desc) : Bool :=
  x.chainEn && match x.stage with
    | .ready | .running => (d.core x.core).array.flight.isEmpty && !d.handleBlocked x
    | .executed => true
    | _ => false

/-- The oldest descriptor of the round in a stream that a weight chain holds (R65). (DEDUCED, log entry 49) -/
def Dev.chainStopped (d : Dev) (n : RoundNo) (s : Nat) : Option Desc :=
  let x := d.stream s
  (d.descs.filter fun q => q.key.stream == s && q.round == n && d.stopped q).foldl
    (fun best q => match best with
      | none => some q
      | some b => if x.place q.key.slot < x.place b.key.slot then some q else some b) none

/-- Why a participating stream is blocked, as an entry of R152; none while it is not. (DEDUCED, log entry 49) -/
def Dev.blockedEntry (d : Dev) (r : Round) (u : Run) : Option (List Byte) :=
  let x := d.stream u.stream
  let entry (why slot what wait thresh value : Nat) : List Byte :=
    leBytes 1 u.stream ++ leBytes 1 why ++ leBytes 2 slot ++ leBytes 2 what ++ leBytes 1 wait ++ [0] ++ leBytes 4 thresh ++ leBytes 4 value
  if u.commitSlot.isNone ∧ x.empty ∧ x.refetch = [] then none
  else match d.chainStopped r.number u.stream with
  | some q => some (entry 1 q.key.slot q.chain 0 0 0)
  | none =>
    let unissued := match d.oldestUnissued u.stream with | some q => if q.round = r.number then some q else none | none => none
    match unissued with
    | some q =>
      match d.firstWait q with
      | some i =>
        let w := q.word (5 + i)
        some (entry 0 q.key.slot (bits w 43 32) i (bits w 31 0) (d.flag (bits w 43 32)).toNat)
      | none => none
    | none =>
      match u.commitSlot with
      | some c => some (entry 4 c 0 0 0 0)
      | none => if 1024 ≤ d.inFlight ∧ x.enable ∧ !x.empty then some (entry 2 x.fetch.toNat 0 0 0 0) else none

/-- A descriptor stands behind one that a weight chain stops: in its stream or its core before delivery, in its core's load queue after it. -/
def Dev.behindStopped (d : Dev) (x : Desc) : Bool :=
  let s := d.stream x.key.stream
  match x.stage with
  | .issued => d.descs.any fun q => d.stopped q && (q.core == x.core || (q.key.stream == x.key.stream && s.place q.key.slot < s.place x.key.slot))
  | .ready => ((d.core x.core).loadQ.takeWhile fun k => k != x.key).any fun k => match d.desc? k with | some q => d.stopped q | none => false
  | _ => false

/-- A descriptor of the round is work in an engine, awaits delivery or a patch. One that a weight chain stops is not (R65), nor one behind
it. -/
def Dev.holdsWork (d : Dev) (x : Desc) : Bool :=
  match x.stage with
  | .patching | .frozen => true
  | .issued | .ready | .running => !d.stopped x && !d.behindStopped x
  | .executed => !x.isCommit && !d.stopped x
  | .fetched | .completed => false

/-- The conditions of R151 hold in this device, and each stream's entry, in the order in which the runs began.
(DESIGN CHOICE, log entry 99) -/
def Dev.quiescent (d : Dev) (r : Round) : Option (List (List Byte)) :=
  let n := r.number
  let es := r.runs.filterMap fun u => d.blockedEntry r u
  if r.active && r.streams == r.runs.length && es.length == r.runs.length && !d.timersStand n
      && d.descs.all (fun x => x.round != n || !d.holdsWork x)
      && d.saeri.outstanding.all (fun q => !d.reqOfRound r q)
      && d.noc.packets.all (fun k => k.rslot.toNat != r.rslot)
      && d.cores.all (fun e => e.2.port.outstanding.all fun o => !cmdOfRound o.2 n) then some es
  else none

/-- The record of a declaration (R152). -/
def Dev.deadlockBytes (d : Dev) (n : RoundNo) (es : List (List Byte)) : List Byte :=
  leBytes 4 n.toNat ++ leBytes 2 es.length ++ [0, 0] ++ leBytes 8 d.timestamp ++ es.flatten

/-- This device declares for its peer group: every peer has given notice and no node number is lower. -/
def Dev.declares (d : Dev) (r : Round) : Bool :=
  r.peerGroup == 0 || r.peers.all fun p => p == d.nodeId || (d.nodeId.toNat ≤ p.toNat && d.saeri.notices.contains (r.number, p))

/-- DEADLOCK: the conditions have held for `cycles`. -/
def deadlock (n : RoundNo) (cycles : Nat) (d : Dev) : Dev :=
  d.withRound n fun r =>
    match d.quiescent r with
    | none => d
    | some es =>
      if cycles < 65536 ∨ !d.declares r then d
      else Dev.raise { d with deadlockRecord := d.deadlockBytes n es } n .deadlock

/-! ### The Tally bus (R394 to R401) -/

/-- ABORT_FRAME: a frame completes on TALLY1. A void frame changes nothing. (DEDUCED, log entry 52) -/
def abortFrame (fz : Fuses) (n : RoundNo) (final : Bool) (code : Nat) (stop : Bool) (d : Dev) : Dev :=
  if !stop then d
  else
    let st := Status.ofCode code
    let mine := d.tally.frames.contains (n, final, st)
    let d0 : Dev := { d with tally := { d.tally with frames := d.tally.frames.filter fun f => f.1 ≠ n } }
    let d1 := if mine then d0.bump 0x3170 4 1 else d0
    d1.withRound n fun r =>
      if r.peerGroup = 0 ∨ (r.phase ≠ .running ∧ final) then d1
      else
        let own := if mine then r.cause.getD st
          else if r.causeAt = d.cycles then (Status.join r.cause .peerAbort).getD .peerAbort else .peerAbort
        let hold : Hold := if st = .peerLost then .peer else if r.hold = .peer then .none else r.hold
        let d2 := d1.updRound n fun r => { r with hold := if final then hold else r.hold }
        d2.abortRound fz n own (!final) (!final && st.isHardware) (!mine)

/-- A device that is ready sends the vote frame and wins with it (R400). (DESIGN CHOICE, log entry 50) -/
def Dev.countVote (d : Dev) (ready stop : Bool) : Dev := if ready ∧ stop then d.bump 0x3170 8 1 else d

/-- COMMIT_VOTE: a commit vote completes on TALLY0. -/
def commitVote (fz : Fuses) (n : RoundNo) (group : Nat) (vote stop : Bool) (d : Dev) : Dev :=
  d.withRound n fun r =>
    let ready := r.peerGroup == group && r.peerGroup != 0 && d.commitReady r
    let d1 := d.countVote ready stop
    if ready ∧ vote ∧ stop then d1.commitRound fz r else d1

/-- RESTART_VOTE: a restart vote completes on TALLY0. -/
def restartVote (n : RoundNo) (group : Nat) (vote stop : Bool) (d : Dev) : Dev :=
  d.withRound n fun r =>
    let ready := r.peerGroup == group && r.peerGroup != 0 && r.restartReady && !d.tally.stuck1 && !d.tally.stuck0
    let d1 := d.countVote ready stop
    if ready ∧ vote ∧ stop then d1.restartRound r else d1

/-- Rounds that span devices. -/
def Dev.spanning (d : Dev) : List Round := d.rounds.filter fun r => r.peerGroup ≠ 0

/-- The restart of a round is held, unless something holds it already. -/
def Dev.holdRound (d : Dev) (n : RoundNo) (h : Hold) : Dev := d.updRound n fun r => if r.hold = .none then { r with hold := h } else r

/-- TALLY1_STUCK: the line has read 0 for `cycles` (R397). -/
def tally1Stuck (fz : Fuses) (cycles : Nat) (d : Dev) : Dev :=
  if cycles < 64 ∨ d.tally.stuck1 then d
  else
    let d0 : Dev := { d with tally := { d.tally with stuck1 := true, frames := [] } }
    d0.spanning.foldl
      (fun d r =>
        if r.phase = .running then
          (let st := ((r.raise d.cycles .hwUncorrectable).cause).getD .hwUncorrectable
           (d.holdRound r.number .tally1).abortRound fz r.number st (r.endsOn st) (r.endsOn st && st.isHardware) false)
        else d.holdRound r.number .tally1)
      d0

/-- The rounds that a line held go on. -/
def Dev.unhold (d : Dev) (h : Hold) : Dev :=
  { d with rounds := d.rounds.map fun r => if r.hold = h then { r with hold := .none } else r }

/-- TALLY1_RECOVERED. -/
def tally1Recovered (cycles : Nat) (d : Dev) : Dev :=
  if cycles < 64 ∨ !d.tally.stuck1 then d else Dev.unhold { d with tally := { d.tally with stuck1 := false } } .tally1

/-- TALLY0_STUCK (R401): the rounds abort by frames on TALLY1. -/
def tally0Stuck (cycles : Nat) (d : Dev) : Dev :=
  if cycles < 64 ∨ d.tally.stuck0 then d
  else
    let d0 : Dev := { d with tally := { d.tally with stuck0 := true } }
    d0.spanning.foldl (fun d r => (if r.phase = .running then d.raise r.number .hwUncorrectable else d).holdRound r.number .tally0) d0

/-- TALLY0_RECOVERED. -/
def tally0Recovered (cycles : Nat) (d : Dev) : Dev :=
  if cycles < 64 ∨ !d.tally.stuck0 then d else Dev.unhold { d with tally := { d.tally with stuck0 := false } } .tally0

/-! ### The commands -/

/-- ROUND_ABORT (R390). -/
def execRoundAbort (round : RoundNo) (cause : Option Status) (s : State) : Host.Outcome State Fault Refusal :=
  s.onClock (roundAbort s.fuses round cause)
/-- FLAG_RESTORE (R134). -/
def execFlagRestore (round : RoundNo) (s : State) : Host.Outcome State Fault Refusal := s.onClock (flagRestore round)
/-- ROUND_RESTART (R392). -/
def execRoundRestart (round : RoundNo) (s : State) : Host.Outcome State Fault Refusal := s.onClock (roundRestart round)
/-- ROUND_TOO_LONG (R148). -/
def execRoundTooLong (round : RoundNo) (elapsedUs : Nat) (s : State) : Host.Outcome State Fault Refusal := s.onClock (roundTooLong round elapsedUs)
/-- DEADLOCK (R151). -/
def execDeadlock (round : RoundNo) (heldCycles : Nat) (s : State) : Host.Outcome State Fault Refusal := s.onClock (deadlock round heldCycles)
/-- CORE_HALTED (R96). -/
def execCoreHalted (core : CoreId) (s : State) : Host.Outcome State Fault Refusal := s.onClock (coreHalted core.toNat)
/-- ABORT_FRAME (R395). -/
def execAbortFrame (round : RoundNo) (final : Bool) (status : Byte) (stop : Bool) (s : State) : Host.Outcome State Fault Refusal :=
  s.onClock (abortFrame s.fuses round final status.toNat stop)
/-- COMMIT_VOTE (R400). -/
def execCommitVote (round : RoundNo) (group : Byte) (vote stop : Bool) (s : State) : Host.Outcome State Fault Refusal :=
  s.onClock (commitVote s.fuses round group.toNat vote stop)
/-- RESTART_VOTE (R400). -/
def execRestartVote (round : RoundNo) (group : Byte) (vote stop : Bool) (s : State) : Host.Outcome State Fault Refusal :=
  s.onClock (restartVote round group.toNat vote stop)
/-- TALLY1_STUCK (R397). -/
def execTally1Stuck (lowCycles : Nat) (s : State) : Host.Outcome State Fault Refusal := s.onClock (tally1Stuck s.fuses lowCycles)
/-- TALLY1_RECOVERED (R397). -/
def execTally1Recovered (highCycles : Nat) (s : State) : Host.Outcome State Fault Refusal := s.onClock (tally1Recovered highCycles)
/-- TALLY0_STUCK (R401). -/
def execTally0Stuck (lowCycles : Nat) (s : State) : Host.Outcome State Fault Refusal := s.onClock (tally0Stuck lowCycles)
/-- TALLY0_RECOVERED (R401). -/
def execTally0Recovered (highCycles : Nat) (s : State) : Host.Outcome State Fault Refusal := s.onClock (tally0Recovered highCycles)

end Sys2Proof.Machine
end

