-- ==== Sys2Proof/Machine/Engines.lean ====
section
/-! DEFINITION. The load engine of a core: the start of NOP, COPY and SLATE descriptors (R121), the buffers and handles they take
(R163 to R166), and the slates that views and side vectors load (R99, R101, R124, R157). -/

namespace Sys2Proof.Machine

/-! ### Starting a descriptor -/

/-- The engines of a core may work on a descriptor: its round runs, its cluster is in P0 and below 105 °C (R381). -/
def Dev.mayWork (d : Dev) (x : Desc) : Bool := d.roundActive x.round && d.engineOk x.core

/-- The load engine is done with a descriptor. -/
def Dev.leaveLoad (d : Dev) (x : Desc) : Dev := d.updCore x.core fun c => { c with loadQ := c.loadQ.filter fun q => q ≠ x.key }

/-- A descriptor that has met no fault is executed, with a status of its own or, `none`, with that of its flags. -/
def Dev.executed (d : Dev) (k : DescKey) (st : Option Status) : Dev :=
  if d.descOk k then d.updDesc k fun x => { x with stage := .executed, status := st.or x.status } else d

/-- The output handle view takes the lowest free buffer, or the descriptor fails (R164, R169). -/
def Dev.takeOut (d : Dev) (x : Desc) : Dev :=
  match d.ringAt (x.view 2).base, x.outBuf with
  | some (n, q), none =>
    match d.freeBufs n q with
    | [] => d.failDesc x.key .mapOverflow
    | h :: _ =>
      let e : Held := { handle := { buf := h, round := x.round, committed := false }, holder := .producer x.key x.round }
      (d.updRing n q fun g => { g with held := g.held ++ [e] }).updDesc x.key fun x => { x with outBuf := some h }
  | _, _ => d

/-- The load engine begins the descriptor at its head, or goes on with it: it is checked, of this operation, and its core is not asked to halt
before it has begun (R96). An EMPTY
one touches no memory (R150). -/
def Dev.begin (d : Dev) (k : DescKey) (op : Nat) (f : Desc → Round → Dev → Dev) : Dev :=
  d.withDesc k fun x => d.withRound x.round fun r =>
    let c := d.core x.core
    if x.op ≠ op ∨ x.stage ≠ .ready ∨ c.loadQ.head? ≠ some k ∨ (c.halt ≠ 0 ∧ !x.begun) ∨ !d.mayWork x then d
    else if x.isEmpty then (d.leaveLoad x).executed k (some .empty)
    else f x r (d.updDesc k fun x => { x with begun := true })

/-- Goes on with a descriptor if it has met no fault, as it stands now. -/
def Dev.goOn (d : Dev) (k : DescKey) (f : Desc → Dev → Dev) : Dev := if d.descOk k then d.withDesc k fun x => f x d else d

/-- NOP: its waits, fences and signal are all it has (R121). It enters no engine, so neither the load engine's order nor a halt holds it.
(DEDUCED, log entry 53) -/
def nopRun (k : DescKey) (d : Dev) : Dev :=
  d.withDesc k fun x => if x.op ≠ 0 ∨ x.stage ≠ .ready ∨ !d.roundActive x.round then d else d.executed k none

/-! ### COPY (R121, R157) -/

/-- The bytes of a view, as stretches of generated addresses. -/
def View.stretches (v : View) : List (Int × Nat) :=
  (List.range v.runs).flatMap fun k =>
    let r := v.runAt k
    match v.block? with
    | some b =>
      let e := b * v.width / 8
      (List.range (v.count 0 / b)).flatMap fun q =>
        let g := r + (q / 32 * groupBytes v.width b : Nat)
        [(g + (q % 32 : Nat), 1), (g + (32 + q % 32 * e : Nat), e)]
    | none =>
      if v.width < 8 then [(r, v.count 0 * v.width / 8)]
      else (List.range (v.count 0)).map fun i => (r + (i : Nat) * v.stride 0, v.width / 8)

/-- A stretch of generated addresses as a stretch of the device's space. -/
def Dev.placeOf (d : Dev) (bound : Option (Nat × Nat × Nat)) (e : Int × Nat) : Option (Nat × Nat) :=
  match d.locate bound e.1 e.2 with | .ok a => some (a, e.2) | .error _ => none

/-- A write whose bytes the manual leaves undefined: the free values of draw `n` (R157). -/
def Dev.blurred (d : Dev) (bound : Option (Nat × Nat × Nat)) (n : Nat) (w : Int × List Byte) : Int × List Byte :=
  match d.placeOf bound (w.1, w.2.length) with
  | some p => (w.1, (List.range w.2.length).map fun i => Config.overlapByte n (p.1 + i))
  | none => w

/-- Some stretch of one list overlaps one of the other. -/
def anyOverlap (a b : List (Nat × Nat)) : Bool := a.any fun p => b.any fun q => overlaps p.1 p.2 q.1 q.2

/-- COPY: VIEW0 is read, then VIEW2 written; where they overlap the bytes written are free values. (DESIGN CHOICE, log entry 18) -/
def copyRun (fz : Fuses) (k : DescKey) (d : Dev) : Dev :=
  d.begin k 1 fun x r d =>
    if d.untaken x ≠ [] then d
    else (d.takeOut x).goOn k fun x d =>
      match pullView fz x.origin (d.bindOf x 0) (x.view 0) d with
      | .wait d => d
      | .fail st d => d.failDesc k st
      | .ok vals d =>
        let v := x.view 2
        let parts := storeWalk v (r.settingNat 0x4020 1) (v.runs + 1) 0 vals
        let ws := parts.flatMap Stored.writes
        let src := (x.view 0).stretches.filterMap (d.placeOf (d.bindOf x 0))
        let dst := ws.filterMap fun w => d.placeOf (d.bindOf x 2) (w.1, w.2.length)
        let hit := anyOverlap src dst
        let out : Stored :=
          { writes := if hit then ws.map (d.blurred (d.bindOf x 2) d.draws) else ws
            sat := (parts.map Stored.sat).foldl (· + ·) 0
            under := (parts.map Stored.under).foldl (· + ·) 0 }
        let d1 : Dev := if hit then { d with draws := d.draws + 1 } else d
        (((d1.leaveLoad x).store fz x out).executed k none)

/-! ### SLATE (R99, R101, R124, R157) -/

/-- The key of a slate position. -/
def slateKey (slate p : Nat) : Nat := slate * 256 + p
/-- A position of a core's slates; one not written in this descriptor is a free value (R101). (DESIGN CHOICE, log entry 16) -/
def Core.slateAt (c : Core) (slate p : Nat) : Word :=
  tabGet (Config.slateContents c.slate.epoch (slateKey slate p)) c.slate.pos (slateKey slate p)
/-- Writes positions of a slate, in order. -/
def SlateEngine.put (e : SlateEngine) (slate : Nat) (l : List (Nat × Word)) : SlateEngine :=
  { e with pos := l.foldl (fun t w => tabSet t (slateKey slate w.1) w.2) e.pos }

/-- Packed codes as slate words; without a partner the upper half stays as it was. -/
def packWords (old : Nat → Word) : Nat → List Nat → List (Nat × Word)
  | _, [] => []
  | p, [c] => [(p, BitVec.ofNat 32 (c + 65536 * (bits (old p).toNat 31 16)))]
  | p, c :: e :: t => (p, BitVec.ofNat 32 (c + 65536 * e)) :: packWords old (p + 1) t

/-- What an input view loads: its values by position. -/
def Core.viewWords (c : Core) (v : View) (vals : List Val) : List (Nat × Word) :=
  if v.pack then packWords (c.slateAt v.slate) 0 (vals.map (packedCode v))
  else (List.range vals.length).zip (vals.map (slateWord v))

/-- An FP32 side-vector value: NaNs are canonical (R25). -/
def auxWord (isInt : Bool) (w : Word) : Word := if isInt then w else toFp32 (ofFp32 w)

/-- The side vectors of a descriptor from `AUXBASE + off`, `n` values each: slate and values. -/
def pullSides (fz : Fuses) (x : Desc) (off n : Nat) (d : Dev) : Pull (List (Nat × List (Nat × Word))) :=
  let one (v : View) (d : Dev) : Pull (Nat × List (Nat × Word)) :=
    (pullAux fz x.origin (v.auxBase + off) n d).then fun ws d => .ok (v.auxSlate, (List.range n).zip (ws.map (auxWord v.auxInt))) d
  pullAll ((x.views.filter fun e => e.2.auxEn).map fun e => one e.2) d

/-- The input views of a SLATE: view and values. -/
def pullInputs (fz : Fuses) (x : Desc) (d : Dev) : Pull (List (View × List Val)) :=
  let one (e : Nat × View) (d : Dev) : Pull (View × List Val) :=
    (pullView fz x.origin (d.bindOf x e.1) e.2 d).then fun vals d => .ok (e.2, vals) d
  pullAll ((x.views.filter fun e => e.1 < 2).map one) d

/-- The slate engine begins a descriptor: every position is undefined (R101). -/
def Dev.freshSlates (d : Dev) (n : Nat) (j : SlateJob) : Dev :=
  let e := d.draws
  Dev.updSlate { d with draws := e + 1 } n fun _ => { job := some j, pos := [], epoch := e }

/-- MATMULs of a core whose epilogue has not ended. -/
def Dev.epilogues (d : Dev) (n : Nat) : List MatJob :=
  (d.core n).jobs.filter fun j => !j.stored && match d.desc? j.key, d.round? j.round with
    | some x, some r => r.stores x
    | _, _ => false

def newSlateJob (key : DescKey) (round : RoundNo) (isMat : Bool) : SlateJob :=
  { key := key, round := round, isMat := isMat, pc := 0, cursor := 0, buffer := [], blk := 0, next := 0, loaded := false, reads := [] }

/-- SLATE: the slate engine takes it after every descriptor issued to it before (R102); views load, then side vectors.
(DESIGN CHOICE, log entry 55) -/
def slateRun (fz : Fuses) (k : DescKey) (d : Dev) : Dev :=
  d.begin k 2 fun x _ d =>
    if d.untaken x ≠ [] ∨ (d.core x.core).slate.job.isSome ∨ d.epilogues x.core ≠ [] then d
    else (d.takeOut x).goOn k fun x d =>
      match (pullInputs fz x d).then fun ins d => (pullSides fz x 0 x.vl d).then fun sides d => .ok (ins, sides) d with
      | .wait d => d
      | .fail st d => d.failDesc k st
      | .ok (ins, sides) d =>
        let d1 := (d.leaveLoad x).freshSlates x.core (newSlateJob k x.round false)
        let d2 := ins.foldl (fun d e => d.updCore x.core fun c => { c with slate := c.slate.put e.1.slate (c.viewWords e.1 e.2) }) d1
        let d3 := sides.foldl (fun d e => d.updSlate x.core fun s => s.put e.1 e.2) d2
        d3.setStage k .running

/-! ### HANDLE_TAKE (R165, R166) -/

/-- The load engine takes the head handle of the ring of its next consumer view, if it is of this round or of one that has committed.
(DEDUCED, log entry 53) -/
def handleTake (k : DescKey) (d : Dev) : Dev :=
  d.withDesc k fun x =>
    let c := d.core x.core
    if (x.stage ≠ .ready ∧ x.stage ≠ .running) ∨ c.loadQ.head? ≠ some k ∨ (c.halt ≠ 0 ∧ !x.begun) ∨ !d.mayWork x ∨ x.isEmpty then d
    else match (d.untaken x).head? with
      | none => d
      | some v =>
        match d.ringAt (x.view v).base with
        | none => d
        | some (n, q) =>
          match (d.ring n q).queue with
          | [] => d
          | h :: rest =>
            if h.round ≠ x.round ∧ !h.committed then d
            else
              let e : Held := { handle := h, holder := .consumer k x.round }
              (d.updRing n q fun g => { queue := rest, held := g.held ++ [e] }).updDesc k fun x =>
                if v = 0 then { x with inBuf0 := some h.buf, begun := true } else { x with inBuf1 := some h.buf, begun := true }

end Sys2Proof.Machine
end

