-- ==== Sys2Proof/Machine/Array.lean ====
section
/-! DEFINITION. The bead array and the beam: the start of a MATMUL (R121, R158 to R160), the loading of weight tiles (R51 to R53), the
feeder queues (R54), the release of vectors (R55), the beam (R73 to R80) and the overflow repeat (R81 to R87). -/

namespace Sys2Proof.Machine

/-! ### The job in the array -/

/-- A job with its descriptor and round, if its core's engines may work on it. -/
def Dev.jobCtx (d : Dev) (j : MatJob) : Option (MatJob × Desc × Round) :=
  match d.desc? j.key, d.round? j.round with
  | some x, some r => if d.mayWork x && d.descOk j.key then some (j, x, r) else none
  | _, _ => none

/-- Acts on a job. -/
def Dev.onJob (d : Dev) (j : Option MatJob) (f : MatJob → Desc → Round → Dev) : Dev :=
  match j.bind d.jobCtx with | some e => f e.1 e.2.1 e.2.2 | none => d
/-- Acts on the MATMUL in a core's array. -/
def Dev.withJob (d : Dev) (n : Nat) (f : MatJob → Desc → Round → Dev) : Dev := d.onJob (d.core n).array.job f
/-- Acts on the MATMUL that the load side serves: the one behind it, where there is one (R172). -/
def Dev.withLoad (d : Dev) (n : Nat) (f : MatJob → Desc → Round → Dev) : Dev := d.onJob ((d.core n).array.next.or (d.core n).array.job) f
/-- Acts on the MATMUL whose vectors are released: the one behind it once every vector of the one in the array has left (R172). -/
def MatJob.released (j : MatJob) : Bool := !j.nOpen && (j.rows == [] || j.total ≤ j.blk) && !j.overflow
def Dev.withRelease (d : Dev) (n : Nat) (f : MatJob → Desc → Round → Dev) : Dev :=
  let a := (d.core n).array
  d.onJob (if a.job.all MatJob.released then a.next else a.job) f
/-- Replaces it. -/
def Dev.putJob (d : Dev) (n : Nat) (j : MatJob) : Dev := d.updJob n j.key fun _ => j

/-- N of a MATMUL where its own views, or those of the descriptor that stores for its carry group, which has the same output shape (R91, R158),
give it. (DEDUCED, log entry 58) -/
def Dev.nOf (d : Dev) (x : Desc) (r : Round) : Option Nat :=
  if x.nKnown then some x.nExt
  else match (r.carryOf x.carry).head? with
    | none => none
    | some c =>
      (d.descs.find? fun q => q.round == x.round && q.core == c && q.carryEn && q.carry == x.carry && q.carryOrd == x.carryOrd
        && q.stage != .fetched && q.stage != .issued).map Desc.nExt

/-- The unmasked rows, rising (R59). -/
def Desc.unmasked (x : Desc) : List Nat := (List.range x.mExt).filter fun m => !bit x.mask (m % 64)

/-- A MATMUL as it enters the array. With no row and no tile there is nothing to do. `nOpen`: N is yet to be told. -/
def newJob (x : Desc) (n : Nat) (nOpen : Bool) (wfmt : Nat) : MatJob :=
  let v := x.view 1
  let rows := x.unmasked
  let total := v.batch * ceilDiv n 64
  { key := x.key, round := x.round, m := x.mExt, n := n, k := x.kExt, batch := v.batch, window := x.beamRows, base := x.beamBase, rows := rows,
    chained := x.chainEn, nOpen := nOpen,
    wfmt := wfmt, afmt := v.format, accumulate := x.accumulate, loadBlk := if x.kExt = 0 then total - 1 else 0, loadTile := 0, loadRow := 0,
    repeating := false, useTile := 0, blk := 0, tile := 0, vec := 0, attempt := 1, began := 0, overflow := false,
    finished := if rows = [] ∧ x.kExt = 0 then total else 0,
    rowsFinal := 0, pass := 0, asks := [], told := [], got := [], sent := [], nodeDone := [], readRows := 0, stored := false }

/-- MATMUL: it enters the array, or stands behind the one there, whose reads have all been issued (R121, R172). An N that nothing gives yet is
taken from the tile headers. (DESIGN CHOICE, log entry 55) -/
def matmulRun (k : DescKey) (d : Dev) : Dev :=
  d.begin k 3 fun x r d =>
    if (d.core x.core).array.next.isSome then d
    else (d.takeOut x).goOn k fun x d =>
      let n := d.nOf x r
      let j := newJob x (n.getD 64) n.isNone (if r.ownWeights x then (x.view 0).format else 0)
      (d.updArray x.core fun a =>
        if a.job.isSome then { a with next := some j, nextFeeders := [] }
        else { ArrayEngine.reset with job := some j, waiting := a.waiting }).setStage k .running

/-! ### Operands along the reduction (R49, R51, R158) -/

/-- Reduction indices k to k + len − 1 as stretches of level 0: i0, i2 and length, at most `fuel` stretches. -/
def segments : Nat → Nat → Nat → Nat → List (Nat × Nat × Nat)
  | 0, _, _, _ => []
  | fuel + 1, c0, k, len =>
    if len = 0 ∨ c0 = 0 then []
    else
      let n := min len (c0 - k % c0)
      (k % c0, k / c0, n) :: segments fuel c0 (k + n) (len - n)

/-- `len` elements along the reduction from index `k`, at level 1 index `i1` of a batch. -/
def pullReduce (fz : Fuses) (o : Origin) (bound : Option (Nat × Nat × Nat)) (v : View) (b i1 k len : Nat) (d : Dev) : Pull (List (Nat × Nat)) :=
  let one (s : Nat × Nat × Nat) := pullCodes fz o bound v (v.batchAt i1 s.2.1 b) s.1 s.2.2
  (pullAll ((segments len (v.count 0) k len).map one) d).then fun l d => .ok l.flatten d

/-- The value of an element of a format, as scale and code. -/
def elemVal (fmt : Nat) (e : Nat × Nat) : Val :=
  if ((formatKind fmt).bind Kind.blockSize).isSome then scaleVal e.1 (decodeElem fmt e.2) else decodeElem fmt e.2

/-- Reduction indices of a tile that bead row `row` holds: the first, and how many. -/
def MatJob.span (j : MatJob) (t row : Nat) : Nat × Nat := (t * j.kt + row * j.depth, min j.depth (j.kext t - row * j.depth))

/-- The codes of one bead row of a tile, by reduction index and then column. -/
def pullBeads (fz : Fuses) (x : Desc) (bound : Option (Nat × Nat × Nat)) (j : MatJob) (blk t row : Nat) (d : Dev) : Pull (List (Nat × Nat)) :=
  let s := j.span t row
  let col (c : Nat) := pullReduce fz x.origin bound (x.view 0) (j.batchOf blk) (64 * (blk % max 1 j.cols) + c) s.1 s.2
  (pullAll ((List.range (j.width blk)).map col) d).then fun cs d =>
    .ok ((List.range s.2).flatMap fun i => cs.map fun c => c.getD i (127, 0)) d

/-! ### Weight tiles (R52, R53, R62, R63, R84) -/

/-- The core passes tiles on: to its successor, or as last member to NEXT (R62, R262). -/
def Round.passesOn (r : Round) (x : Desc) : Bool :=
  x.chainEn && ((r.chainSucc x.chain x.core).isSome || (r.chainNext x.chain).isSome)

/-- Other members of the descriptor's chain in this device, as cores. -/
def Round.others (r : Round) (x : Desc) : List Nat := if x.chainEn then (r.chainOf x.chain).filter fun m => m ≠ x.core else []

/-- Every member's block of a number is final, or the member's descriptor has ended (R84). -/
def Dev.membersFinal (d : Dev) (x : Desc) (r : Round) (blk : Nat) : Bool :=
  (r.others x).all fun m =>
    match d.partner x m with
    | none => false
    | some p => match (d.core m).job? p.key with
      | some q => blk < q.finished
      | none => p.stage == .executed || p.stage == .completed

/-- Some member needs another attempt at the block (R84). -/
def Dev.memberRepeats (d : Dev) (x : Desc) (r : Round) (blk : Nat) : Bool :=
  (r.others x).any fun m =>
    match d.partner x m with
    | none => false
    | some p => match (d.core m).job? p.key with | some q => q.overflow && q.blk == blk && q.useTile == 0 | none => false

/-- What the devices downstream have said of a block after the pass at hand (R84, R262). -/
def MatJob.remote (j : MatJob) (need : Bool) : Bool := j.asks.contains (j.loadBlk, j.pass, need)
/-- No member of the chain, in this device or downstream, needs the block again. -/
def Dev.blockSettled (d : Dev) (x : Desc) (r : Round) (j : MatJob) : Bool :=
  d.membersFinal x r j.loadBlk && ((r.chainNext x.chain).isNone || !x.chainEn || j.remote false)
/-- Some member needs it again. -/
def Dev.blockAgain (d : Dev) (x : Desc) (r : Round) (j : MatJob) : Bool :=
  (j.overflow && j.blk == j.loadBlk && j.useTile == 0) || d.memberRepeats x r j.loadBlk || j.remote true

/-- The tile at the load side is one that the present attempt uses: the others are only passed on (R84). -/
def MatJob.uses (j : MatJob) : Bool := j.finished ≤ j.loadBlk && j.loadTile == j.useTile && j.rows != []

/-- The load side goes on to the next block. -/
def MatJob.nextBlock (j : MatJob) : MatJob := { j with loadBlk := j.loadBlk + 1, loadTile := 0, loadRow := 0, useTile := 0, repeating := false, pass := 0 }

/-- The load side after a whole tile. A pass whose block may be repeated stays at its end (R82, R84); a block without rows is final with its
last tile (R60). -/
def MatJob.tileTaken (j : MatJob) : MatJob :=
  let last := j.loadTile + 1 = j.tiles
  let j1 := { j with useTile := if j.uses then j.useTile + 1 else j.useTile, loadRow := 0, loadTile := j.loadTile + 1
                     finished := if last ∧ j.rows = [] ∧ j.finished = j.loadBlk then j.finished + 1 else j.finished }
  if last ∧ !j.mayRepeat ∧ j.loadBlk + 1 < j.total then j1.nextBlock else j1

/-- A job whose load side has a tile to take: within a pass, or at the next block once the last one needs no repeat. -/
def MatJob.loadSide (j : MatJob) (blockDone : Bool) : Option MatJob :=
  if j.total = 0 ∨ j.tiles = 0 then none
  else if j.loadTile < j.tiles then some j
  else if j.mayRepeat ∧ j.loadBlk + 1 < j.total ∧ (!j.isInt ∨ j.loadBlk < j.finished) ∧ blockDone then some j.nextBlock
  else none

/-- A whole tile is in: it stays in the shadow registers if it is used, and goes on along the chain. -/
def Dev.tileIn (d : Dev) (n : Nat) (j : MatJob) (x : Desc) (r : Round) (hdr : TileHdr) (codes : List (Nat × Nat)) : Dev :=
  let t : TileLoad := { key := j.key, blk := j.loadBlk, tile := j.loadTile, oext := hdr.oext, full := true, codes := codes }
  let out : ChainTile := { hdr := hdr, chain := x.chain, round := x.round, ordinal := x.chainOrd, tile := j.loadTile % 4096, codes := codes }
  let d1 := (d.putJob n j.tileTaken).updArray n fun a => { a with shadow := if j.uses then some t else none }
  if r.passesOn x then d1.updCore n fun c => { c with chainOut := some out } else d1

/-- What the checks at row load, on a chain link, of the active tile and of the queue entries find (R68): every word corrected counts. -/
def Dev.weightUpset (d : Dev) (k : DescKey) (u : Upset) : Dev :=
  let d1 := d.bump 0x3030 3 u.corrected
  if u.failed then d1.failDesc k .hwUncorrectable else d1

/-- SHADOW_ROW_LOAD: one bead row of a tile from the weight view of a head or an unchained core (R53). Row 63 waits until the chain link
is free. -/
def shadowRowLoad (fz : Fuses) (n : Nat) (u : Upset) (d : Dev) : Dev :=
  d.withLoad n fun j x r =>
    let c := d.core n
    if !r.ownWeights x ∨ c.loadQ.head? ≠ some j.key ∨ (d.untaken x).contains 0 then d
    else match j.loadSide (d.blockSettled x r j), c.array.shadow with
      | none, _ => d
      | some _, some { full := true, .. } => d
      | some j, sh =>
        let row := j.loadRow
        if row = 63 ∧ r.passesOn x ∧ c.chainOut.isSome then d
        else match pullBeads fz x (d.bindOf x 0) j j.loadBlk j.loadTile row d with
          | .wait d => d
          | .fail st d => d.failDesc j.key st
          | .ok cs d =>
            let codes := (match sh with | some t => if row = 0 then [] else t.codes | none => []) ++ cs
            let d1 := d.weightUpset j.key u
            if !d1.descOk j.key then d1
            else if row = 63 then
              d1.tileIn n j x r { format := j.wfmt, dclass := dclassOf j.depth, kext := j.kext j.loadTile, oext := j.width j.loadBlk, rep := j.repeating } codes
            else
              let t : TileLoad := { key := j.key, blk := j.loadBlk, tile := j.loadTile, oext := j.width j.loadBlk, full := false, codes := codes }
              (d1.putJob n { j with loadRow := row + 1 }).updArray n fun a => { a with shadow := some t }

/-- REPEAT_PASS_SEND: at the end of a pass the head sends the block's tiles again, while some member needs another attempt; those of other
devices ask for it over Saeri (R84, R262). -/
def repeatPassSend (n : Nat) (d : Dev) : Dev :=
  d.withLoad n fun j x r =>
    if x.chainEn ∧ r.ownWeights x ∧ j.mayRepeat ∧ 0 < j.tiles ∧ j.tiles ≤ j.loadTile ∧ d.blockAgain x r j then
      d.putJob n { j with loadTile := 0, loadRow := 0, repeating := true, pass := j.pass + 1 }
    else d

/-! ### Feeder queues (R54, R59, R82) -/

/-- Blocks whose activations may be loaded now: an INT32 block is loaded for the attempt at hand. -/
def MatJob.feedLimit (j : MatJob) : Nat := (if j.isInt then min j.total (j.blk + 1) else j.total) * j.tiles * j.rows.length

/-- The next vector that a row's queue takes, from vector `g` on, counted over blocks, tiles and unmasked rows: bypassed tiles are
skipped (R51, R55). -/
def MatJob.feedNext (j : MatJob) (row g : Nat) : Nat :=
  let v := max 1 j.rows.length
  let t := max 1 j.tiles
  if row < j.rowsUsed (g / v % t) then g
  else if row < j.rowsUsed 0 then (g / v / t + 1) * t * v
  else j.total * j.tiles * j.rows.length

/-- The queues' entries of a job, and their replacement: those of the MATMUL behind the one in the array stand apart. -/
def ArrayEngine.feedersOf (a : ArrayEngine) (j : MatJob) : Table Feeder :=
  if a.next.any fun q => q.key = j.key then a.nextFeeders else a.feeders
def ArrayEngine.putFeeders (a : ArrayEngine) (j : MatJob) (t : Table Feeder) : ArrayEngine :=
  if a.next.any fun q => q.key = j.key then { a with nextFeeders := t } else { a with feeders := t }
/-- A row's queue; one not yet used takes vectors of the block at hand. -/
def ArrayEngine.feeder (a : ArrayEngine) (j : MatJob) (row : Nat) : Feeder :=
  tabGet { next := j.blk * j.tiles * j.rows.length, entries := [] } (a.feedersOf j) row
/-- Entries in a row's queue. -/
def ArrayEngine.queued (a : ArrayEngine) (row : Nat) : Nat :=
  let n (t : Table Feeder) : Nat := ((tabFind t row).map fun f => f.entries.length).getD 0
  n a.feeders + n a.nextFeeders

/-- An activation shifted for an attempt: RNE(a / 2^s) on the integer (R82). -/
def shiftVal (s : Nat) (v : Val) : Val := match v with | .int i => .int (rneShiftInt i s) | v => v

/-- FEEDER_WRITE: one entry into a row's queue, which holds 16. -/
def feederWrite (fz : Fuses) (n row : Nat) (d : Dev) : Dev :=
  d.withLoad n fun j x _ =>
    let c := d.core n
    let f := c.array.feeder j row
    let g := j.feedNext row f.next
    if c.loadQ.head? ≠ some j.key ∨ (d.untaken x).contains 1 ∨ (j.wfmt = 0) ∨ 16 ≤ c.array.queued row ∨ j.feedLimit ≤ g then d
    else
      let v := max 1 j.rows.length
      let t := g / v % max 1 j.tiles
      let blk := g / v / max 1 j.tiles
      let s := j.span t row
      let shift := if j.isInt then attemptShift (j.attempt + if j.overflow then 1 else 0) else 0
      match pullReduce fz x.origin (d.bindOf x 1) (x.view 1) (j.batchOf blk) (j.rows.getD (g % v) 0) s.1 s.2 d with
      | .wait d => d
      | .fail st d => d.failDesc j.key st
      | .ok es d =>
        let e := (g, es.map fun e => shiftVal shift (elemVal j.afmt e))
        d.updArray n fun a => a.putFeeders j (tabSet (a.feedersOf j) row { next := g + 1, entries := f.entries ++ [e] })

/-! ### Release (R52, R55, R57) -/

/-- The tile that the next vector meets: the active one, or at a tile's first vector the one in the shadow registers. -/
def ArrayEngine.tileFor (a : ArrayEngine) (j : MatJob) : Option (TileLoad × Bool) :=
  let is (t : TileLoad) : Bool := t.key == j.key && t.blk == j.blk && t.tile == j.tile && t.full
  match a.active, a.shadow with
  | some t, s => if is t then some (t, false) else match s with | some t => if j.vec = 0 ∧ is t then some (t, true) else none | none => none
  | none, some t => if j.vec = 0 ∧ is t then some (t, true) else none
  | none, none => none

/-- The entries of one vector at the heads of the queues it needs, in order of the reduction; none where a queue is empty. -/
def ArrayEngine.heads (a : ArrayEngine) (j : MatJob) (g : Nat) : Option (List Val) :=
  let one (row : Nat) : Option (List Val) := match (a.feeder j row).entries with | e :: _ => if e.1 = g then some e.2 else none | [] => none
  let l := (List.range (j.rowsUsed j.tile)).map one
  if l.all Option.isSome then some (l.filterMap id).flatten else none

/-- The place of the vector after the one at hand (R159). -/
def MatJob.nextVec (j : MatJob) : MatJob :=
  if j.vec + 1 < j.rows.length then { j with vec := j.vec + 1 }
  else if j.tile + 1 < j.tiles then { j with vec := 0, tile := j.tile + 1 }
  else { j with vec := 0, tile := 0, blk := j.blk + 1 }

/-- A vector may be released: one is left, its block needs no repeat, and an INT32 block before it is final. -/
def MatJob.mayRelease (j : MatJob) : Bool :=
  0 < j.tiles && j.rows != [] && j.blk < j.total && !j.overflow && (!j.isInt || j.blk ≤ j.finished)

/-- One vector leaves all queues, or a bubble is counted (R55). -/
def Dev.release (d : Dev) (n : Nat) (j : MatJob) (u : Upset) : Dev :=
  let a := (d.core n).array
  match a.tileFor j with
  | none => d
  | some (t, switch) =>
    let g := (j.blk * j.tiles + j.tile) * j.rows.length + j.vec
    match a.heads j g with
    | none => d.bump 0x3030 1 1
    | some acts =>
      let s : VecSlot := { key := j.key, blk := j.blk, tile := j.tile, m := j.rows.getD j.vec 0, drop := false, oext := t.oext, acts := acts,
                           weights := t.codes.map (elemVal j.wfmt) }
      let d1 := d.weightUpset j.key u
      if !d1.descOk j.key then d1
      else
        let used (e : Nat × Feeder) : Nat × Feeder := if e.1 < j.rowsUsed j.tile then (e.1, { e.2 with entries := e.2.entries.drop 1 }) else e
        let j1 := if j.tile = 0 ∧ j.vec = 0 then { j with began := d.cycles } else j
        (d1.putJob n j1.nextVec).updArray n fun a =>
          ({ a with active := some t, shadow := if switch then none else a.shadow, flight := a.flight ++ [s] }).putFeeders j ((a.feedersOf j).map used)

/-- VECTOR_RELEASE. In a held cycle nothing moves (R56). -/
def vectorRelease (n : Nat) (u : Upset) (d : Dev) : Dev :=
  d.withRelease n fun j _ _ => if (d.core n).array.hold ∨ !j.mayRelease then d else d.release n j u

/-! ### The beam (R73 to R81) -/

/-- The FP32 sum of a rod: from −0, in increasing k (R78). -/
def rodFp (oext c : Nat) (acts weights : List Val) : Word :=
  (acts.zip (List.range acts.length)).foldl (fun s e => addFp32 s (productFp32 (weights.getD (e.2 * oext + c) (.int 0)) e.1)) 0x80000000

/-- An integer within INT32. -/
def inInt32 (i : Int) : Bool := -2 ^ 31 ≤ i && i < 2 ^ 31
/-- An exact INT32 addition and whether an overflow has occurred (R81). -/
def addInt (s : Int × Bool) (p : Int) : Int × Bool := (s.1 + p, s.2 || !inInt32 (s.1 + p))
/-- The INT32 sum of a rod. -/
def rodInt (oext c : Nat) (acts weights : List Val) : Int × Bool :=
  (acts.zip (List.range acts.length)).foldl (fun s e => addInt s (productInt (weights.getD (e.2 * oext + c) (.int 0)) e.1)) (0, false)

/-- One entry of the beam after a vector: its bits, and whether it overflowed. `first`: the entry is overwritten. -/
def beamEntry (isInt first : Bool) (old : Word) (s : VecSlot) (c : Nat) : Word × Bool :=
  if isInt then
    let p := rodInt s.oext c s.acts s.weights
    let q := if first then p else addInt (old.toInt + p.1, p.2) 0
    (BitVec.ofInt 32 q.1, q.2)
  else
    let p := rodFp s.oext c s.acts s.weights
    (if first then p else addFp32 old p, false)

/-- A row that a MATMUL cannot write: another open round owns it, or it accumulates where it may not (R74, R75). -/
def MatJob.rowFault (j : MatJob) (w : BeamRow) (first : Bool) : Option Status :=
  if w.owner.isSome ∧ w.owner ≠ some j.round then some .mapOverflow
  else if j.accumulate ∧ first ∧ (j.isInt ∨ w.owner = none ∨ w.isInt) then some .badDescriptor
  else none

/-- The row holds a result of an earlier descriptor, or of an earlier block, that is still to be read (R76, R160). -/
def MatJob.rowHeld (j : MatJob) (w : BeamRow) (blk : Nat) : Bool := w.unread && !(w.writer == some j.key && w.blk == blk)

def Dev.putRow (d : Dev) (n row : Nat) (w : BeamRow) : Dev := d.updCore n fun c => { c with beam := tabSet c.beam row w }

/-- A beam upset met by a read-modify-write (R77). -/
def Dev.beamUpset (d : Dev) (k : DescKey) (u : Upset) : Dev :=
  let d1 := d.bump 0x3040 4 u.corrected
  if u.failed then d1.failDesc k .hwUncorrectable else d1

/-- The beam holds the array for a cycle (R76). -/
def Dev.beamHold (d : Dev) (n : Nat) : Dev := (d.bump 0x3030 2 1).updArray n fun a => { a with hold := true }

/-- A write of the carry tree takes the beam's port: results that wait for it are held (R76). -/
def Dev.portTaken (d : Dev) (n : Nat) : Dev := if (d.core n).array.flight = [] then d else d.beamHold n

/-- A row as a job writes it. -/
def MatJob.rowOut (j : MatJob) (blk : Nat) (vals : List Word) : BeamRow :=
  { isInt := j.isInt, tag := if j.isInt then attemptShift j.attempt else 0, vals := vals, owner := some j.round, unread := true,
    writer := some j.key, blk := blk }

/-- A row is final in this core's beam (R90): an INT32 block is only as a whole, since it may be repeated. -/
def MatJob.rowIsFinal (j : MatJob) (blk m : Nat) : Bool :=
  blk < j.finished || (!j.isInt && blk == j.finished && (j.rows.take j.rowsFinal).contains m)

/-- The block at hand is final (R86). -/
def Dev.blockFinal (d : Dev) (n : Nat) (j : MatJob) : Dev :=
  let d1 := d.updJob n j.key fun q => { q with finished := q.finished + 1, rowsFinal := 0, attempt := 1 }
  if 1 < j.attempt then d1.updDesc j.key fun x => { x with resc := true, nResc := x.nResc + 1 } else d1

/-- The overflow report of a block (R81, R83, R87): the vectors under way are discarded, and a further attempt is made or the
descriptor fails. -/
def Dev.overflowReport (d : Dev) (n : Nat) (j : MatJob) (x : Desc) (blk : Nat) : Dev :=
  if 4 ≤ j.attempt then d.failDesc j.key .rescaleExhausted
  else
    let d1 := d.updJob n j.key fun q =>
      let q1 := { q with overflow := true, blk := blk, tile := 0, vec := 0, useTile := 0 }
      if x.chainEn then q1 else { q1 with loadTile := 0, loadRow := 0 }
    d1.updArray n fun a =>
      { a with flight := a.flight.map (fun s => { s with drop := true }), active := none, feeders := []
               shadow := if x.chainEn then a.shadow.filter fun t => !t.full else none }

/-- A vector's sums reach the beam. -/
def Dev.writeSums (d : Dev) (n : Nat) (j : MatJob) (x : Desc) (s : VecSlot) (u : Upset) : Dev :=
  let row := j.rowOf s.blk s.m
  let w := (d.core n).beamRow row
  let first := s.tile = 0
  let fresh := first && !j.accumulate
  match j.rowFault w first with
  | some st => d.failDesc j.key st
  | none =>
    if j.rowHeld w s.blk then d.beamHold n
    else
      let d0 := if fresh then d else d.beamUpset j.key u
      if !d0.descOk j.key then d0
      else
        let es := (List.range 64).map fun c =>
          let old := w.vals.getD c 0
          if c < s.oext then
            let e := beamEntry j.isInt fresh old s c
            (if e.2 then Config.overflowEntry d.draws c else e.1, e.2)
          else (old, false)
        let lost := es.any (·.2)
        let d1 := (d0.putRow n row (j.rowOut s.blk (es.map (·.1)))).updArray n fun a => { a with flight := a.flight.drop 1, hold := false }
        if lost then Dev.overflowReport { d1 with draws := d1.draws + 1 } n j x s.blk
        else if s.tile + 1 = j.tiles then
          if some s.m = j.rows.getLast? then d1.blockFinal n j else d1.updJob n j.key fun q => { q with rowsFinal := q.rowsFinal + 1 }
        else d1

/-- A row of a MATMUL whose reduction extent is zero: +0 with tag 0, or left where it accumulates (R80). (DESIGN CHOICE, log entry 57) -/
def Dev.writeZeros (d : Dev) (n : Nat) (j : MatJob) : Dev :=
  let m := j.rows.getD j.vec 0
  let row := j.rowOf j.blk m
  let w := (d.core n).beamRow row
  match j.rowFault w true with
  | some st => d.failDesc j.key st
  | none =>
    if j.rowHeld w j.blk then d.beamHold n
    else
      let out := { j.rowOut j.blk (if j.accumulate then w.vals else List.replicate 64 0) with
                   tag := if j.accumulate then w.tag else 0, isInt := if j.accumulate then w.isInt else j.isInt }
      let d1 := ((d.putRow n row out).putJob n { j.nextVec with rowsFinal := j.vec + 1 }).updArray n fun a => { a with hold := false }
      if j.vec + 1 = j.rows.length then d1.blockFinal n j else d1

/-- BEAM_ROW_WRITE: the oldest vector in the array reaches the beam; a discarded one writes nothing (R83). -/
def beamRowWrite (n : Nat) (u : Upset) (d : Dev) : Dev :=
  d.withJob n fun j x _ =>
    match (d.core n).array.flight with
    | s :: rest =>
      if s.key ≠ j.key then d else if s.drop then d.updArray n fun a => { a with flight := rest } else d.writeSums n j x s u
    | [] => if j.tiles = 0 ∧ j.rows ≠ [] ∧ j.blk < j.total then d.writeZeros n j else d

/-- RESCALE_ATTEMPT_START: drained and with tile 0 loaded, the next attempt releases its first vector (R83). (DEDUCED, log entry 56) -/
def rescaleAttemptStart (n : Nat) (u : Upset) (d : Dev) : Dev :=
  d.withJob n fun j _ _ =>
    if !j.overflow ∨ (d.core n).array.flight ≠ [] then d
    else
      let j1 := { j with overflow := false, attempt := j.attempt + 1 }
      let d1 := (d.putJob n j1).release n j1 u
      if (d1.core n).array.flight = [] ∧ d1.descOk j.key then d else d1.bump 0x3040 2 (d.cycles - j.began)

end Sys2Proof.Machine
end

