-- ==== Sys2Proof/Machine/Chain.lean ====
section
/-! DEFINITION. Weight chains: tiles offered to a member, their header check (R64), the passage between clusters (R229, R230) and between
devices (R262, R285). -/

namespace Sys2Proof.Machine

/-! ### A member takes a tile (R62 to R65, R424) -/

/-- A tile may travel: in drain mode once every member in this device has accepted its descriptor (R173). -/
def Dev.chainOpen (d : Dev) (r : Round) (t : ChainTile) : Bool :=
  r.settingNat 0x4070 1 != 1 || (r.chainOf t.chain).all fun m => d.descs.any fun x =>
    x.core == m && x.chainEn && tileOfDesc t x x.chainOrd && x.stage != .fetched && x.stage != .issued

/-- The tile offered to a member's descriptor: on its predecessor's link within a cluster, else among what has arrived. -/
def Dev.offered (d : Dev) (n : Nat) (x : Desc) (r : Round) : Option ChainTile :=
  Option.filter (fun t => d.chainOpen r t) <| match r.chainPred x.chain n with
  | some p =>
    if clusterOf p = clusterOf n then (d.core p).chainOut.filter fun t => tileOfDesc t x x.chainOrd
    else (d.core n).chainIn.find? fun t => tileOfDesc t x x.chainOrd
  | none => (d.core n).chainIn.find? fun t => tileOfDesc t x x.chainOrd

/-- It leaves the link or the place where it arrived. -/
def Dev.takeOffered (d : Dev) (n : Nat) (x : Desc) (r : Round) (t : ChainTile) : Dev :=
  let fromIn (d : Dev) : Dev := d.updCore n fun c => { c with chainIn := c.chainIn.erase t }
  match r.chainPred x.chain n with
  | some p => if clusterOf p = clusterOf n then d.updCore p fun c => { c with chainOut := none } else fromIn d
  | none => fromIn d

/-- A header that the member's own descriptor does not agree with (R29, R46, R48, R64). -/
def MatJob.badHeader (j : MatJob) (x : Desc) (h : TileHdr) : Bool :=
  h.format != j.wfmt || (formatKind h.format).isNone || h.format == 0x01 || h.format == 0x02 || h.dclass != dclassOf j.depth
    || h.kext != j.kext j.loadTile || (x.nKnown && h.oext != j.width j.loadBlk)

/-- An integer epilogue on an accumulation that proves to be in FP32 (R113). -/
def MatJob.badEpilogue (j : MatJob) (x : Desc) : Bool := !j.isInt && x.steps.any fun s => s.op == 0x3C && s.type == 1

/-- The load side of a member for a tile: a repeat pass begins again with tile 0 (R84); while N is open, a tile beyond the pass begins a further
column (R158), in a batch of one. -/
def MatJob.memberSide (j : MatJob) (rep : Bool) : Option MatJob :=
  if rep ∧ 0 < j.tiles ∧ j.tiles ≤ j.loadTile then
    if j.mayRepeat then some { j with loadTile := 0, loadRow := 0, repeating := true, pass := j.pass + 1 } else none
  else if j.nOpen ∧ j.tiles ≤ j.loadTile ∧ j.total ≤ j.loadBlk + 1 then
    if j.batch = 1 then { j with n := j.n + 64 }.loadSide true |>.or (if j.mayRepeat then none else some { j with n := j.n + 64 }.nextBlock) else none
  else j.loadSide true

/-- N as a tile's header tells it: a column of less than 64 is the last (R158). -/
def MatJob.headerN (j : MatJob) (h : TileHdr) : MatJob :=
  if j.nOpen ∧ h.oext < 64 then { j with n := 64 * j.loadBlk + h.oext, nOpen := false } else j

/-- CHAIN_TILE_ARRIVE. A tile beyond the member's count, or of another descriptor, is held, and so is one for which the shadow registers
or the link onward are not free. -/
def chainTileArrive (n : Nat) (u : Upset) (d : Dev) : Dev :=
  d.withLoad n fun j x r =>
    if !x.chainEn ∨ r.ownWeights x then d
    else match d.offered n x r with
      | none => d
      | some t =>
        let j0 := if j.wfmt = 0 then { j with wfmt := t.hdr.format } else j
        match j0.memberSide t.hdr.rep with
        | none => d
        | some j2 =>
          let j1 := j2.headerN t.hdr
          if j1.badHeader x t.hdr ∨ j1.badEpilogue x then d.failDesc j.key .badDescriptor
          else if (j1.uses ∧ (d.core n).array.shadow.isSome) ∨ (r.passesOn x ∧ (d.core n).chainOut.isSome) then d
          else
            let d1 := (d.takeOffered n x r t).weightUpset j.key u
            if !d1.descOk j.key then d1
            else
              let keep := (d.core n).array.shadow
              let d2 := d1.tileIn n j1 x r t.hdr t.codes
              if j1.uses then d2 else d2.updArray n fun a => { a with shadow := keep }

/-! ### The tile image (R66, R229) -/

/-- Elements of a bead row per rod, and whether the row begins a block: then its 64 scales follow the codes (R66). -/
def tileDepth (h : TileHdr) : Nat := 2 ^ h.dclass
def scaleRow (h : TileHdr) (row : Nat) : Bool :=
  match (formatKind h.format).bind Kind.blockSize with | some b => row * tileDepth h % b == 0 | none => false

/-- The code and scale at a place of a tile, 0 where it is bypassed. -/
def tileAt (t : ChainTile) (k c : Nat) : Nat × Nat :=
  if k < t.hdr.kext ∧ c < t.hdr.oext then t.codes.getD (k * t.hdr.oext + c) (0, 0) else (0, 0)

/-- The bytes of a bead row of the tile image: the codes of each rod, then the scales (R66, R229). -/
def rowBytes (t : ChainTile) (row : Nat) : List Byte :=
  let deep := tileDepth t.hdr
  let w := formatWidth t.hdr.format
  let codes := (List.range 64).flatMap fun c => (List.range deep).map fun i => (tileAt t (row * deep + i) c).2
  leBytes (64 * deep * w / 8) (packCodes w codes)
    ++ if scaleRow t.hdr row then (List.range 64).flatMap fun c => leBytes 1 (tileAt t (row * deep) c).1 else []

/-- The elements of a bead row that a tile's kept extent takes from its bytes: scale and code, by reduction index and then column. -/
def rowCodes (t : ChainTile) (row : Nat) (b : List Byte) : List (Nat × Nat) :=
  let h := t.hdr
  let deep := tileDepth h
  let w := formatWidth h.format
  let m := 64 * deep * w / 8
  let codes := unpackCodes w (64 * deep) (field b 0 m)
  let scale (k c : Nat) : Nat :=
    match (formatKind h.format).bind Kind.blockSize with
    | none => 127
    | some s => if scaleRow h row then field b (m + c) 1 else (t.codes.getD (k / s * s * h.oext + c) (127, 0)).1
  (List.range (min deep (h.kext - row * deep))).flatMap fun i =>
    (List.range h.oext).map fun c => (scale (row * deep + i) c, codes.getD (c * deep + i) 0)

/-- Bytes of bead row `row` of the image. -/
def rowSize (h : TileHdr) (row : Nat) : Nat := 64 * tileDepth h * formatWidth h.format / 8 + if scaleRow h row then 64 else 0
/-- The image of a tile: bead row 0 first. -/
def tileImage (t : ChainTile) : List Byte := (List.range 64).flatMap (rowBytes t)
/-- A tile with the elements that its image holds. -/
def tileOfImage (t : ChainTile) (b : List Byte) : ChainTile :=
  ((List.range 64).foldl
    (fun (acc : ChainTile × List Byte) row =>
      let m := rowSize acc.1.hdr row
      ({ acc.1 with codes := acc.1.codes ++ rowCodes acc.1 row (acc.2.take m) }, acc.2.drop m))
    ({ t with codes := [] }, b)).1

/-! ### Between clusters (R229, R230) -/

/-- The ADDR field of a tile's packet. -/
def tileAddr (t : ChainTile) (piece : Nat) : Nat :=
  t.hdr.format * 2 ^ 44 + t.hdr.kext * 2 ^ 34 + t.hdr.oext * 2 ^ 27 + (if t.hdr.rep then 2 ^ 26 else 0) + t.chain * 2 ^ 20
    + t.tile * 2 ^ 8 + t.hdr.dclass * 2 ^ 6 + piece

/-- The packets of a tile from one core to another. -/
def tilePackets (t : ChainTile) (src dst rslot : Nat) : List NocPacket :=
  let s := tileBytes t.hdr
  let image := tileImage t
  (List.range (tilePieces t.hdr)).map fun i =>
    { vc := 2, dest := endOfCore dst, src := endOfCore src, op := 0x07, tag := 0, status := 0, lenm1 := BitVec.ofNat 8 (min 256 (s - 256 * i) - 1),
      rslot := BitVec.ofNat 7 rslot, addr := BitVec.ofNat 52 (tileAddr t i), body := .tile t.ordinal (slice image (256 * i) (min 256 (s - 256 * i))) }

/-- A packet of a chain's tile for a core. -/
def tilePacketFor (n c : Nat) (k : NocPacket) : Bool := k.op == 0x07 && k.dest == endOfCore n && bits k.addr.toNat 25 20 == c

/-- The header, chain and tile of a packet's ADDR field (R230). -/
def tileHdrOf (a : Nat) : TileHdr :=
  { format := bits a 51 44, dclass := bits a 7 6, kext := bits a 43 34, oext := bits a 33 27, rep := bit a 26 }

/-- A packet of a tile reaches a member: PIECE 0 begins a tile, the packets follow each other, and the tile is there with its last one. What
disagrees with the packets before it is discarded, and so is what an aborted attempt sent (R229, R230, R234). -/
def nocWeightRow (k : NocPacket) (d : Dev) : Dev :=
  match k.body, coreOfEnd k.dest with
  | .tile ord b, some n => d.nocArrive k 0x07 fun d =>
    match d.slotRound k.rslot.toNat with
    | none => d
    | some r =>
      let a := k.addr.toNat
      let piece := bits a 5 0
      let h := tileHdrOf a
      let fresh : ChainTile := { hdr := h, chain := bits a 25 20, round := r.number, ordinal := ord, tile := bits a 19 8, codes := [] }
      let mine (p : TilePart) : Bool := p.net && p.tile.chain == fresh.chain && p.tile.round == fresh.round
      let part : Option TilePart :=
        if piece = 0 then some { net := true, tile := fresh, bytes := [], next := 0 }
        else (d.core n).chainParts.find? fun p => mine p && p.next == piece && p.tile == fresh
      match part with
      | none => d
      | some p =>
        if r.phase ≠ .running ∨ b.length ≠ k.lenm1.toNat + 1 ∨ b.length ≠ min 256 (tileBytes h - 256 * piece) then d
        else
          let q : TilePart := { p with bytes := p.bytes ++ b, next := piece + 1 }
          (d.updCore n fun c =>
            let rest := c.chainParts.filter fun p => !mine p
            if tilePieces h ≤ q.next then { c with chainParts := rest, chainIn := c.chainIn ++ [tileOfImage q.tile q.bytes] }
            else { c with chainParts := q :: rest }).requestWake (clusterOf n)
  | _, _ => d

/-- NOC_WEIGHT_ROW (R229). -/
def execNocWeightRow (pkt : NocPacket) (s : State) : Host.Outcome State Fault Refusal := s.onClock (nocWeightRow pkt)

/-! ### Between devices (R262, R285) -/

/-- The header word before the first row of a tile. (DEDUCED, log entry 59) -/
def headerBytes (h : TileHdr) : List Byte :=
  leBytes 1 h.format ++ leBytes 1 h.dclass ++ leBytes 2 h.kext ++ leBytes 2 h.oext ++ leBytes 1 (if h.rep then 1 else 0) ++ List.replicate 9 0

/-- A tile leaves for node NEXT, row by row. LENM1 counts the row's own bytes. -/
def Dev.sendTile (d : Dev) (node : NodeId) (t : ChainTile) : Dev :=
  (List.range 64).foldl
    (fun d row =>
      let b := rowBytes t row
      d.sendSaeri { dnode := node, addr := BitVec.ofNat 52 (t.chain * 2 ^ 32 + t.tile * 64 + row), snode := d.nodeId, tag := noticeTag 0x07,
                    lenm1 := BitVec.ofNat 8 (b.length - 1), status := 0, op := 0x07, data := (if row = 0 then headerBytes t.hdr else []) ++ b })
    d

/-- A tile on a core's link moves on where the next member is in another cluster or another device; it waits while a tile of its chain before it
has not been taken, whatever tiles of other chains wait there. (DESIGN CHOICE, log entry 85) -/
def Dev.chainPump (d : Dev) (n : Nat) : Dev :=
  match (d.core n).chainOut with
  | none => d
  | some t => d.withRound t.round fun r =>
    let free (d : Dev) : Dev := d.updCore n fun c => { c with chainOut := none }
    match r.chainSucc t.chain n, r.chainNext t.chain with
    | some m, _ =>
      if clusterOf m = clusterOf n ∨ !d.chainOpen r t ∨ (d.core m).chainIn.any (fun q => q.chain == t.chain)
          ∨ d.noc.packets.any (tilePacketFor m t.chain) then d
      else (free d |> fun e => (tilePackets t n m r.rslot).foldl Dev.nocSend e)
    | none, some node =>
      if (d.saeri.queue.any fun e => e.2.op == 0x07 && e.2.dnode == node) ∨ d.saeri.heldOut.any fun k => k.op == 0x07 && k.dnode == node then d
      else (free d).sendTile node t
    | none, none => free d

/-- The descriptor of the first member that takes the rows of a chain from a node: of those that have not taken every tile, the one delivered
first (R424). -/
def Dev.chainTaker (d : Dev) (c : Nat) (node : NodeId) : Option Desc :=
  let mine (x : Desc) : Bool :=
    x.chainEn && x.chain == c && x.stage != .fetched && x.stage != .issued && x.stage != .executed && x.stage != .completed &&
      match d.round? x.round with
      | some r => r.active && r.chainPrev c == some node && (r.chainOf c).head? == some x.core
          && (match (d.core x.core).job? x.key with | some j => !(j.tilesDone && j.total ≤ j.finished) | none => x.stage != .running)
      | none => false
  (d.descs.filter mine).foldl (fun best x => match best with | none => some x | some b => if x.seq < b.seq then some x else some b) none

/-- The header that a row's leading data word holds. -/
def headerOf (b : List Byte) : TileHdr :=
  { format := field b 0 1, dclass := field b 1 1 % 4, kext := field b 2 2, oext := field b 4 2, rep := bit (field b 6 1) 0 }

/-- What the members of this device say of a block once its pass is over here (R84, R262): final in each, or wanted again by one. -/
def Dev.reportOf (d : Dev) (j : MatJob) (x : Desc) (r : Round) : Option Bool :=
  let need := d.blockAgain x r j
  if !(x.chainEn && j.mayRepeat && 0 < j.tiles && j.tiles ≤ j.loadTile) ∨ (r.chainOf x.chain).head? ≠ some x.core then none
  else if (r.chainNext x.chain).isSome ∧ !j.remote true ∧ !j.remote false then none
  else if need then some true
  else if (j.loadBlk < j.finished ∨ !j.isInt) ∧ d.membersFinal x r j.loadBlk then some false
  else none

/-- The first member of a chain that goes on from another device reports a block upstream, once for each pass: a packet of OP 0x07 with ADDR[51] set
and no row. (DESIGN CHOICE, log entry 84) -/
def Dev.chainReport (d : Dev) (n : Nat) : Dev :=
  d.withLoad n fun j x r =>
    match r.chainPrev x.chain, d.reportOf j x r with
    | some node, some need =>
      if j.told.contains (j.loadBlk, j.pass) then d
      else (d.putJob n { j with told := j.told ++ [(j.loadBlk, j.pass)] }).saeriNotice node 0x07
        (2 ^ 51 + x.chain * 2 ^ 32 + if need then 1 else 0) []
    | _, _ => d

/-- A report from node NEXT reaches the last member of the chain in this device, for the pass at hand. -/
def Dev.takeReport (d : Dev) (k : SaeriPkt) : Option (Nat × MatJob) :=
  let c := bits k.addr.toNat 37 32
  d.cores.findSome? fun e => (e.2.array.next.toList ++ e.2.array.job.toList).findSome? fun j =>
    match d.jobCtx j with
    | some (j, x, r) =>
      if x.chainEn ∧ x.chain = c ∧ r.chainNext c = some k.snode ∧ (r.chainOf c).getLast? = some e.1 ∧ j.tiles ≤ j.loadTile then some (e.1, j) else none
    | none => none

/-- The report is noted by every member of the chain in this device. -/
def Dev.noteReport (d : Dev) (j : MatJob) (need : Bool) : Dev :=
  d.withDesc j.key fun x => d.withRound j.round fun r =>
    (r.chainOf x.chain).foldl
      (fun d m => match d.partner x m with
        | some p => d.updJob m p.key fun q => { q with asks := q.asks ++ [(q.loadBlk, q.pass, need)] }
        | none => d) d

/-- N of a job that is still open, as the descriptor that stores for its carry group gives it (R158). -/
def Dev.learnN (d : Dev) (n : Nat) : Dev :=
  (d.core n).jobs.foldl
    (fun d j =>
      if !j.nOpen then d
      else match d.jobCtx j with
        | some (j, x, r) => match d.nOf x r with | some w => d.updJob n j.key fun q => { q with n := w, nOpen := false } | none => d
        | none => d) d

/-- SAERI_WEIGHT_ROW: the rows of a tile are put together; the whole tile is offered to the first member. It waits while a tile of the chain
before it has not been taken (R63). A packet with ADDR[51] set is a report of a device downstream. -/
def saeriWeightRow (k : SaeriPkt) (d : Dev) : Dev :=
  let c := bits k.addr.toNat 37 32
  if k.addr.getLsbD 51 then
    match d.takeReport k with
    | none => d
    | some e => d.saeriArrive k 0x07 fun d => d.noteReport e.2 (bit k.addr.toNat 0)
  else match d.chainTaker c k.snode with
  | none => d
  | some x =>
    let n := x.core
    if (d.core n).chainIn.any fun t => t.chain == c then d
    else d.saeriArrive k 0x07 fun d =>
      let mine (p : TilePart) : Bool := !p.net && p.tile.chain == c
      let p : TilePart := match (d.core n).chainParts.find? mine with
        | some p => p
        | none => { net := false, tile := { hdr := headerOf k.data, chain := c, round := x.round, ordinal := x.chainOrd, tile := 0, codes := [] },
                    bytes := [], next := 0 }
      let q : TilePart := { p with bytes := p.bytes ++ if p.next = 0 then k.data.drop 16 else k.data, next := p.next + 1 }
      let d1 := d.updCore n fun w =>
        let rest := w.chainParts.filter fun p => !mine p
        if q.next = 64 then { w with chainParts := rest, chainIn := w.chainIn ++ [tileOfImage q.tile q.bytes] } else { w with chainParts := q :: rest }
      d1.requestWake (clusterOf n)

end Sys2Proof.Machine
end

