-- ==== Sys2Proof/Machine/Carry.lean ====
section
/-! DEFINITION. The carry tree across cores (R89 to R91, R94) and across devices (R92, R258 to R260). -/

namespace Sys2Proof.Machine

/-! ### The shape of the tree (R90, R94) -/

/-- Positions whose partials position `i` of `m` receives, in order of the levels; in an unordered round position 0 receives all. -/
def duesOf (unordered : Bool) (m i : Nat) : List Nat :=
  if unordered then (if i = 0 then (List.range m).drop 1 else [])
  else (List.range 12).filterMap fun l => if i % 2 ^ (l + 1) = 0 ∧ i + 2 ^ l < m then some (i + 2 ^ l) else none

/-- The position that position `i` sends to. -/
def parentOf (unordered : Bool) (i : Nat) : Nat :=
  if unordered then 0
  else match (List.range 12).find? fun l => i / 2 ^ l % 2 = 1 with
    | some l => i - 2 ^ l
    | none => 0

def Round.unordered (r : Round) : Bool := r.settingNat 0x4040 1 == 1

/-- Dues of a member of its carry group. -/
def Round.coreDues (r : Round) (x : Desc) : List Nat :=
  if x.carryEn then duesOf r.unordered (r.carryOf x.carry).length ((r.carryPos x).getD 0) else []
/-- The node carry group that the descriptor's group joins, if any (R258). -/
def Round.nodesOf (r : Round) (x : Desc) : List NodeId :=
  if x.carryEn ∧ 2 ≤ (r.nodeCarry x.carry).length then r.nodeCarry x.carry else []
/-- This device's position in it, and the dues of that position. -/
def Dev.nodePos (d : Dev) (r : Round) (x : Desc) : Nat := ((r.nodesOf x).findIdx? (· == d.nodeId)).getD 0
def Dev.nodeDues (d : Dev) (r : Round) (x : Desc) : List Nat := duesOf r.unordered (r.nodesOf x).length (d.nodePos r x)

/-- The output shape of a job (R91). -/
def MatJob.shape (j : MatJob) : Nat × Nat × Nat := (j.m, j.n, j.batch)
/-- A row holds the sum of its core and of every member due to it. -/
def MatJob.rowSummed (j : MatJob) (r : Round) (x : Desc) (blk m : Nat) : Bool :=
  j.rowIsFinal blk m && (r.coreDues x).all fun p => j.got.contains (blk, m, p)
/-- A row is as the slate engine is to read it (R58, R90, R259). -/
def MatJob.rowReady (j : MatJob) (r : Round) (x : Desc) (blk m : Nat) : Bool :=
  j.rowSummed r x blk m && ((r.nodesOf x).isEmpty || j.nodeDone.contains (blk, m))

/-- The rows of a job, block by block. -/
def MatJob.rowList (j : MatJob) : List (Nat × Nat) := (List.range j.total).flatMap fun b => j.rows.map fun m => (b, m)

/-! ### Adding partials (R91) -/

/-- A row's kind, tag and entries. -/
structure RowSum where
  tag : Nat
  vals : List Word
  sat : Nat
deriving DecidableEq, Repr

/-- own + received over `width` columns; an INT32 sum takes the higher tag (R91). -/
def addRows (isInt : Bool) (width : Nat) (tagA : Nat) (a : List Word) (tagB : Nat) (b : List Word) : RowSum :=
  let tag := if isInt then max tagA tagB else 0
  let sum (c : Nat) : Word × Bool :=
    let x := a.getD c 0
    let y := b.getD c 0
    if width ≤ c then (x, false)
    else if isInt then sat32 (rneShiftInt x.toInt (tag - tagA) + rneShiftInt y.toInt (tag - tagB))
    else (addFp32 x y, false)
  let l := (List.range 64).map sum
  { tag := tag, vals := l.map (·.1), sat := (l.filter (·.2)).length }

/-- Saturations are events of a descriptor (R43). -/
def Dev.countSat (d : Dev) (k : DescKey) (n : Nat) : Dev := d.updDesc k fun x => { x with sat := x.sat || 0 < n, nSat := x.nSat + n }

/-! ### CARRY_SEND (R90, R91) -/

def Dev.ctxs (d : Dev) (n : Nat) : List (MatJob × Desc × Round) := (d.core n).jobs.filterMap d.jobCtx

/-- The next row that a member sends. -/
def nextSend (e : MatJob × Desc × Round) : Option (Nat × Nat) :=
  if e.2.2.stores e.2.1 ∨ e.1.nOpen then none
  else e.1.rowList.find? fun w => e.1.rowSummed e.2.2 e.2.1 w.1 w.2 && !e.1.sent.contains w

/-- CARRY_SEND: a member sends its next complete row to the position above it, on the request channel. -/
def carrySend (n : Nat) (d : Dev) : Dev :=
  match (d.ctxs n).findSome? fun e => (nextSend e).map fun w => (e, w) with
  | none => d
  | some ((j, x, r), w) =>
    let row := j.rowOf w.1 w.2
    let b := (d.core n).beamRow row
    let i := (r.carryPos x).getD 0
    match (r.carryOf x.carry)[parentOf r.unordered i]? with
    | none => d
    | some t =>
      let msg : CarryMsg :=
        { group := x.carry, round := x.round, ordinal := x.carryOrd, pos := i, shape := j.shape, blk := w.1, row := w.2, isInt := b.isInt, tag := b.tag,
          mask := BitVec.ofNat 64 x.mask, vals := b.vals }
      let pkt : NocPacket :=
        { vc := 0, dest := endOfCore t, src := endOfCore n, op := 0x06, tag := 0, status := 0, lenm1 := 255, rslot := BitVec.ofNat 7 r.rslot,
          addr := 0, body := .carry (BitVec.ofNat 7 t) msg }
      ((d.putRow n row { b with unread := false }).updJob n j.key fun q => { q with sent := q.sent ++ [w] }).nocSend pkt

/-! ### CARRY_PARTIAL_ARRIVE (R91) -/

def carryFor (m : CarryMsg) (e : MatJob × Desc × Round) : Bool :=
  e.2.1.carryEn && e.2.1.carry == m.group && e.1.round == m.round && e.2.1.carryOrd == m.ordinal
/-- The descriptor does not agree with a partial (R91). (DEDUCED, log entry 54) -/
def carryBad (m : CarryMsg) (e : MatJob × Desc × Round) : Bool :=
  !e.1.nOpen && (m.shape != e.1.shape || !(e.1.rowList.contains (m.blk, m.row)) || m.mask != BitVec.ofNat 64 e.2.1.mask || (m.blk < e.1.finished && m.isInt != e.1.isInt))
/-- A partial is next for its row: the row is final here, and the levels before it have arrived. -/
def carryDue (m : CarryMsg) (e : MatJob × Desc × Round) : Bool :=
  let left := (e.2.2.coreDues e.2.1).filter fun p => !e.1.got.contains (m.blk, m.row, p)
  !e.1.nOpen && e.1.rowIsFinal m.blk m.row && (if e.2.2.unordered then left.contains m.pos else left.head? == some m.pos)

/-- CARRY_PARTIAL_ARRIVE: the slate engine adds a partial into its row; the array is held for the cycle (R76, R102). -/
def carryPartialArrive (n : Nat) (u : Upset) (d : Dev) : Dev :=
  let es := d.ctxs n
  match (d.core n).carryIn.findSome? fun m => (es.find? fun e => carryFor m e && (carryBad m e || carryDue m e)).map fun e => (m, e) with
  | none => d
  | some (m, (j, x, r)) =>
    let d1 := d.updCore n fun c => { c with carryIn := c.carryIn.erase m }
    if carryBad m (j, x, r) then d1.failDesc j.key .badDescriptor
    else
      let d2 := d1.beamUpset j.key u
      if !d2.descOk j.key then d2
      else
        let row := j.rowOf m.blk m.row
        let b := (d.core n).beamRow row
        let s := addRows j.isInt (j.width m.blk) b.tag b.vals m.tag m.vals
        let d3 := (d2.putRow n row { b with tag := s.tag, vals := s.vals }).updJob n j.key fun q => { q with got := q.got ++ [(m.blk, m.row, m.pos)] }
        let d4 := d3.countSat j.key s.sat
        d4.portTaken n

/-! ### Node carry (R258 to R260) -/

/-- The ordinal by which a node row is named in packets. (DEDUCED, log entry 59) -/
def MatJob.rowOrdinal (j : MatJob) (blk m : Nat) : Nat := (blk * j.rows.length + (j.rows.findIdx fun i => i == m)) % 2048

/-- The job of a node row. -/
def Dev.nodeCtx (d : Dev) (q : NodeRow) : Option (MatJob × Desc × Round) :=
  (d.ctxs q.core).find? fun e => e.1.round == q.round && e.2.1.carryEn && e.2.1.carry == q.group && e.2.1.carryOrd == q.ordinal

/-- A partial or a total to another node. -/
def Dev.sendRow (d : Dev) (node : NodeId) (j : MatJob) (q : NodeRow) (down : Bool) : Dev :=
  let addr := q.tag * 2 ^ 48 + (if down then 2 ^ 47 else 0) + q.group * 2 ^ 32 + j.rowOrdinal q.blk q.row
  d.saeriNotice node 0x06 addr (q.vals.flatMap fun w => leBytes 4 w.toNat)

def Dev.updSaeri (d : Dev) (f : Saeri → Saeri) : Dev := { d with saeri := f d.saeri }

/-- The total is here: it enters the core's row, and goes to the nodes that sent partials (R259). -/
def Dev.nodeTotal (d : Dev) (j : MatJob) (x : Desc) (q : NodeRow) : Dev :=
  let row := j.rowOf q.blk q.row
  let b := (d.core x.core).beamRow row
  let d1 := (d.putRow x.core row { b with tag := q.tag, vals := q.vals }).updJob x.core j.key fun w => { w with nodeDone := w.nodeDone ++ [(q.blk, q.row)] }
  let d2 := d1.updSaeri fun s => { s with rows := s.rows.filter fun w => w ≠ q }
  q.children.foldl (fun d c => d.sendRow c j q true) (d2.portTaken x.core)

/-- Rows asked of a node that have not come (R259). -/
def Dev.rowsAsked (d : Dev) (c : NodeId) : Nat := (d.saeri.rows.filter fun q => q.asked.contains c && !q.children.contains c).length

/-- A node asks its child positions for their partials of its final rows, each for at most 32 rows at a time (R259): a packet of OP 0x06 with
ADDR[46] set that carries the round number. (DESIGN CHOICE, log entry 92) -/
def Dev.askRows (d : Dev) : Dev :=
  d.saeri.rows.foldl
    (fun d q =>
      match d.nodeCtx q with
      | none => d
      | some (j, x, r) =>
        ((d.nodeDues r x).filterMap fun p => (r.nodesOf x)[p]?).foldl
          (fun d c =>
            if (d.saeri.rows.any fun w => w.round == q.round && w.group == q.group && w.ordinal == q.ordinal && w.blk == q.blk && w.row == q.row && w.asked.contains c)
                ∨ 32 ≤ d.rowsAsked c then d
            else
              let same (w : NodeRow) : Bool := w.round == q.round && w.group == q.group && w.ordinal == q.ordinal && w.blk == q.blk && w.row == q.row
              (d.updSaeri fun s => { s with rows := s.rows.map fun w => if same w then { w with asked := w.asked ++ [c] } else w }).saeriNotice c 0x06
                (2 ^ 46 + q.group * 2 ^ 32 + j.rowOrdinal q.blk q.row) (leBytes 4 q.round.toNat)) d) d

/-- The node above has asked for a row. -/
def Dev.rowWanted (d : Dev) (up : NodeId) (j : MatJob) (q : NodeRow) : Bool := d.saeri.rowAsks.contains (q.round, up, q.group, j.rowOrdinal q.blk q.row)

/-- A node row that has every partial due to it goes up when it is asked for, or at position 0 is the total. -/
def Dev.nodeAdvance (d : Dev) (j : MatJob) (x : Desc) (r : Round) (q : NodeRow) : Dev :=
  if q.sentUp ∨ q.levels < (d.nodeDues r x).length then d
  else if d.nodePos r x = 0 then d.nodeTotal j x q
  else match (r.nodesOf x)[parentOf r.unordered (d.nodePos r x)]? with
    | none => d
    | some up =>
      if !d.rowWanted up j q then d
      else
        let d1 := d.updSaeri fun s =>
          { s with rows := s.rows.map (fun w => if w = q then { w with sentUp := true } else w),
                   rowAsks := s.rowAsks.erase (q.round, up, q.group, j.rowOrdinal q.blk q.row) }
        d1.sendRow up j q false

/-- The rows of a core that its node contributes begin to be combined (R259). -/
def Dev.nodeRows (d : Dev) (n : Nat) : Dev :=
  (d.ctxs n).foldl
    (fun d e =>
      let j := e.1
      let x := e.2.1
      let r := e.2.2
      if (r.nodesOf x).isEmpty ∨ !r.stores x then d
      else (j.rowList.filter fun w => j.rowSummed r x w.1 w.2 && !j.nodeDone.contains w
          && !(d.saeri.rows.any fun q => q.round == x.round && q.group == x.carry && q.ordinal == x.carryOrd && q.blk == w.1 && q.row == w.2)).foldl
        (fun d w =>
          let b := (d.core n).beamRow (j.rowOf w.1 w.2)
          let q : NodeRow := { group := x.carry, round := x.round, ordinal := x.carryOrd, blk := w.1, row := w.2, core := n, isInt := b.isInt,
                               tag := b.tag, vals := b.vals, levels := 0, sentUp := false, children := [], asked := [] }
          (d.updSaeri fun s => { s with rows := s.rows ++ [q] }).nodeAdvance j x r q) d) d |>.askRows

/-- What a packet of the reduction engines carries: tag, downward, group, row ordinal. -/
def carryFields (a : Nat) : Nat × Bool × Nat × Nat := (bits a 51 48, bit a 47, bits a 37 32, bits a 10 0)

/-- The node row that a packet is for: going up, from a position due now; going down, from the position above (R259, R260). -/
def Dev.rowFor (d : Dev) (k : SaeriPkt) : Option (NodeRow × MatJob × Desc × Round) :=
  let f := carryFields k.addr.toNat
  d.saeri.rows.findSome? fun q =>
    match d.nodeCtx q with
    | none => none
    | some (j, x, r) =>
      if q.group ≠ f.2.2.1 ∨ j.rowOrdinal q.blk q.row ≠ f.2.2.2 then none
      else
        let node (p : Nat) : Option NodeId := (r.nodesOf x)[p]?
        let dues := d.nodeDues r x
        let hit : Bool :=
          if f.2.1 then q.sentUp && node (parentOf r.unordered (d.nodePos r x)) == some k.snode
          else if r.unordered then dues.any (fun p => node p == some k.snode) && !q.children.contains k.snode
          else match dues[q.levels]? with | some p => node p == some k.snode | none => false
        if hit then some (q, j, x, r) else none

/-- A request for a row arrives: the row goes up if it is complete. -/
def Dev.takeAsk (d : Dev) (k : SaeriPkt) : Dev :=
  let a := k.addr.toNat
  let e : RoundNo × NodeId × Nat × Nat := (BitVec.ofNat 32 (field k.data 0 4), k.snode, bits a 37 32, bits a 10 0)
  let d1 := d.updSaeri fun s => { s with rowAsks := s.rowAsks ++ [e] }
  d1.saeri.rows.foldl (fun d q => match d.nodeCtx q with | some (j, x, r) => if q.round = e.1 ∧ q.group = e.2.2.1 then d.nodeAdvance j x r q else d | none => d) d1

/-- SAERI_CARRY_PARTIAL: a request for a row is noted; a partial that is due is combined with this node's row, own value on the left; a total is taken over. What is
not yet due waits in its receive slot. (DESIGN CHOICE, log entry 60) -/
def saeriCarryPartial (k : SaeriPkt) (d : Dev) : Dev :=
  if k.addr.getLsbD 46 then d.saeriArrive k 0x06 fun d => d.takeAsk k
  else match d.rowFor k with
  | none => d
  | some (q, j, x, r) =>
    d.saeriArrive k 0x06 fun d =>
      let f := carryFields k.addr.toNat
      let vals := (List.range 64).map fun c => BitVec.ofNat 32 (field k.data (4 * c) 4)
      if f.2.1 then
        let w : NodeRow := { q with tag := f.1, vals := vals }
        Dev.nodeTotal (d.updSaeri fun s => { s with rows := s.rows.map fun p => if p = q then w else p }) j x w
      else
        let s := addRows q.isInt (j.width q.blk) q.tag q.vals f.1 vals
        let w : NodeRow := { q with tag := s.tag, vals := s.vals, levels := q.levels + 1, children := q.children ++ [k.snode] }
        let d1 := ((d.updSaeri fun t => { t with rows := t.rows.map fun p => if p = q then w else p }).bump 0x3110 5 1).countSat j.key s.sat
        (d1.nodeAdvance j x r w).askRows

end Sys2Proof.Machine
end

