-- ==== Sys2Proof/Machine/Slate.lean ====
section
/-! DEFINITION. The slate engine (R99 to R118): the meaning of every opcode on its operands, the passes of an epilogue (R115), reads of the
beam (R85, R113) and stores (R114). -/

namespace Sys2Proof.Machine

/-! ### Operands (R99, R105) -/

/-- The position of B or C that meets position `i` of A. -/
def operandAt (mode i : Nat) : Nat := if mode = 0 then i else if mode = 1 then 0 else if mode = 2 then i % 64 else 64 * (i / 64)

/-- The 16-bit format of a packed type. -/
def packedFmt (type : Nat) : FFmt := if type = 2 then bf16 else fp16
/-- Packed element `e` of a slate, given its positions. -/
def packedAt (at' : Nat → Word) (e : Nat) : Nat := let w := (at' (e / 2)).toNat; if e % 2 = 0 then bits w 15 0 else bits w 31 16
/-- Two 16-bit codes as a position. -/
def packPair (lo hi : Nat) : Word := BitVec.ofNat 32 (lo + 65536 * hi)

/-! ### Elementwise opcodes (R106, R108, R109) -/

def absVal : Val → Val
  | .inf _ => .inf false
  | .fin _ m e => .fin false m e
  | .int i => .int i.natAbs
  | .nan => .nan

/-- a if a > 0, otherwise +0; NaN stays NaN. -/
def reluVal : Val → Val
  | .nan => .nan
  | .inf false => .inf false
  | .fin false m e => .fin false m e
  | .int i => .int (max i 0)
  | _ => .fin false 0 0

/-- CLAMP: NaN a stays NaN. -/
def clampVal (a b c : Val) : Val := if a = .nan then .nan else minVal (maxVal a b) c

/-- The exact result of a floating opcode, or for MAX and MIN the operand chosen. -/
def floatOp (op : Nat) (a b c : Val) : Val :=
  match op with
  | 0x02 => addVal a b
  | 0x03 => addVal a (negVal b)
  | 0x04 => mulVal a b
  | 0x05 => addVal (mulVal a b) c
  | 0x06 => maxVal a b
  | 0x07 => minVal a b
  | 0x08 => absVal a
  | 0x09 => negVal a
  | 0x0A => reluVal a
  | 0x0B => clampVal a b c
  | _ => a

/-- An integer opcode: the result and whether it was saturated. -/
def intOp (op : Nat) (a b c : Word) : Word × Bool :=
  match op with
  | 0x02 => sat32 (a.toInt + b.toInt)
  | 0x03 => sat32 (a.toInt - b.toInt)
  | 0x04 => sat32 (a.toInt * b.toInt)
  | 0x05 => sat32 (a.toInt * b.toInt + c.toInt)
  | 0x06 => (if a.toInt < b.toInt then b else a, false)
  | 0x07 => (if b.toInt < a.toInt then b else a, false)
  | 0x08 => sat32 a.toInt.natAbs
  | 0x09 => sat32 (-a.toInt)
  | 0x0A => (if 0 < a.toInt then a else 0, false)
  | 0x0B => (let m := if a.toInt < b.toInt then b else a; if c.toInt < m.toInt then c else m, false)
  | 0x10 => sat32 (a.toInt * 2 ^ (b.toNat % 32))
  | 0x11 => (BitVec.ofInt 32 (rneShiftInt a.toInt (b.toNat % 32)), false)
  | 0x12 => (a &&& b, false)
  | 0x13 => (a ||| b, false)
  | 0x14 => (a ^^^ b, false)
  | 0x18 => (let r := storeInt (-2 ^ 31) (2 ^ 31 - 1) (ofFp32 a); (BitVec.ofInt 32 r.1, r.2))
  | _ => (a, false)

/-- An FP32 opcode: one rounding, a NaN result canonical (R25). -/
def fpOp (op : Nat) (a b c : Word) : Word :=
  match op with
  | 0x19 => toFp32 (ofInt32 a)
  | 0x20 => exp2Fp32 a
  | 0x21 => log2Fp32 a
  | 0x22 => rcpFp32 a
  | 0x23 => rsqFp32 a
  | 0x24 => tanhFp32 a
  | _ => toFp32 (floatOp op (ofFp32 a) (ofFp32 b) (ofFp32 c))

/-- A packed opcode: each element exactly, then one rounding to the 16-bit format. -/
def packedOp (type op : Nat) (a b c : Word) : Word :=
  let f := packedFmt type
  let half (hi : Bool) : Nat :=
    let v (w : Word) : Val := decodeFloat f (if hi then bits w.toNat 31 16 else bits w.toNat 15 0)
    encodeFloat f (floatOp op (v a) (v b) (v c))
  packPair (half false) (half true)

/-- An elementwise opcode under a type. -/
def laneOp (type op : Nat) (a b c : Word) : Word × Bool :=
  if type = 0 then (fpOp op a b c, false) else if type = 1 then intOp op a b c else (packedOp type op a b c, false)

/-! ### What a step writes -/

/-- Positions written, saturation events (R43), positions out of range (R112). -/
structure StepOut where
  writes : List (Nat × Word)
  sat : Nat
  lane : Nat
deriving DecidableEq, Repr

def noSat (l : List (Nat × Word)) : StepOut := { writes := l, sat := 0, lane := 0 }

/-- Positions of an elementwise step: all below VL, or position 0 for a unary step in MODE 0b01. -/
def StepW.positions (w : StepW) (vl : Nat) : List Nat :=
  let one : Bool := w.mode == 1 && match stepInfo w.op with | some k => !k.b | none => false
  if one then [0] else List.range vl

def elementwise (at' : Nat → Nat → Word) (w : StepW) (vl : Nat) : StepOut :=
  let l := (w.positions vl).map fun i =>
    let p := operandAt w.mode i
    (i, laneOp w.type w.op (at' w.a i) (at' w.b p) (at' w.c p))
  { writes := l.map fun e => (e.1, e.2.1), sat := (l.filter fun e => e.2.2).length, lane := 0 }

/-- CVT.PN. -/
def narrowPair (at' : Nat → Nat → Word) (w : StepW) (vl : Nat) : StepOut :=
  let code (e : Nat) : Nat := encodeFloat (packedFmt w.type) (ofFp32 (if e < vl then at' w.a e else at' w.b (e - vl)))
  noSat ((List.range vl).map fun p => (p, packPair (code (2 * p)) (code (2 * p + 1))))

/-- CVT.WL from element 0, CVT.WH from element VL. -/
def widen (at' : Nat → Nat → Word) (w : StepW) (vl lo : Nat) : StepOut :=
  noSat ((List.range vl).map fun i => (i, toFp32 (decodeFloat (packedFmt w.type) (packedAt (at' w.a) (lo + i)))))

/-- A value of a type with its NaNs canonical. (DEDUCED, log entry 61) -/
def canon (type : Nat) (w : Word) : Word := (laneOp type 0x01 w 0 0).1

/-- PERM (R112). -/
def permute (at' : Nat → Nat → Word) (w : StepW) (vl : Nat) : StepOut :=
  let l := (List.range vl).map fun i => (i, (at' w.b (operandAt w.mode i)).toNat)
  { writes := l.map fun e => (e.1, if e.2 < vl then canon w.type (at' w.a e.2) else 0), sat := 0, lane := (l.filter fun e => vl ≤ e.2).length }

/-! ### Reductions (R90, R111) -/

/-- One level of the tree: neighbours combine, an odd one out goes on as it is. -/
def pairUp {α : Type} (f : α → α → α) : List α → List α
  | a :: b :: t => f a b :: pairUp f t
  | l => l
/-- The tree of R90 over a list; `fuel` bounds its levels. -/
def treeFold {α : Type} (f : α → α → α) : Nat → List α → Option α
  | _, [] => none
  | _, [a] => some a
  | 0, l => l.head?
  | fuel + 1, l => treeFold f fuel (pairUp f l)

/-- The reduction of a list of positions. -/
def reduceList (type op : Nat) (l : List Word) : Option (Word × Bool) :=
  if type = 0 then
    (treeFold (fun a b => if op = 0x30 then addFp32 a b else if op = 0x31 then toFp32 (maxVal (ofFp32 a) (ofFp32 b)) else toFp32 (minVal (ofFp32 a) (ofFp32 b)))
      9 (l.map (canon 0))).map fun w => (w, false)
  else
    (treeFold (fun a b => if op = 0x30 then a + b else if op = 0x31 then max a b else min a b) 9 (l.map BitVec.toInt)).map sat32

/-- RSUM, RMAX, RMIN over the axis ALL or ROW. -/
def reduction (at' : Nat → Nat → Word) (w : StepW) (vl : Nat) : StepOut :=
  let axis (lo hi : Nat) : Option (Nat × Word × Bool) :=
    (reduceList w.type w.op ((List.range (hi - lo)).map fun i => at' w.a (lo + i))).map fun v => (lo, v)
  let l := if w.mode = 0 then (axis 0 vl).toList else (List.range 16).filterMap fun k => axis (16 * k) (min (16 * k + 16) vl)
  { writes := l.map fun e => (e.1, e.2.1), sat := (l.filter fun e => e.2.2).length, lane := 0 }

/-- A step that only computes on slates. -/
def stepOut (at' : Nat → Nat → Word) (w : StepW) (vl : Nat) : StepOut :=
  match w.op with
  | 0x1A => narrowPair at' w vl
  | 0x1B => widen at' w vl 0
  | 0x1C => widen at' w vl vl
  | 0x30 | 0x31 | 0x32 => reduction at' w vl
  | 0x38 => permute at' w vl
  | _ => elementwise at' w vl

/-! ### BEAMREAD (R85, R113) -/

/-- A beam entry as an epilogue reads it: the shift tag applied (R85). -/
def tagged (type : Nat) (isInt : Bool) (tag : Nat) (w : Word) : Word × Bool :=
  if !isInt then (if type = 0 then canon 0 w else w, false)
  else if type = 0 then (toFp32 (mulVal (ofFp32 (toFp32 (ofInt32 w))) (.fin false 1 tag)), false)
  else sat32 (w.toInt * 2 ^ tag)

/-- The values that a STORE hands over. -/
def handed (type : Nat) (w : Word) : List Val :=
  if type = 0 then [ofFp32 w] else if type = 1 then [ofInt32 w]
  else [decodeFloat (packedFmt type) (bits w.toNat 15 0), decodeFloat (packedFmt type) (bits w.toNat 31 16)]

/-! ### Steps of a job -/

def Dev.updSlateJob (d : Dev) (n : Nat) (f : SlateJob → SlateJob) : Dev := d.updSlate n fun e => { e with job := e.job.map f }

/-- The job at hand, else a new one for the oldest MATMUL whose epilogue is due (R102). -/
def Dev.slateJob (d : Dev) (n : Nat) : Option (SlateJob × Dev) :=
  match (d.core n).slate.job with
  | some j => some (j, d)
  | none =>
    match (d.epilogues n).head? with
    | some j =>
      if j.rows = [] then none
      else let s := newSlateJob j.key j.round true; some (s, d.freshSlates n s)
    | none => none

/-- The side vectors of a block are loaded before its first pass (R115, R124, R160). -/
def Dev.loadSides (fz : Fuses) (d : Dev) (n : Nat) (s : SlateJob) (x : Desc) : Pull Unit :=
  if !s.isMat ∨ s.loaded then .ok () d
  else (pullSides fz x (256 * s.blk) 64 d).then fun l d =>
    .ok () ((l.foldl (fun d e => d.updSlate n fun q => q.put e.1 e.2) d).updSlateJob n fun q => { q with loaded := true })

/-- After a step: the next one; after the last, the SLATE is executed, or the next pass, or the next block, or the epilogue's end. -/
def Dev.stepDone (d : Dev) (n : Nat) (s : SlateJob) (x : Desc) : Dev :=
  let drop (d : Dev) : Dev := d.updSlate n fun e => { e with job := none }
  if !d.descOk s.key then d
  else if s.pc + 1 < min 8 x.nSteps then d.updSlateJob n fun q => { q with pc := q.pc + 1 }
  else if !s.isMat then (drop d).executed s.key none
  else
    match (d.core n).job? s.key, (d.core n).slate.job with
    | some j, some q =>
      let d1 := d.updJob n s.key fun j => { j with readRows := j.readRows + q.reads.length }
      if q.next < j.rows.length then d1.updSlateJob n fun q => { q with pc := 0, reads := [] }
      else if q.blk + 1 < j.total then d1.updSlateJob n fun q => { q with pc := 0, reads := [], blk := q.blk + 1, next := 0, loaded := false }
      else (drop d1).updJob n s.key fun j => { j with stored := true }
    | _, _ => d

/-- A step's results enter its slate and the descriptor's counts. -/
def Dev.putStep (d : Dev) (n : Nat) (s : SlateJob) (w : StepW) (o : StepOut) : Dev :=
  ((d.updSlate n fun e => e.put w.dst o.writes).countSat s.key o.sat).updDesc s.key fun x =>
    { x with lane := x.lane || 0 < o.lane, nLane := x.nLane + o.lane }

/-- BEAMREAD: the next unread row of the block into a quarter; none left writes nothing. It waits until the row is ready. (DEDUCED, log entry 62) -/
def Dev.beamread (d : Dev) (n : Nat) (s : SlateJob) (x : Desc) (r : Round) (w : StepW) : Option Dev :=
  match (d.core n).job? s.key with
  | none => none
  | some j =>
    match j.rows[s.next]? with
    | none => some d
    | some m =>
      if !j.rowReady r x s.blk m then none
      else
        let row := j.rowOf s.blk m
        let b := (d.core n).beamRow row
        let l := (List.range 64).map fun c => (c, tagged w.type b.isInt b.tag (b.vals.getD c 0))
        let o : StepOut := { writes := l.map fun e => (64 * w.mode + e.1, e.2.1), sat := (l.filter fun e => e.2.2 && e.1 < j.width s.blk).length, lane := 0 }
        let d1 := (d.putStep n s w o).putRow n row { b with unread := false }
        some (d1.updSlateJob n fun q => { q with next := q.next + 1, reads := q.reads ++ [(w.mode, s.next)] })

/-- STORE in a SLATE: at the cursor of the output walk, in whole byte groups and blocks (R30, R34, R114). -/
def Dev.storeSlate (fz : Fuses) (d : Dev) (n : Nat) (s : SlateJob) (x : Desc) (r : Round) (w : StepW) : Dev :=
  let v := x.view 2
  let vals := s.buffer ++ (List.range x.vl).flatMap fun i => handed w.type ((d.core n).slateAt w.a i)
  let whole := vals.length / v.unit * v.unit
  let parts := storeWalk v (r.settingNat 0x4020 1) (v.runs + 1) s.cursor (vals.take whole)
  (parts.foldl (fun d p => d.store fz x p) d).updSlateJob n fun q => { q with cursor := q.cursor + whole, buffer := vals.drop whole }

/-- STORE in an epilogue: the tile's columns of every row that the pass has read before it (R114). A row that a BEAMREAD after the STORE reads is
stored nowhere. (DESIGN CHOICE, log entry 86) -/
def Dev.storeRows (fz : Fuses) (d : Dev) (n : Nat) (s : SlateJob) (x : Desc) (r : Round) (w : StepW) : Dev :=
  match (d.core n).job? s.key with
  | none => d
  | some j =>
    let v := x.view 2
    let col := 64 * (s.blk % max 1 j.cols)
    s.reads.foldl
      (fun d e =>
        let vals := (List.range (j.width s.blk)).flatMap fun c => handed w.type ((d.core n).slateAt w.a (64 * e.1 + c))
        d.store fz x (storeRun v (r.settingNat 0x4020 1) (v.batchAt (j.rows.getD e.2 0) 0 (j.batchOf s.blk)) col vals)) d

/-- What the checks of a step's reads find (R117): every word corrected counts. BEAMREAD reads no slate. -/
def Dev.slateUpset (d : Dev) (k : DescKey) (op : Nat) (u : Upset) : Dev :=
  if op = 0x3C then d
  else
    let d1 := d.bump 0x3050 2 u.corrected
    if u.failed then d1.failDesc k .hwUncorrectable else d1

/-- One step of the slate engine, if the step at hand has this opcode (R107). -/
def slateStep (fz : Fuses) (op n : Nat) (u : Upset) (d : Dev) : Dev :=
  match d.slateJob n with
  | none => d
  | some (s, d0) =>
    match d0.desc? s.key, d0.round? s.round with
    | some x, some r =>
      let w := x.stepAt s.pc
      if w.op ≠ op ∨ !d0.mayWork x then d
      else match d0.loadSides fz n s x with
        | .wait d => d
        | .fail st d => d.failDesc s.key st
        | .ok _ d1 =>
          let d2 := d1.slateUpset s.key op u
          if !d2.descOk s.key then d2
          else if op = 0x3C then (match d2.beamread n s x r w with | some d3 => d3.stepDone n s x | none => d)
          else if op = 0x3D then (if s.isMat then d2.storeRows fz n s x r w else d2.storeSlate fz n s x r w).stepDone n s x
          else (d2.putStep n s w (stepOut (d2.core n).slateAt w x.vl)).stepDone n s x
    | _, _ => d

end Sys2Proof.Machine
end

