-- ==== Sys2Proof/Machine/Work.lean ====
section
/-! DEFINITION. What an engine command brings about beyond its own step: a MATMUL leaves the load engine, the array and the core when it is
done there (R91, R114, R172), node rows begin (R259), tiles move on (R63); and the commands of the engines. -/

namespace Sys2Proof.Machine

/-- Nothing is left for the load engine to read for an FP32 MATMUL (R172). An INT32 one may have to read again (R82). (DEDUCED, log entry 75) -/
def Dev.loadsDone (d : Dev) (n : Nat) (j : MatJob) (x : Desc) (r : Round) : Bool :=
  !j.mayRepeat && d.untaken x == [] && (!r.ownWeights x || j.tilesDone)
    && (List.range 64).all fun row => decide (j.total * j.tiles * j.rows.length ≤ j.feedNext row ((d.core n).array.feeder j row).next)

/-- A MATMUL is done in the array: every block is final, every tile taken, no member of its chain needs a repeat (R84). -/
def Dev.arrayDone (d : Dev) (n : Nat) (j : MatJob) (x : Desc) (r : Round) : Bool :=
  j.total ≤ j.finished && j.tilesDone && d.untaken x == [] && (d.core n).array.flight.all (fun s => s.key != j.key)
    && (!j.mayRepeat || d.blockSettled x r j)

/-- The load engine and the array are left by what is done there. -/
def Dev.settleArray (d : Dev) (n : Nat) : Dev :=
  let d1 := d.withJob n fun j x r =>
    if d.arrayDone n j x r then (d.leaveLoad x).updArray n fun a =>
      ArrayEngine.promote { a with
        job := none, waiting := a.waiting ++ [j], feeders := [], hold := false
        shadow := a.shadow.filter fun t => t.key ≠ j.key, active := a.active.filter fun t => t.key ≠ j.key }
    else d
  d1.withLoad n fun j x r => if d1.loadsDone n j x r then d1.leaveLoad x else d1

/-- A MATMUL has ended: its epilogue has stored every unmasked row, or every row has been sent (R60, R91, R115). -/
def MatJob.ended (j : MatJob) (x : Desc) (r : Round) : Bool :=
  !j.nOpen && if r.stores x then j.rows == [] || j.stored || j.total == 0 else j.rowList.all fun w => j.sent.contains w

/-- MATMULs that have ended are executed. -/
def Dev.settleWaiting (d : Dev) (n : Nat) : Dev :=
  (d.core n).array.waiting.foldl
    (fun d j =>
      match d.jobCtx j with
      | some (j, x, r) =>
        if j.ended x r then (d.updArray n fun a => { a with waiting := a.waiting.filter fun q => q.key ≠ j.key }).executed j.key none else d
      | none => d) d

def Dev.settleCore (d : Dev) (n : Nat) : Dev := (((((d.learnN n).chainReport n).settleArray n).nodeRows n).settleWaiting n).chainPump n
/-- Every core settles. -/
def Dev.settle (d : Dev) : Dev := (d.cores.map (·.1)).foldl Dev.settleCore d

/-- A command of the engines. -/
def State.onEngine (s : State) (f : Dev → Dev) : Host.Outcome State Fault Refusal := s.onClock fun d => (f d).settle

/-! ### The commands -/

def descKey (stream : StreamId) (slot : SlotId) : DescKey := { stream := stream.toNat, slot := slot.toNat }

/-- NOP (R121). -/
def execNop (stream : StreamId) (slot : SlotId) (s : State) : Host.Outcome State Fault Refusal := s.onEngine (nopRun (descKey stream slot))
/-- COPY (R121, R157). -/
def execCopy (stream : StreamId) (slot : SlotId) (s : State) : Host.Outcome State Fault Refusal := s.onEngine (copyRun s.fuses (descKey stream slot))
/-- SLATE (R121). -/
def execSlate (stream : StreamId) (slot : SlotId) (s : State) : Host.Outcome State Fault Refusal := s.onEngine (slateRun s.fuses (descKey stream slot))
/-- MATMUL (R121, R159). -/
def execMatmul (stream : StreamId) (slot : SlotId) (s : State) : Host.Outcome State Fault Refusal := s.onEngine (matmulRun (descKey stream slot))
/-- HANDLE_TAKE (R165). -/
def execHandleTake (stream : StreamId) (slot : SlotId) (s : State) : Host.Outcome State Fault Refusal := s.onEngine (handleTake (descKey stream slot))
/-- SHADOW_ROW_LOAD (R53). -/
def execShadowRowLoad (core : CoreId) (upset : Upset) (s : State) : Host.Outcome State Fault Refusal := s.onEngine (shadowRowLoad s.fuses core.toNat upset)
/-- FEEDER_WRITE (R54). -/
def execFeederWrite (core : CoreId) (row : BitVec 6) (s : State) : Host.Outcome State Fault Refusal := s.onEngine (feederWrite s.fuses core.toNat row.toNat)
/-- VECTOR_RELEASE (R55). -/
def execVectorRelease (core : CoreId) (upset : Upset) (s : State) : Host.Outcome State Fault Refusal := s.onEngine (vectorRelease core.toNat upset)
/-- BEAM_ROW_WRITE (R78). -/
def execBeamRowWrite (core : CoreId) (upset : Upset) (s : State) : Host.Outcome State Fault Refusal := s.onEngine (beamRowWrite core.toNat upset)
/-- RESCALE_ATTEMPT_START (R83). -/
def execRescaleAttemptStart (check : CoreCheck) (s : State) : Host.Outcome State Fault Refusal :=
  s.onEngine (rescaleAttemptStart check.core.toNat check.upset)
/-- CHAIN_TILE_ARRIVE (R63). -/
def execChainTileArrive (core : CoreId) (upset : Upset) (s : State) : Host.Outcome State Fault Refusal := s.onEngine (chainTileArrive core.toNat upset)
/-- REPEAT_PASS_SEND (R84). -/
def execRepeatPassSend (core : CoreId) (s : State) : Host.Outcome State Fault Refusal := s.onEngine (repeatPassSend core.toNat)
/-- CARRY_SEND (R90). -/
def execCarrySend (core : CoreId) (s : State) : Host.Outcome State Fault Refusal := s.onEngine (carrySend core.toNat)
/-- CARRY_PARTIAL_ARRIVE (R91). -/
def execCarryPartialArrive (core : CoreId) (upset : Upset) (s : State) : Host.Outcome State Fault Refusal := s.onEngine (carryPartialArrive core.toNat upset)
/-- SAERI_CARRY_PARTIAL (R259). -/
def execSaeriCarryPartial (pkt : SaeriPkt) (s : State) : Host.Outcome State Fault Refusal := s.onEngine (saeriCarryPartial pkt)
/-- SAERI_WEIGHT_ROW (R262). -/
def execSaeriWeightRow (pkt : SaeriPkt) (s : State) : Host.Outcome State Fault Refusal := s.onEngine (saeriWeightRow pkt)
/-- STEP MOV (R106, R108, R109). -/
def execStepMov (core : CoreId) (upset : Upset) (s : State) : Host.Outcome State Fault Refusal :=
  s.onEngine (slateStep s.fuses 0x01 core.toNat upset)
/-- STEP ADD (R106, R108, R109). -/
def execStepAdd (core : CoreId) (upset : Upset) (s : State) : Host.Outcome State Fault Refusal :=
  s.onEngine (slateStep s.fuses 0x02 core.toNat upset)
/-- STEP SUB (R106, R108, R109). -/
def execStepSub (core : CoreId) (upset : Upset) (s : State) : Host.Outcome State Fault Refusal :=
  s.onEngine (slateStep s.fuses 0x03 core.toNat upset)
/-- STEP MUL (R106, R108, R109). -/
def execStepMul (core : CoreId) (upset : Upset) (s : State) : Host.Outcome State Fault Refusal :=
  s.onEngine (slateStep s.fuses 0x04 core.toNat upset)
/-- STEP FMA (R106, R108, R109). -/
def execStepFma (core : CoreId) (upset : Upset) (s : State) : Host.Outcome State Fault Refusal :=
  s.onEngine (slateStep s.fuses 0x05 core.toNat upset)
/-- STEP MAX (R45, R106). -/
def execStepMax (core : CoreId) (upset : Upset) (s : State) : Host.Outcome State Fault Refusal :=
  s.onEngine (slateStep s.fuses 0x06 core.toNat upset)
/-- STEP MIN (R45, R106). -/
def execStepMin (core : CoreId) (upset : Upset) (s : State) : Host.Outcome State Fault Refusal :=
  s.onEngine (slateStep s.fuses 0x07 core.toNat upset)
/-- STEP ABS (R106, R108, R109). -/
def execStepAbs (core : CoreId) (upset : Upset) (s : State) : Host.Outcome State Fault Refusal :=
  s.onEngine (slateStep s.fuses 0x08 core.toNat upset)
/-- STEP NEG (R106, R108, R109). -/
def execStepNeg (core : CoreId) (upset : Upset) (s : State) : Host.Outcome State Fault Refusal :=
  s.onEngine (slateStep s.fuses 0x09 core.toNat upset)
/-- STEP RELU (R106). -/
def execStepRelu (core : CoreId) (upset : Upset) (s : State) : Host.Outcome State Fault Refusal :=
  s.onEngine (slateStep s.fuses 0x0A core.toNat upset)
/-- STEP CLAMP (R45, R106). -/
def execStepClamp (core : CoreId) (upset : Upset) (s : State) : Host.Outcome State Fault Refusal :=
  s.onEngine (slateStep s.fuses 0x0B core.toNat upset)
/-- STEP SHL (R109). -/
def execStepShl (core : CoreId) (upset : Upset) (s : State) : Host.Outcome State Fault Refusal :=
  s.onEngine (slateStep s.fuses 0x10 core.toNat upset)
/-- STEP SHR (R109). -/
def execStepShr (core : CoreId) (upset : Upset) (s : State) : Host.Outcome State Fault Refusal :=
  s.onEngine (slateStep s.fuses 0x11 core.toNat upset)
/-- STEP AND (R106). -/
def execStepAnd (core : CoreId) (upset : Upset) (s : State) : Host.Outcome State Fault Refusal :=
  s.onEngine (slateStep s.fuses 0x12 core.toNat upset)
/-- STEP OR (R106). -/
def execStepOr (core : CoreId) (upset : Upset) (s : State) : Host.Outcome State Fault Refusal :=
  s.onEngine (slateStep s.fuses 0x13 core.toNat upset)
/-- STEP XOR (R106). -/
def execStepXor (core : CoreId) (upset : Upset) (s : State) : Host.Outcome State Fault Refusal :=
  s.onEngine (slateStep s.fuses 0x14 core.toNat upset)
/-- STEP CVT.FI (R109). -/
def execStepCvtFi (core : CoreId) (upset : Upset) (s : State) : Host.Outcome State Fault Refusal :=
  s.onEngine (slateStep s.fuses 0x18 core.toNat upset)
/-- STEP CVT.IF (R106). -/
def execStepCvtIf (core : CoreId) (upset : Upset) (s : State) : Host.Outcome State Fault Refusal :=
  s.onEngine (slateStep s.fuses 0x19 core.toNat upset)
/-- STEP CVT.PN (R106, R108). -/
def execStepCvtPn (core : CoreId) (upset : Upset) (s : State) : Host.Outcome State Fault Refusal :=
  s.onEngine (slateStep s.fuses 0x1A core.toNat upset)
/-- STEP CVT.WL (R106). -/
def execStepCvtWl (core : CoreId) (upset : Upset) (s : State) : Host.Outcome State Fault Refusal :=
  s.onEngine (slateStep s.fuses 0x1B core.toNat upset)
/-- STEP CVT.WH (R106). -/
def execStepCvtWh (core : CoreId) (upset : Upset) (s : State) : Host.Outcome State Fault Refusal :=
  s.onEngine (slateStep s.fuses 0x1C core.toNat upset)
/-- STEP EXP2 (R110). -/
def execStepExp2 (core : CoreId) (upset : Upset) (s : State) : Host.Outcome State Fault Refusal :=
  s.onEngine (slateStep s.fuses 0x20 core.toNat upset)
/-- STEP LOG2 (R110). -/
def execStepLog2 (core : CoreId) (upset : Upset) (s : State) : Host.Outcome State Fault Refusal :=
  s.onEngine (slateStep s.fuses 0x21 core.toNat upset)
/-- STEP RCP (R110). -/
def execStepRcp (core : CoreId) (upset : Upset) (s : State) : Host.Outcome State Fault Refusal :=
  s.onEngine (slateStep s.fuses 0x22 core.toNat upset)
/-- STEP RSQ (R110). -/
def execStepRsq (core : CoreId) (upset : Upset) (s : State) : Host.Outcome State Fault Refusal :=
  s.onEngine (slateStep s.fuses 0x23 core.toNat upset)
/-- STEP TANH (R110). -/
def execStepTanh (core : CoreId) (upset : Upset) (s : State) : Host.Outcome State Fault Refusal :=
  s.onEngine (slateStep s.fuses 0x24 core.toNat upset)
/-- STEP RSUM (R111). -/
def execStepRsum (core : CoreId) (upset : Upset) (s : State) : Host.Outcome State Fault Refusal :=
  s.onEngine (slateStep s.fuses 0x30 core.toNat upset)
/-- STEP RMAX (R111). -/
def execStepRmax (core : CoreId) (upset : Upset) (s : State) : Host.Outcome State Fault Refusal :=
  s.onEngine (slateStep s.fuses 0x31 core.toNat upset)
/-- STEP RMIN (R111). -/
def execStepRmin (core : CoreId) (upset : Upset) (s : State) : Host.Outcome State Fault Refusal :=
  s.onEngine (slateStep s.fuses 0x32 core.toNat upset)
/-- STEP PERM (R112). -/
def execStepPerm (core : CoreId) (upset : Upset) (s : State) : Host.Outcome State Fault Refusal :=
  s.onEngine (slateStep s.fuses 0x38 core.toNat upset)
/-- STEP BEAMREAD (R85, R113). -/
def execStepBeamread (core : CoreId) (upset : Upset) (s : State) : Host.Outcome State Fault Refusal :=
  s.onEngine (slateStep s.fuses 0x3C core.toNat upset)
/-- STEP STORE (R114). -/
def execStepStore (core : CoreId) (upset : Upset) (s : State) : Host.Outcome State Fault Refusal :=
  s.onEngine (slateStep s.fuses 0x3D core.toNat upset)

end Sys2Proof.Machine
end

