-- ==== Sys2Proof/Machine/Dispatch.lean ====
section
/-! DEFINITION. One arm per command of the table: which meaning gives its effect. -/

namespace Sys2Proof.Machine

/-- The effect of a command on everything but the queue. -/
def exec (i : Instr) (s : State) : Host.Outcome State Fault Refusal :=
  match i with
  | .powerOn straps => Sys2Proof.Machine.execPowerOn straps s
  | .railFault rail lowNs => Sys2Proof.Machine.execRailFault rail lowNs s
  | .deviceReset straps => Sys2Proof.Machine.execDeviceReset straps s
  | .pciePerst => Sys2Proof.Machine.execPciePerst s
  | .pllLock => Sys2Proof.Machine.execPllLock s
  | .clockLoss => Sys2Proof.Machine.execClockLoss s
  | .thermalTrip cluster celsius => Sys2Proof.Machine.execThermalTrip cluster celsius s
  | .fullLoad => Sys2Proof.Machine.execFullLoad s
  | .streamHeader src bytes => Sys2Proof.Machine.execStreamHeader src bytes s
  | .clearDone => Sys2Proof.Machine.execClearDone s
  | .frameRecord bytes => Sys2Proof.Machine.execFrameRecord bytes s
  | .streamTag bytes => Sys2Proof.Machine.execStreamTag bytes s
  | .icpAbort => Sys2Proof.Machine.execIcpAbort s
  | .doneHigh => Sys2Proof.Machine.execDoneHigh s
  | .startupStepEnd => Sys2Proof.Machine.execStartupStepEnd s
  | .hbmTrainingDone failed => Sys2Proof.Machine.execHbmTrainingDone failed s
  | .reprogram via value => Sys2Proof.Machine.execReprogram via value s
  | .configStream via bytes => Sys2Proof.Machine.execConfigStream via bytes s
  | .bbramKey via key => Sys2Proof.Machine.execBbramKey via key s
  | .bbramErase via value => Sys2Proof.Machine.execBbramErase via value s
  | .fuseProgram via mask => Sys2Proof.Machine.execFuseProgram via mask s
  | .efuseKey via key => Sys2Proof.Machine.execEfuseKey via key s
  | .scrubPass die => Sys2Proof.Machine.execScrubPass die s
  | .scrubFrame frame obs => Sys2Proof.Machine.execScrubFrame frame obs s
  | .registerWrite via target bytes => Sys2Proof.Machine.execRegisterWrite via target bytes s
  | .stagedWrite via index sub bytes => Sys2Proof.Machine.execStagedWrite via index sub bytes s
  | .groupCommit via index => Sys2Proof.Machine.execGroupCommit via index s
  | .stagingReset via index => Sys2Proof.Machine.execStagingReset via index s
  | .translatorCommit via => Sys2Proof.Machine.execTranslatorCommit via s
  | .formatProfile via value => Sys2Proof.Machine.execFormatProfile via value s
  | .arrayProfile via value => Sys2Proof.Machine.execArrayProfile via value s
  | .reductionProfile via value => Sys2Proof.Machine.execReductionProfile via value s
  | .fusionProfile via value => Sys2Proof.Machine.execFusionProfile via value s
  | .memoryProfile via value => Sys2Proof.Machine.execMemoryProfile via value s
  | .hbmProfile via value => Sys2Proof.Machine.execHbmProfile via value s
  | .nocProfile via value => Sys2Proof.Machine.execNocProfile via value s
  | .saeriProfile via value => Sys2Proof.Machine.execSaeriProfile via value s
  | .laneProfile via value => Sys2Proof.Machine.execLaneProfile via value s
  | .fabricProfile via value => Sys2Proof.Machine.execFabricProfile via value s
  | .configProfile via value => Sys2Proof.Machine.execConfigProfile via value s
  | .powerProfile via value => Sys2Proof.Machine.execPowerProfile via value s
  | .reqlenWrite len => Sys2Proof.Machine.execReqlenWrite len s
  | .rsplenFree value => Sys2Proof.Machine.execRsplenFree value s
  | .transferRead via frame => Sys2Proof.Machine.execTransferRead via frame s
  | .writeSegment via frame => Sys2Proof.Machine.execWriteSegment via frame s
  | .readAcknowledge via frame => Sys2Proof.Machine.execReadAcknowledge via frame s
  | .clientAbort via frame => Sys2Proof.Machine.execClientAbort via frame s
  | .transferTimeout via tid silentMs => Sys2Proof.Machine.execTransferTimeout via tid silentMs s
  | .flagAdd flag value => Sys2Proof.Machine.execFlagAdd flag value s
  | .flagSet flag value => Sys2Proof.Machine.execFlagSet flag value s
  | .streamEnable stream => Sys2Proof.Machine.execStreamEnable stream s
  | .streamDisable stream => Sys2Proof.Machine.execStreamDisable stream s
  | .doorbell stream tail => Sys2Proof.Machine.execDoorbell stream tail s
  | .abort round => Sys2Proof.Machine.execAbort round s
  | .hostRead addr len => Sys2Proof.Machine.execHostRead addr len s
  | .hostWrite addr bytes => Sys2Proof.Machine.execHostWrite addr bytes s
  | .hostLinkDown => Sys2Proof.Machine.execHostLinkDown s
  | .functionLevelReset => Sys2Proof.Machine.execFunctionLevelReset s
  | .descriptorFetch stream => Sys2Proof.Machine.execDescriptorFetch stream s
  | .descriptorIssue stream => Sys2Proof.Machine.execDescriptorIssue stream s
  | .descriptorDelivery stream => Sys2Proof.Machine.execDescriptorDelivery stream s
  | .patchEvent core => Sys2Proof.Machine.execPatchEvent core s
  | .patchRelease core => Sys2Proof.Machine.execPatchRelease core s
  | .nop stream slot => Sys2Proof.Machine.execNop stream slot s
  | .copy stream slot => Sys2Proof.Machine.execCopy stream slot s
  | .slate stream slot => Sys2Proof.Machine.execSlate stream slot s
  | .matmul stream slot => Sys2Proof.Machine.execMatmul stream slot s
  | .handleTake stream slot => Sys2Proof.Machine.execHandleTake stream slot s
  | .feederWrite core row => Sys2Proof.Machine.execFeederWrite core row s
  | .vectorRelease core upset => Sys2Proof.Machine.execVectorRelease core upset s
  | .beamRowWrite core upset => Sys2Proof.Machine.execBeamRowWrite core upset s
  | .rescaleAttemptStart check => Sys2Proof.Machine.execRescaleAttemptStart check s
  | .chainTileArrive core upset => Sys2Proof.Machine.execChainTileArrive core upset s
  | .repeatPassSend core => Sys2Proof.Machine.execRepeatPassSend core s
  | .carrySend core => Sys2Proof.Machine.execCarrySend core s
  | .carryPartialArrive core upset => Sys2Proof.Machine.execCarryPartialArrive core upset s
  | .stepMov core upset => Sys2Proof.Machine.execStepMov core upset s
  | .stepAdd core upset => Sys2Proof.Machine.execStepAdd core upset s
  | .stepSub core upset => Sys2Proof.Machine.execStepSub core upset s
  | .stepMul core upset => Sys2Proof.Machine.execStepMul core upset s
  | .stepFma core upset => Sys2Proof.Machine.execStepFma core upset s
  | .stepMax core upset => Sys2Proof.Machine.execStepMax core upset s
  | .stepMin core upset => Sys2Proof.Machine.execStepMin core upset s
  | .stepAbs core upset => Sys2Proof.Machine.execStepAbs core upset s
  | .stepNeg core upset => Sys2Proof.Machine.execStepNeg core upset s
  | .stepRelu core upset => Sys2Proof.Machine.execStepRelu core upset s
  | .stepClamp core upset => Sys2Proof.Machine.execStepClamp core upset s
  | .stepShl core upset => Sys2Proof.Machine.execStepShl core upset s
  | .stepShr core upset => Sys2Proof.Machine.execStepShr core upset s
  | .stepAnd core upset => Sys2Proof.Machine.execStepAnd core upset s
  | .stepOr core upset => Sys2Proof.Machine.execStepOr core upset s
  | .stepXor core upset => Sys2Proof.Machine.execStepXor core upset s
  | .stepCvtFi core upset => Sys2Proof.Machine.execStepCvtFi core upset s
  | .stepCvtIf core upset => Sys2Proof.Machine.execStepCvtIf core upset s
  | .stepCvtPn core upset => Sys2Proof.Machine.execStepCvtPn core upset s
  | .stepCvtWl core upset => Sys2Proof.Machine.execStepCvtWl core upset s
  | .stepCvtWh core upset => Sys2Proof.Machine.execStepCvtWh core upset s
  | .stepExp2 core upset => Sys2Proof.Machine.execStepExp2 core upset s
  | .stepLog2 core upset => Sys2Proof.Machine.execStepLog2 core upset s
  | .stepRcp core upset => Sys2Proof.Machine.execStepRcp core upset s
  | .stepRsq core upset => Sys2Proof.Machine.execStepRsq core upset s
  | .stepTanh core upset => Sys2Proof.Machine.execStepTanh core upset s
  | .stepRsum core upset => Sys2Proof.Machine.execStepRsum core upset s
  | .stepRmax core upset => Sys2Proof.Machine.execStepRmax core upset s
  | .stepRmin core upset => Sys2Proof.Machine.execStepRmin core upset s
  | .stepPerm core upset => Sys2Proof.Machine.execStepPerm core upset s
  | .stepBeamread core upset => Sys2Proof.Machine.execStepBeamread core upset s
  | .stepStore core upset => Sys2Proof.Machine.execStepStore core upset s
  | .descriptorComplete stream slot => Sys2Proof.Machine.execDescriptorComplete stream slot s
  | .roundCommit round => Sys2Proof.Machine.execRoundCommit round s
  | .roundAbort round cause => Sys2Proof.Machine.execRoundAbort round cause s
  | .flagRestore round => Sys2Proof.Machine.execFlagRestore round s
  | .roundRestart round => Sys2Proof.Machine.execRoundRestart round s
  | .roundTooLong round elapsedUs => Sys2Proof.Machine.execRoundTooLong round elapsedUs s
  | .deadlock round heldCycles => Sys2Proof.Machine.execDeadlock round heldCycles s
  | .coreHalt via core => Sys2Proof.Machine.execCoreHalt via core s
  | .coreHalted core => Sys2Proof.Machine.execCoreHalted core s
  | .coreRelease via core => Sys2Proof.Machine.execCoreRelease via core s
  | .add core => Sys2Proof.Machine.execAdd core s
  | .sub core => Sys2Proof.Machine.execSub core s
  | .and core => Sys2Proof.Machine.execAnd core s
  | .or core => Sys2Proof.Machine.execOr core s
  | .xor core => Sys2Proof.Machine.execXor core s
  | .sll core => Sys2Proof.Machine.execSll core s
  | .srl core => Sys2Proof.Machine.execSrl core s
  | .sra core => Sys2Proof.Machine.execSra core s
  | .slt core => Sys2Proof.Machine.execSlt core s
  | .sltu core => Sys2Proof.Machine.execSltu core s
  | .mul core => Sys2Proof.Machine.execMul core s
  | .mulhs core => Sys2Proof.Machine.execMulhs core s
  | .mulhu core => Sys2Proof.Machine.execMulhu core s
  | .min core => Sys2Proof.Machine.execMin core s
  | .max core => Sys2Proof.Machine.execMax core s
  | .norm core => Sys2Proof.Machine.execNorm core s
  | .expf core => Sys2Proof.Machine.execExpf core s
  | .expb core => Sys2Proof.Machine.execExpb core s
  | .addi core => Sys2Proof.Machine.execAddi core s
  | .slti core => Sys2Proof.Machine.execSlti core s
  | .sltiu core => Sys2Proof.Machine.execSltiu core s
  | .andi core => Sys2Proof.Machine.execAndi core s
  | .ori core => Sys2Proof.Machine.execOri core s
  | .xori core => Sys2Proof.Machine.execXori core s
  | .lui core => Sys2Proof.Machine.execLui core s
  | .slli core => Sys2Proof.Machine.execSlli core s
  | .srli core => Sys2Proof.Machine.execSrli core s
  | .srai core => Sys2Proof.Machine.execSrai core s
  | .lw core => Sys2Proof.Machine.execLw core s
  | .lh core => Sys2Proof.Machine.execLh core s
  | .lhu core => Sys2Proof.Machine.execLhu core s
  | .lb core => Sys2Proof.Machine.execLb core s
  | .lbu core => Sys2Proof.Machine.execLbu core s
  | .sw core => Sys2Proof.Machine.execSw core s
  | .sh core => Sys2Proof.Machine.execSh core s
  | .sb core => Sys2Proof.Machine.execSb core s
  | .dlw core => Sys2Proof.Machine.execDlw core s
  | .dlb core => Sys2Proof.Machine.execDlb core s
  | .dsw core => Sys2Proof.Machine.execDsw core s
  | .dsb core => Sys2Proof.Machine.execDsb core s
  | .beq core => Sys2Proof.Machine.execBeq core s
  | .bne core => Sys2Proof.Machine.execBne core s
  | .blt core => Sys2Proof.Machine.execBlt core s
  | .bge core => Sys2Proof.Machine.execBge core s
  | .bltu core => Sys2Proof.Machine.execBltu core s
  | .bgeu core => Sys2Proof.Machine.execBgeu core s
  | .loop core => Sys2Proof.Machine.execLoop core s
  | .jal core => Sys2Proof.Machine.execJal core s
  | .jalr core => Sys2Proof.Machine.execJalr core s
  | .mac core => Sys2Proof.Machine.execMac core s
  | .msu core => Sys2Proof.Machine.execMsu core s
  | .mta core => Sys2Proof.Machine.execMta core s
  | .rnd core => Sys2Proof.Machine.execRnd core s
  | .ahi core => Sys2Proof.Machine.execAhi core s
  | .alo core => Sys2Proof.Machine.execAlo core s
  | .wait core => Sys2Proof.Machine.execWait core s
  | .prel core => Sys2Proof.Machine.execPrel core s
  | .mfs core => Sys2Proof.Machine.execMfs core s
  | .mts core => Sys2Proof.Machine.execMts core s
  | .illegalEncoding core => Sys2Proof.Machine.execIllegalEncoding core s
  | .reckonerRunStart via core => Sys2Proof.Machine.execReckonerRunStart via core s
  | .reckonerStopRequest via core => Sys2Proof.Machine.execReckonerStopRequest via core s
  | .reckonerStopped core => Sys2Proof.Machine.execReckonerStopped core s
  | .ibankSelect via core value => Sys2Proof.Machine.execIbankSelect via core value s
  | .bankSwap core => Sys2Proof.Machine.execBankSwap core s
  | .nocRead pkt upsets => Sys2Proof.Machine.execNocRead pkt upsets s
  | .nocWrite pkt => Sys2Proof.Machine.execNocWrite pkt s
  | .nocReadData pkt latency => Sys2Proof.Machine.execNocReadData pkt latency s
  | .nocWriteAck pkt => Sys2Proof.Machine.execNocWriteAck pkt s
  | .nocFlagAdd pkt => Sys2Proof.Machine.execNocFlagAdd pkt s
  | .nocCarryPartial pkt => Sys2Proof.Machine.execNocCarryPartial pkt s
  | .nocWeightRow pkt => Sys2Proof.Machine.execNocWeightRow pkt s
  | .nocManagement pkt => Sys2Proof.Machine.execNocManagement pkt s
  | .flitReplay pkt bundle link failures => Sys2Proof.Machine.execFlitReplay pkt bundle link failures s
  | .linkRemoval bundle link => Sys2Proof.Machine.execLinkRemoval bundle link s
  | .cacheLineFill cluster addr upset => Sys2Proof.Machine.execCacheLineFill cluster addr upset s
  | .cacheRemoval cluster addr => Sys2Proof.Machine.execCacheRemoval cluster addr s
  | .hbmAccess addr len write upsets parityErrors => Sys2Proof.Machine.execHbmAccess addr len write upsets parityErrors s
  | .hbmRefresh pc bank => Sys2Proof.Machine.execHbmRefresh pc bank s
  | .hbmTempRead stack celsius => Sys2Proof.Machine.execHbmTempRead stack celsius s
  | .retrainPass stack failed => Sys2Proof.Machine.execRetrainPass stack failed s
  | .patrolRead addr first second => Sys2Proof.Machine.execPatrolRead addr first second s
  | .nocStatsClear via value => Sys2Proof.Machine.execNocStatsClear via value s
  | .probeArm via => Sys2Proof.Machine.execProbeArm via s
  | .probeDisarm via => Sys2Proof.Machine.execProbeDisarm via s
  | .saeriRead pkt => Sys2Proof.Machine.execSaeriRead pkt s
  | .saeriWrite pkt => Sys2Proof.Machine.execSaeriWrite pkt s
  | .saeriReadData pkt => Sys2Proof.Machine.execSaeriReadData pkt s
  | .saeriWriteAck pkt => Sys2Proof.Machine.execSaeriWriteAck pkt s
  | .saeriFlagAdd pkt => Sys2Proof.Machine.execSaeriFlagAdd pkt s
  | .saeriCarryPartial pkt => Sys2Proof.Machine.execSaeriCarryPartial pkt s
  | .saeriWeightRow pkt => Sys2Proof.Machine.execSaeriWeightRow pkt s
  | .saeriManagement pkt => Sys2Proof.Machine.execSaeriManagement pkt s
  | .quiescenceNotice pkt => Sys2Proof.Machine.execQuiescenceNotice pkt s
  | .routeSwitch => Sys2Proof.Machine.execRouteSwitch s
  | .leave via value => Sys2Proof.Machine.execLeave via value s
  | .peerResume via round => Sys2Proof.Machine.execPeerResume via round s
  | .portEnable via port => Sys2Proof.Machine.execPortEnable via port s
  | .portDisable via port => Sys2Proof.Machine.execPortDisable via port s
  | .signalDetect port energy => Sys2Proof.Machine.execSignalDetect port energy s
  | .cdrLock lanes => Sys2Proof.Machine.execCdrLock lanes s
  | .bitSlip via lane value => Sys2Proof.Machine.execBitSlip via lane value s
  | .blockLock lane validHeaders => Sys2Proof.Machine.execBlockLock lane validHeaders s
  | .bringupTimeout port elapsedNs => Sys2Proof.Machine.execBringupTimeout port elapsedNs s
  | .markReceive lane block skewBlocks => Sys2Proof.Machine.execMarkReceive lane block skewBlocks s
  | .laneLockLoss lane cdr badHeaders => Sys2Proof.Machine.execLaneLockLoss lane cdr badHeaders s
  | .fillReceive lane block => Sys2Proof.Machine.execFillReceive lane block s
  | .idleFrame port frame => Sys2Proof.Machine.execIdleFrame port frame s
  | .dataFrame port frame => Sys2Proof.Machine.execDataFrame port frame s
  | .leaveNotice port frame => Sys2Proof.Machine.execLeaveNotice port frame s
  | .departureNotice port frame => Sys2Proof.Machine.execDepartureNotice port frame s
  | .nakReplay port ack => Sys2Proof.Machine.execNakReplay port ack s
  | .replayTimeout port waitedNs => Sys2Proof.Machine.execReplayTimeout port waitedNs s
  | .portTimeout port silentNs => Sys2Proof.Machine.execPortTimeout port silentNs s
  | .laneTestStart via lane => Sys2Proof.Machine.execLaneTestStart via lane s
  | .laneTestEnd via lane => Sys2Proof.Machine.execLaneTestEnd via lane s
  | .read core cmd => Sys2Proof.Machine.execRead core cmd s
  | .write core cmd => Sys2Proof.Machine.execWrite core cmd s
  | .inject core cmd => Sys2Proof.Machine.execInject core cmd s
  | .injectResume core => Sys2Proof.Machine.execInjectResume core s
  | .take core cmd => Sys2Proof.Machine.execTake core cmd s
  | .release core cmd => Sys2Proof.Machine.execRelease core cmd s
  | .flagadd core cmd => Sys2Proof.Machine.execFlagadd core cmd s
  | .fabricResponse core upper lower beats => Sys2Proof.Machine.execFabricResponse core upper lower beats s
  | .fabricTimeout core tag waited => Sys2Proof.Machine.execFabricTimeout core tag waited s
  | .stateEntry cluster idleNs => Sys2Proof.Machine.execStateEntry cluster idleNs s
  | .wakeRequest cluster => Sys2Proof.Machine.execWakeRequest cluster s
  | .wakeSlotGrant cluster sinceLastNs => Sys2Proof.Machine.execWakeSlotGrant cluster sinceLastNs s
  | .wakeComplete cluster exitNs => Sys2Proof.Machine.execWakeComplete cluster exitNs s
  | .stateRecompute => Sys2Proof.Machine.execStateRecompute s
  | .capSample milliWatts averageMw => Sys2Proof.Machine.execCapSample milliWatts averageMw s
  | .allowanceStep cluster celsius => Sys2Proof.Machine.execAllowanceStep cluster celsius s
  | .marginMeasurement cluster idleNs obs => Sys2Proof.Machine.execMarginMeasurement cluster idleNs obs s
  | .forcedMeasurement cluster sinceHours obs => Sys2Proof.Machine.execForcedMeasurement cluster sinceHours obs s
  | .replan => Sys2Proof.Machine.execReplan s
  | .setpointStep acked => Sys2Proof.Machine.execSetpointStep acked s
  | .abortFrame round final status stop => Sys2Proof.Machine.execAbortFrame round final status stop s
  | .commitVote round group vote stop => Sys2Proof.Machine.execCommitVote round group vote stop s
  | .restartVote round group vote stop => Sys2Proof.Machine.execRestartVote round group vote stop s
  | .tally1Stuck lowCycles => Sys2Proof.Machine.execTally1Stuck lowCycles s
  | .tally1Recovered highCycles => Sys2Proof.Machine.execTally1Recovered highCycles s
  | .tally0Stuck lowCycles => Sys2Proof.Machine.execTally0Stuck lowCycles s
  | .tally0Recovered highCycles => Sys2Proof.Machine.execTally0Recovered highCycles s
  | .shadowRowLoad core upset => Sys2Proof.Machine.execShadowRowLoad core upset s
  | .refreshManagement stack => Sys2Proof.Machine.execRefreshManagement stack s
  | .vbattRemoval => Sys2Proof.Machine.execVbattRemoval s
  | .canErrorFrame => Sys2Proof.Machine.execCanErrorFrame s
  | .laneTestError lane => Sys2Proof.Machine.execLaneTestError lane s

end Sys2Proof.Machine
end

