-- ==== Sys2Proof/Machine/Idle.lean ====
section
/-! DEFINITION. A core cycle that passes while no command waits: the counters of cycles (R174, R199, R380, R381), the delivery of event
words (R310), and the quiescence notices this device sends (R151). -/

namespace Sys2Proof.Machine

/-- A consumer waits for a handle on a core (R165, R174). -/
def Dev.handleWait (d : Dev) (n : Nat) : Bool :=
  match (d.core n).loadQ.head?.bind d.desc? with
  | none => false
  | some x => d.handleBlocked x

/-- A descriptor waits for its core to empty (R173). -/
def Dev.drainWait (d : Dev) (x : Desc) : Bool :=
  x.stage == .issued && (d.nextDelivery x.key.stream).map Desc.key == some x.key && d.fencesOk x && !d.coreDrained x.core &&
    match d.round? x.round with | some r => r.active && r.settingNat 0x4070 1 == 1 | none => false

/-- CK_RK cycles since device reset, from core cycles of 1.6 or 1.4 GHz and CK_RK of 800 MHz. (DEDUCED, log entry 70) -/
def Dev.rkCycles (d : Dev) : Nat := if Config.gradeA16 then d.cycles / 2 else d.cycles * 4 / 7

/-- One event word leaves each working port's queue (R310). -/
def FabricPort.pop (p : FabricPort) : FabricPort :=
  match p.events with
  | w :: rest => { p with events := rest, responses := p.responses ++ [{ word := w, beats := [] }] }
  | [] => p

/-- A quiescence notice to every peer of a round. -/
def Dev.sendNotices (d : Dev) (r : Round) (set : Bool) : Dev :=
  (r.peers.filter fun p => p ≠ d.nodeId).foldl
    (fun d p => d.saeriNotice p 0x09 (r.number.toNat + if set then 2 ^ 32 else 0) []) d

/-- Notices follow the quiescence of the rounds that span devices; the device's own entry says that a notice stands. (DESIGN CHOICE, log entry 69) -/
def Dev.noticeRound (d : Dev) (r : Round) : Dev :=
  if r.peerGroup = 0 then d
  else
    let e := (r.number, d.nodeId)
    let stands := d.saeri.notices.contains e
    let now := (d.quiescent r).isSome
    if now ∧ !stands then
      Dev.sendNotices { d with saeri := { d.saeri with notices := d.saeri.notices ++ [e] } } r true
    else if !now ∧ stands then
      Dev.sendNotices { d with saeri := { d.saeri with notices := d.saeri.notices.filter fun q => q ≠ e } } r false
    else d

/-- What a cycle brings of itself: errors that strike the memories and the dictionary's storage, cycles of bank conflict, reports of the stacks, network words corrected. -/
def Dev.tick (d : Dev) (t : Tick) : Dev :=
  let d1 := t.cacheStrikes.foldl (fun d e => d.cacheStrike e.1 e.2) (d.strikes t.strikes)
  let d2 : Dev := { d1 with badObjs := d1.badObjs ++ t.objects.filter fun k => !d1.badObjs.contains k }
  ((d2.bump 0x3090 4 t.conflicts).bump 0x3410 4 t.onDie).bump 0x3100 1 t.nocCorrected

/-- One CK_CORE cycle. Without clocks nothing counts (R371). (DESIGN CHOICE, log entry 3) -/
def idleCycle (d : Dev) : Dev :=
  if !d.pins.clocks then d
  else
    let count (l : List (Nat × Core)) (f : Nat → Bool) : Nat := (l.filter fun e => f e.1).length
    let clusters := (List.range 16).map d.cluster
    let d0 := d.fabricCycle
    let d1 : Dev := { d0 with cycles := d0.cycles + 1 }
    let ticks := d1.rkCycles - d0.rkCycles
    let d2 := (d1.bump 0x3070 1 (count d.cores d.handleWait)).bump 0x3070 2 (d.descs.filter d.drainWait).length
    let d3 := d2.bump 0x3160 2 (if clusters.any fun k => k.capAllowance < 16 then 1 else 0)
    let d4 := d3.bump 0x3160 3 (if clusters.any fun k => k.thermal < 16 then 1 else 0)
    let d5 := d4.bump 0x3081 2 (ticks * (d.cores.filter fun e => e.2.rk.inShadow).length)
    let d6 : Dev := { d5 with cores := d5.cores.map fun e => if d.portLive e.1 then (e.1, { e.2 with port := e.2.port.pop }) else e }
    let d7 := (d6.rounds.foldl Dev.noticeRound d6).idleFrames
    Dev.tick { d7 with draws := d7.draws + 1 } (Config.tick d7.draws)

end Sys2Proof.Machine
end

