-- ==== Sys2Proof/WellFormed.lean ====
section
/-! DEFINITION. Which commands are well formed: the lengths and codes that the manual fixes for what a command carries. A command that is not
well formed is nothing the DX8 can meet; the machine leaves its state as it is. -/

namespace Sys2Proof

/-- The payload of an on-chip packet: LENM1 + 1 bytes, a carry partial, or a tile (R230). -/
def NocPacket.holdsBytes (k : NocPacket) : Bool := match k.body with | .bytes b => b.length == k.lenm1.toNat + 1 | _ => false
def NocPacket.holdsCarry (k : NocPacket) : Bool := match k.body with | .carry _ _ => true | _ => false
def NocPacket.holdsTile (k : NocPacket) : Bool := match k.body with | .tile _ _ => true | _ => false

/-- A command word of this operation with its beats (R301, R302). A word with a reserved OP stands for every row: each answers it alike (R303). -/
def fabWf (op : BitVec 4) (w : FabWord) (beats : Nat) : Bool :=
  let x := BitVec.extractLsb' 124 4 w.word
  if x = op then w.beats.length == 64 * beats else (x == 0 || 6 < x.toNat) && w.beats.length % 64 == 0

/-- Well-formed commands: a stream header of 64 bytes, a frame record of 576, a tag of 16 (R319, R321); keys of 32 bytes (R323); a frame that
exists and its word 0 to 35 (R316, R342); an HBM access of at least one byte whose data has its length (R212); one of 48 banks (R209); one of 52
bundles and 6 links (R233); a packet and a frame of the operation that the command names, with its data (R230, R285, R363); the OP and
the beats of a fabric-port command (R301, R302); the 72 blocks of a link frame (R282). -/
def Instr.wf : Instr → Bool
  | .streamHeader _ b => b.length == 64
  | .frameRecord b => b.length == 576
  | .streamTag b => b.length == 16
  | .bbramKey _ k => k.length == 32
  | .efuseKey _ k => k.length == 32
  | .scrubFrame f o => Machine.frameValid f.toNat && o.badWord.all fun w => w.toNat < 36
  | .transferRead _ f => f.cmd == 0x01
  | .writeSegment _ f => f.cmd == 0x02
  | .readAcknowledge _ f => f.cmd == 0x04
  | .clientAbort _ f => f.cmd == 0x05
  | .nocRead k _ => k.op == 0x01
  | .nocWrite k => k.op == 0x02 && k.holdsBytes
  | .nocReadData k _ => k.op == 0x03
  | .nocWriteAck k => k.op == 0x04
  | .nocFlagAdd k => k.op == 0x05
  | .nocCarryPartial k => k.op == 0x06 && k.holdsCarry
  | .nocWeightRow k => k.op == 0x07 && k.holdsTile
  | .nocManagement k => k.op == 0x08
  | .linkRemoval bundle link => bundle.toNat < 52 && link.toNat < 6
  | .hbmAccess _ n w _ _ => n != 0 && w.all fun b => b.length == n
  | .hbmRefresh _ bank => bank.toNat < 48
  | .saeriRead k => k.op == 0x01
  | .saeriWrite k => k.op == 0x02 && k.lenm1.toNat < k.data.length
  | .saeriReadData k => k.op == 0x03
  | .saeriWriteAck k => k.op == 0x04
  | .saeriFlagAdd k => k.op == 0x05
  | .saeriManagement k => k.op == 0x08
  | .quiescenceNotice k => k.op == 0x09
  | .read _ w => fabWf 0x1 w 0
  | .write _ w => fabWf 0x2 w (((BitVec.extractLsb' 74 8 w.word).toNat + 64) / 64)
  | .inject _ w => fabWf 0x3 w 2
  | .take _ w => fabWf 0x4 w 0
  | .release _ w => fabWf 0x5 w 0
  | .flagadd _ w => fabWf 0x6 w 1
  | .signalDetect .. | .cdrLock .. => true
  | .idleFrame _ f | .dataFrame _ f | .leaveNotice _ f | .departureNotice _ f => f.blocks.length == 72
  | .powerOn .. | .railFault .. | .deviceReset .. | .pciePerst | .pllLock | .clockLoss | .thermalTrip .. | .fullLoad | .clearDone | .icpAbort
  | .doneHigh | .startupStepEnd | .hbmTrainingDone .. | .reprogram .. | .configStream .. | .bbramErase .. | .fuseProgram .. | .scrubPass ..
  | .registerWrite .. | .stagedWrite .. | .groupCommit .. | .stagingReset .. | .translatorCommit .. | .formatProfile .. | .arrayProfile ..
  | .reductionProfile .. | .fusionProfile .. | .memoryProfile .. | .hbmProfile .. | .nocProfile .. | .saeriProfile .. | .laneProfile ..
  | .fabricProfile .. | .configProfile .. | .powerProfile .. | .reqlenWrite .. | .rsplenFree .. | .transferTimeout .. | .flagAdd ..
  | .flagSet .. | .streamEnable .. | .streamDisable .. | .doorbell .. | .abort .. | .hostRead .. | .hostWrite .. | .hostLinkDown
  | .functionLevelReset | .descriptorFetch .. | .descriptorIssue .. | .descriptorDelivery .. | .patchEvent .. | .patchRelease .. | .nop ..
  | .copy .. | .slate .. | .matmul .. | .handleTake .. | .feederWrite .. | .vectorRelease .. | .beamRowWrite .. | .rescaleAttemptStart ..
  | .chainTileArrive .. | .repeatPassSend .. | .carrySend .. | .carryPartialArrive .. | .stepMov .. | .stepAdd .. | .stepSub .. | .stepMul ..
  | .stepFma .. | .stepMax .. | .stepMin .. | .stepAbs .. | .stepNeg .. | .stepRelu .. | .stepClamp .. | .stepShl .. | .stepShr .. | .stepAnd ..
  | .stepOr .. | .stepXor .. | .stepCvtFi .. | .stepCvtIf .. | .stepCvtPn .. | .stepCvtWl .. | .stepCvtWh .. | .stepExp2 .. | .stepLog2 ..
  | .stepRcp .. | .stepRsq .. | .stepTanh .. | .stepRsum .. | .stepRmax .. | .stepRmin .. | .stepPerm .. | .stepBeamread .. | .stepStore ..
  | .descriptorComplete .. | .roundCommit .. | .roundAbort .. | .flagRestore .. | .roundRestart .. | .roundTooLong .. | .deadlock ..
  | .coreHalt .. | .coreHalted .. | .coreRelease .. | .add .. | .sub .. | .and .. | .or .. | .xor .. | .sll .. | .srl .. | .sra .. | .slt ..
  | .sltu .. | .mul .. | .mulhs .. | .mulhu .. | .min .. | .max .. | .norm .. | .expf .. | .expb .. | .addi .. | .slti .. | .sltiu .. | .andi ..
  | .ori .. | .xori .. | .lui .. | .slli .. | .srli .. | .srai .. | .lw .. | .lh .. | .lhu .. | .lb .. | .lbu .. | .sw .. | .sh .. | .sb ..
  | .dlw .. | .dlb .. | .dsw .. | .dsb .. | .beq .. | .bne .. | .blt .. | .bge .. | .bltu .. | .bgeu .. | .loop .. | .jal .. | .jalr ..
  | .mac .. | .msu .. | .mta .. | .rnd .. | .ahi .. | .alo .. | .wait .. | .prel .. | .mfs .. | .mts .. | .illegalEncoding ..
  | .reckonerRunStart .. | .reckonerStopRequest .. | .reckonerStopped .. | .ibankSelect .. | .bankSwap .. | .flitReplay .. | .cacheLineFill ..
  | .cacheRemoval .. | .hbmTempRead .. | .retrainPass .. | .patrolRead .. | .nocStatsClear .. | .probeArm .. | .probeDisarm ..
  | .saeriCarryPartial .. | .saeriWeightRow .. | .routeSwitch | .leave .. | .peerResume .. | .portEnable .. | .portDisable ..
  | .bitSlip .. | .blockLock .. | .bringupTimeout .. | .markReceive .. | .laneLockLoss .. | .fillReceive ..
  | .nakReplay .. | .replayTimeout .. | .portTimeout .. | .laneTestStart ..
  | .laneTestEnd .. | .injectResume .. | .fabricResponse .. | .fabricTimeout .. | .stateEntry .. | .wakeRequest .. | .wakeSlotGrant ..
  | .wakeComplete .. | .stateRecompute | .capSample .. | .allowanceStep .. | .marginMeasurement .. | .forcedMeasurement .. | .replan
  | .setpointStep .. | .abortFrame .. | .commitVote .. | .restartVote .. | .tally1Stuck .. | .tally1Recovered .. | .tally0Stuck ..
  | .tally0Recovered .. | .shadowRowLoad .. | .refreshManagement .. | .vbattRemoval | .canErrorFrame | .laneTestError .. => true

end Sys2Proof
end

