-- ==== Sys2Proof/Safety.lean ====
section
/-! DEFINITION. The vocabulary of the statements: when a command may run, and the state it leaves, in the terms of the manual. -/

namespace Sys2Proof.Machine

/-! ### Outcomes -/

/-- `s` with another device: the queue and the fuses as before. -/
def State.withDev (s : State) (d : Dev) : State := { s with dev := d }

/-- A command takes `s` to the state with the device `d`: the queue and the fuses are as before. -/
abbrev Gives (i : Instr) (s : State) (d : Dev) : Prop := exec i s = .next (s.withDev d)

/-- A command whose conditions do not hold takes a next state that is `s` itself. -/
abbrev Ignored (i : Instr) (s : State) : Prop := exec i s = .next s

/-! ### The Reckoner -/

/-- The bank in use, the instruction word at its PC, and the register values that the word's fields name (R176, R180). -/
def rkBankOf (d : Dev) (c : CoreId) : Bank := (d.core c.toNat).rk.bank
def rkWordOf (d : Dev) (c : CoreId) : Word := d.rkWordAt c.toNat
def rkFirst (d : Dev) (c : CoreId) : Nat := (rkWordOf d c).toNat / 2 ^ 21 % 32
def rkD (d : Dev) (c : CoreId) : Word := (rkBankOf d c).get (rkFirst d c)
def rkA (d : Dev) (c : CoreId) : Word := (rkBankOf d c).get ((rkWordOf d c).toNat / 2 ^ 16 % 32)
def rkX (d : Dev) (c : CoreId) : Word := (rkBankOf d c).get ((rkWordOf d c).toNat / 2 ^ 11 % 32)
/-- sext(imm) and zext(imm) of R181. -/
def rkSext (d : Dev) (c : CoreId) : Word := ((rkWordOf d c).truncate 16).signExtend 32
def rkZext (d : Dev) (c : CoreId) : Word := ((rkWordOf d c).truncate 16).zeroExtend 32
/-- The accumulator that an A-format word names, and its SH. -/
def rkAccNo (d : Dev) (c : CoreId) : Nat := (rkWordOf d c).toNat / 2 ^ 10 % 2
def rkSh (d : Dev) (c : CoreId) : Nat := (rkWordOf d c).toNat / 2 ^ 5 % 32

/-- The Reckoner of a core issues the word at its PC: the clocks run, it is running, in a bank that is not idle or held by a queued
patch, its cluster is in P0, its PC is in the bank and aligned, and the word has no uncorrectable error (R183, R189, R193, R197, R372). -/
abbrev RkFetches (s : State) (c : CoreId) : Prop :=
  s.dev.pins.clocks = true ∧ (s.dev.cluster (c.toNat / 8)).state = 0 ∧ (s.dev.core c.toNat).rk.mode = .running ∧
  ((s.dev.core c.toNat).rk.inShadow = true ∨ ((s.dev.core c.toNat).rk.waiting = false ∧ (s.dev.core c.toNat).patchQ = [])) ∧
  (rkBankOf s.dev c).pc.toNat ≤ 0x3FFC ∧ (rkBankOf s.dev c).pc.toNat % 4 = 0 ∧
  s.dev.rkBad ((s.dev.core c.toNat).rk.ibase c.toNat + (rkBankOf s.dev c).pc.toNat) = false

/-- It issues, and the word is the instruction `op`. -/
abbrev RkIssues (s : State) (c : CoreId) (op : RkOp) : Prop := RkFetches s c ∧ rkDecode (rkWordOf s.dev c) = some op
/-- The device that the instruction acts on: the fetch has corrected what it could in the instruction word, and counted it (R197). -/
def rkFetched (s : State) (c : CoreId) : Dev := s.dev.rkFetch c.toNat

/-- The device after an instruction that acts on the bank in use alone. -/
def rkThen (d : Dev) (c : CoreId) (f : Bank → Bank) : Dev := d.updBank c.toNat f
/-- The device after an instruction that writes `v` to its first register and goes on to the next instruction. -/
def rkWrites (d : Dev) (c : CoreId) (v : Word) : Dev := rkThen d c fun b => { b.set (rkFirst d c) v with pc := b.pc + 4 }
/-- The device after an instruction that only goes on to the next one. -/
def rkNext (d : Dev) (c : CoreId) : Dev := rkThen d c fun b => { b with pc := b.pc + 4 }
/-- The device after an instruction that sets the PC. -/
def rkGoes (d : Dev) (c : CoreId) (pc : Word) : Dev := rkThen d c fun b => { b with pc := pc }

/-- A jump target that R183 allows. -/
abbrev RkTarget (pc : Word) : Prop := pc.toNat ≤ 0x3FFC ∧ pc.toNat % 4 = 0
/-- The target of an offset in instructions. -/
def rkOffset (d : Dev) (c : CoreId) : Word := (rkBankOf d c).pc + 4 * rkSext d c

/-- The address of a data-memory access, and that R183 allows it. -/
def rkAddr (d : Dev) (c : CoreId) : Nat := (rkA d c + rkSext d c).toNat
abbrev RkData (d : Dev) (c : CoreId) (size : Nat) : Prop := rkAddr d c < 0x10000 ∧ rkAddr d c % size = 0
/-- The bytes of the device that the address names: data memory lies at the start of the core's Reckoner window (R18, R175). -/
def rkBytes (d : Dev) (c : CoreId) (size : Nat) : List Byte := memRead d.mem (rkBase + c.toNat * 0x40000 + rkAddr d c) size
/-- The device once an access has corrected what it could in the words that it touches (R197). -/
def rkTouches (d : Dev) (c : CoreId) (size : Nat) : Dev := d.correct (wordsOf (rkBase + c.toNat * 0x40000 + rkAddr d c) size)
/-- The device after a load that delivers `v`, and after a store of `size` bytes of the first register. -/
def rkLoads (d : Dev) (c : CoreId) (size : Nat) (v : Word) : Dev := rkWrites (rkTouches d c size) c v
def rkStores (d : Dev) (c : CoreId) (size : Nat) : Dev :=
  { rkNext (rkTouches d c size) c with mem := memWrite d.mem (rkBase + c.toNat * 0x40000 + rkAddr d c) (leBytes size (rkD d c).toNat) }
/-- No uncorrectable error lies at the address. -/
abbrev RkSound (d : Dev) (c : CoreId) : Prop := d.badWords.contains ((rkBase + c.toNat * 0x40000 + rkAddr d c) / 16) = false

/-- The descriptor in patch, and that the address lies in its image (R183, R186). -/
abbrev RkPatch (d : Dev) (c : CoreId) (x : Desc) (size : Nat) : Prop :=
  (d.core c.toNat).rk.inShadow = true ∧ (d.core c.toNat).patchQ.head?.bind d.desc? = some x ∧ rkAddr d c + size ≤ 320 ∧ rkAddr d c % size = 0

/-- sat40 and sat32 of R182. -/
def limit40 (v : Int) : Int := max (-2 ^ 39) (min (2 ^ 39 - 1) v)
def limit32 (v : Int) : Int := max (-2 ^ 31) (min (2 ^ 31 - 1) v)
/-- The device after an instruction that writes its accumulator, limited to 40 bits. -/
def rkAccumulates (d : Dev) (c : CoreId) (v : Int) : Dev :=
  rkThen d c fun b => { b.setAcc (rkAccNo d c) (BitVec.ofInt 40 (limit40 v)) with pc := b.pc + 4, sat := b.sat || limit40 v != v }
def rkAcc (d : Dev) (c : CoreId) : Int := ((rkBankOf d c).acc (rkAccNo d c)).toInt
def rkProduct (d : Dev) (c : CoreId) : Int := ((rkA d c).truncate 16).toInt * ((rkX d c).truncate 16).toInt

/-! ### The slate engine -/

/-- The slate engine of a core is at a step of this opcode: its job, the job's descriptor and round, a cluster and a round that let it work, the
side vectors of an epilogue loaded, and a further step in the list (R102, R107, R115). -/
abbrev SlateAt (s : State) (c : CoreId) (op : Nat) (j : SlateJob) (x : Desc) (r : Round) : Prop :=
  s.dev.pins.clocks = true ∧ (s.dev.core c.toNat).slate.job = some j ∧ s.dev.desc? j.key = some x ∧ s.dev.round? j.round = some r ∧
  (x.stepAt j.pc).op = op ∧ s.dev.mayWork x = true ∧ s.dev.descOk j.key = true ∧ (j.isMat = false ∨ j.loaded = true) ∧
  j.pc + 1 < min 8 x.nSteps

/-- The device after a step that is not the last of its list: the positions written, the step counter advanced, and the events of R43 and
R112 counted in the descriptor. -/
def slateThen (d : Dev) (c : CoreId) (j : SlateJob) (dst : Nat) (writes : List (Nat × Word)) (sat lane : Nat) : Dev :=
  (d.updSlate c.toNat fun e => { e.put dst writes with job := some { j with pc := j.pc + 1 } }).updDesc j.key fun y =>
    { y with sat := y.sat || 0 < sat, nSat := y.nSat + sat, lane := y.lane || 0 < lane, nLane := y.nLane + lane }

/-- An elementwise step: each position of `ps` receives `f` of the operands that R105 pairs with it; each saturated element is one event. -/
def slateEach (d : Dev) (c : CoreId) (j : SlateJob) (x : Desc) (ps : List Nat) (f : Word → Word → Word → Word × Bool) : Dev :=
  let w := x.stepAt j.pc
  let v (slate p : Nat) : Word := (d.core c.toNat).slateAt slate p
  let pair (p : Nat) : Nat := if w.mode = 0 then p else if w.mode = 1 then 0 else if w.mode = 2 then p % 64 else 64 * (p / 64)
  let out := ps.map fun p => (p, f (v w.a p) (v w.b (pair p)) (v w.c (pair p)))
  slateThen d c j w.dst (out.map fun e => (e.1, e.2.1)) (out.filter fun e => e.2.2).length 0

/-- The positions of a binary or ternary step, and of a unary one, whose MODE 0b01 computes position 0 alone (R105). -/
def allPositions (x : Desc) : List Nat := List.range x.vl
def unaryPositions (x : Desc) (j : SlateJob) : List Nat := if (x.stepAt j.pc).mode = 1 then [0] else List.range x.vl

/-- An integer result limited to INT32, and whether that changed it (R109). -/
def intResult (i : Int) : Word × Bool := (BitVec.ofInt 32 (limit32 i), limit32 i != i)
/-- A floating result with one rounding (R108). -/
def floatResult (v : Val) : Word × Bool := (toFp32 v, false)
/-- Both elements of a packed position, each rounded once to the slate's 16-bit format (R108). -/
def packedResult (type : Nat) (f : Val → Val → Val → Val) (a b c : Word) : Word × Bool :=
  let fmt := if type = 2 then bf16 else fp16
  let lo (w : Word) : Val := decodeFloat fmt (w.toNat % 2 ^ 16)
  let hi (w : Word) : Val := decodeFloat fmt (w.toNat / 2 ^ 16)
  (BitVec.ofNat 32 (encodeFloat fmt (f (lo a) (lo b) (lo c)) + 2 ^ 16 * encodeFloat fmt (f (hi a) (hi b) (hi c))), false)

/-- The device on which a step works: the words that the checks of its slate reads corrected are counted (R117). -/
def slateChecked (d : Dev) (u : Upset) : Dev := d.bump 0x3050 2 u.corrected

/-- A step that reads slates and gives `t` of the device it works on; a word that its checks cannot correct fails the descriptor with
HW_UNCORRECTABLE, and the step writes nothing (R117). -/
abbrev StepGives (i : Upset → Instr) (s : State) (j : SlateJob) (t : Dev → Dev) : Prop :=
  (∀ u, u.failed = false → Gives (i u) s (t (slateChecked s.dev u)).settle) ∧
  (∀ u, u.failed = true → Gives (i u) s ((slateChecked s.dev u).failDesc j.key .hwUncorrectable).settle)

/-- A step whose row of R106 allows every type: its exact floating result and its exact integer result. -/
abbrev StepOfEveryType (s : State) (c : CoreId) (j : SlateJob) (x : Desc) (r : Round) (i : Upset → Instr) (op : Nat) (ps : List Nat)
    (f : Val → Val → Val → Val) (g : Int → Int → Int → Int) : Prop :=
  SlateAt s c op j x r →
    ((x.stepAt j.pc).type = 0 → StepGives i s j fun d => slateEach d c j x ps fun a b e => floatResult (f (ofFp32 a) (ofFp32 b) (ofFp32 e))) ∧
    ((x.stepAt j.pc).type = 1 → StepGives i s j fun d => slateEach d c j x ps fun a b e => intResult (g a.toInt b.toInt e.toInt)) ∧
    (2 ≤ (x.stepAt j.pc).type → StepGives i s j fun d => slateEach d c j x ps (packedResult (x.stepAt j.pc).type f))

/-- A step of one type. -/
abbrev StepOfType (s : State) (c : CoreId) (j : SlateJob) (x : Desc) (r : Round) (i : Upset → Instr) (op type : Nat) (ps : List Nat)
    (f : Word → Word → Word → Word × Bool) : Prop :=
  SlateAt s c op j x r → (x.stepAt j.pc).type = type → StepGives i s j fun d => slateEach d c j x ps f

/-! ### The load engine, the array and the beam -/

/-- A descriptor that the load engine of its core may begin: the core's oldest, checked, of this operation, its round running, its cluster
able to work, no halt asked for, not EMPTY (R96, R121, R172). -/
abbrev MayBegin (s : State) (stream : StreamId) (slot : SlotId) (op : Nat) (x : Desc) (r : Round) : Prop :=
  s.dev.pins.clocks = true ∧ s.dev.desc? (descKey stream slot) = some x ∧ s.dev.round? x.round = some r ∧ x.op = op ∧ x.stage = .ready ∧
  (s.dev.core x.core).loadQ.head? = some (descKey stream slot) ∧ (s.dev.core x.core).halt = 0 ∧ s.dev.mayWork x = true ∧ x.isEmpty = false

/-- A MATMUL that the engines of its core may work on: its descriptor, which has met no fault, and its round. -/
abbrev JobRuns (s : State) (j : MatJob) (x : Desc) (r : Round) : Prop :=
  s.dev.pins.clocks = true ∧ s.dev.desc? j.key = some x ∧ s.dev.round? j.round = some r ∧ s.dev.mayWork x = true ∧ s.dev.descOk j.key = true

/-- The MATMUL in the array of a core. -/
abbrev ArrayAt (s : State) (c : CoreId) (j : MatJob) (x : Desc) (r : Round) : Prop :=
  JobRuns s j x r ∧ (s.dev.core c.toNat).array.job = some j

/-- The MATMUL that the load side of a core serves: the one behind it, where there is one (R172). -/
abbrev LoadAt (s : State) (c : CoreId) (j : MatJob) (x : Desc) (r : Round) : Prop :=
  JobRuns s j x r ∧ (s.dev.core c.toNat).array.next.or (s.dev.core c.toNat).array.job = some j

/-- The MATMUL whose vectors are released: the one behind it once all of the first have left (R172). -/
abbrev ReleaseAt (s : State) (c : CoreId) (j : MatJob) (x : Desc) (r : Round) : Prop :=
  let a := (s.dev.core c.toNat).array
  JobRuns s j x r ∧ (if a.job.all MatJob.released then a.next else a.job) = some j

/-- The device once the checks of weights or feeder entries have counted what they corrected (R68), and those of a beam row (R77). -/
def weightsChecked (d : Dev) (u : Upset) : Dev := d.bump 0x3030 3 u.corrected
def beamChecked (d : Dev) (u : Upset) : Dev := d.bump 0x3040 4 u.corrected

/-! ### Writes of the dictionary and accesses of memory -/

/-- A write reaches the dictionary over this transport, which may write (R362, R371). -/
abbrev Reaches (s : State) (via : Transport) : Prop := s.dev.dictRuns via = true ∧ s.dev.rights via = 2

/-- A write is refused with an abort code: nothing changes, but over the mirror the code is kept in LastMirrorAbort (R359). -/
abbrev Refuses (i : Instr) (s : State) (via : Transport) (obj sub code : Nat) : Prop :=
  Gives i s (if via = .pcie then s.dev.mirrorAbort obj sub code else s.dev)

/-- The ids of open accesses lie below the next one. -/
abbrev FreshIds (d : Dev) : Prop := ∀ o ∈ d.accesses, o.id < d.nextAccess

/-- No link of the network has been removed and no probe is armed: every packet reaches its end, unseen (R233, R239). -/
abbrev NetworkWhole (d : Dev) : Prop := d.noc.health = [] ∧ d.objNat 0x7100 1 ≠ 1

/-- The function of an object is reached: it lies on die 0, or behind a network that carries what it is sent (R14). -/
abbrev ObjReached (d : Dev) (obj sub : Nat) : Prop := d.objDie obj sub = 0 ∨ NetworkWhole d

/-- An access of [a, a + n) is served at once from memory proper: no import, one populated range of memory, awake or trained, a network that
carries it, no word with an uncorrectable error (R18, R22, R23, R202, R219, R233, R246). -/
abbrev MemoryReady (d : Dev) (a n : Nat) : Prop :=
  d.imports = [] ∧ 0 < n ∧ NetworkWhole d ∧ d.sleeping? a n = none ∧ (∀ w ∈ wordsOf a n, d.badWords.contains w = false) ∧
  ((d.regionOfRange a n = .hbm ∧ d.hbm.trained = true ∧ d.hbmFailed a n = false) ∨ (∃ c, c < 16 ∧ d.regionOfRange a n = .scratch c) ∨
   (∃ c, c < 128 ∧ (d.regionOfRange a n = .tile c ∨ d.regionOfRange a n = .rk c)))

/-- A write of it lands: no declared input and no instruction bank that accepts no write (R147, R194). -/
abbrev MemoryWritable (d : Dev) (a n : Nat) : Prop := MemoryReady d a n ∧ d.protectors a n = [] ∧ d.bankBusy a n = false

/-- The command word of R301: its fields, from bit 127 down. -/
def commandWord (op : BitVec 4) (cmd : FabCmd) : BitVec 128 :=
  op ++ BitVec.ofBool cmd.rvalid ++ cmd.attempt ++ cmd.round ++ cmd.tag ++ cmd.lenm1 ++ cmd.rsvd ++ cmd.addr
/-- A command as it stands at a port: its word and its beats. -/
def fabCommand (op : BitVec 4) (cmd : FabCmd) : FabWord := { word := commandWord op cmd, beats := cmd.beats }

/-- A fabric port accepts a command: it works, holds fewer than 64, none with this tag, and the beats are there (R302). -/
abbrev PortAccepts (s : State) (c : CoreId) (cmd : FabCmd) (beats : Nat) : Prop :=
  s.dev.pins.clocks = true ∧ s.dev.portLive c.toNat = true ∧ (s.dev.core c.toNat).port.outstanding.length < 64 ∧
  (∀ o ∈ (s.dev.core c.toNat).port.outstanding, o.2.tag ≠ cmd.tag) ∧ cmd.beats.length = 64 * beats
/-- It accepts one without a round, whose unused bits are 0 (R302, R306). -/
abbrev PortTakes (s : State) (c : CoreId) (cmd : FabCmd) (beats : Nat) : Prop :=
  PortAccepts s c cmd beats ∧ cmd.rsvd = 0 ∧ cmd.rvalid = false

/-- What the port has answered after one more response (R303, R304). -/
def portAnswered (d : Dev) (c : CoreId) (op : BitVec 4) (cmd : FabCmd) (st : Status) (handle : BitVec 3) (result : BitVec 52) (beats : List Byte) :
    List FabWord :=
  (d.core c.toNat).port.responses ++ [{ word := responseWord op cmd.tag st handle result, beats := beats }]

/-- An on-chip packet of an operation reaches its target: it goes between two ports on its channel, nothing of its order is before it, its route
works and does not drain, and no probe is armed (R224, R226, R228, R232, R233, R239). -/
abbrev NocReaches (s : State) (k : NocPacket) (op : BitVec 6) : Prop :=
  s.dev.pins.clocks = true ∧ k.op = op ∧ nocOk k = true ∧ s.dev.nocFirst k = true ∧ s.dev.noc.draining = [] ∧ NetworkWhole s.dev

/-- The network once a packet of it has been taken from it. -/
def nocLeft (d : Dev) (k : NocPacket) : Dev := { d with noc := { d.noc with flight := d.noc.flight.erase k } }

/-- A Saeri packet of an operation for this node is served: no earlier request of its sender that it must follow is open (R133, R249, R285). -/
abbrev SaeriReaches (s : State) (k : SaeriPkt) (op : BitVec 6) : Prop :=
  s.dev.pins.clocks = true ∧ k.op = op ∧ k.dnode = s.dev.nodeId ∧ ∀ e ∈ s.dev.saeriBefore k, saeriFollows k e = false

end Sys2Proof.Machine
end

