-- ==== Sys2Proof/Certificates/Slice0/Obligations.lean ====
section
/-! DEFINITION. The statements for the provers: what the numbered rules of the manual say the commands and the machine do. -/

open Sys2Proof Sys2Proof.Machine

/-! ### The queue, and what every command does -/

/-- A step with a command at the front of the queue is that command's `exec` on the queue's rest. -/
def Obligations.StepRunsTheFrontCommand : Prop :=
  ∀ (s : State) (c : Instr) (rest : List Instr), s.pending = c :: rest → step s = exec c { s with pending := rest }

/-- On an empty queue a step is one cycle of the core clock, which counts from device reset while the clocks run and not without them
(R125, R371; that time passes when no command waits is the model's choice, log entry 3). A cycle moves the logic fabric, the counters, the ports
and the notices to peers, and may bring errors; memory, objects, flags, descriptors, streams, rounds and pins are as before. -/
def Obligations.EmptyQueueStepIsOneCycle : Prop :=
  ∀ s : State, s.pending = [] →
    ∃ t, step s = .next t ∧ t.pending = [] ∧ t.fuses = s.fuses ∧
      t.dev.cycles = (if s.dev.pins.clocks then s.dev.cycles + 1 else s.dev.cycles) ∧ t.dev.mem = s.dev.mem ∧ t.dev.objs = s.dev.objs ∧
      t.dev.flags = s.dev.flags ∧ t.dev.descs = s.dev.descs ∧ t.dev.streams = s.dev.streams ∧ t.dev.rounds = s.dev.rounds ∧ t.dev.pins = s.dev.pins ∧
      (s.dev.pins.clocks = false → t = s)

/-- Every command takes a next state and leaves the queue as it is: the DX8 has no fault and the model refuses nothing; a command that is not well
formed changes nothing. -/
def Obligations.EveryCommandAnswersANextState : Prop :=
  ∀ (i : Instr) (s : State), (∃ t, exec i s = .next t ∧ t.pending = s.pending) ∧ (i.wf = false → Ignored i s)

/-- A security fuse once blown stays blown, and an eFuse key once programmed stays the same, at every step (R323, R324). -/
def Obligations.FusesArePermanent : Prop :=
  ∀ s t : State, step s = .next t →
    (∀ b : Nat, s.fuses.security.getLsbD b = true → t.fuses.security.getLsbD b = true) ∧
    (∀ k, s.fuses.efuseKey = some k → t.fuses.efuseKey = some k)

/-! ### The Reckoner (R175 to R198) -/

/-- The three-register instructions of R181, and EXPF and EXPB.
The immediate instructions of R181.
NORM counts the bits below bit 31 that equal it, shifts the value left by that count into rd, and then writes the count to rc
(R181, R182; that rc is written last where both name one register is the model's choice, log entry 14). -/
def Obligations.ReckonerResults : Prop :=
  (∀ (s : State) (c : CoreId),
    let d := rkFetched s c; let a := rkA d c; let b := rkX d c
    (RkIssues s c .add → Gives (.add c) s (rkWrites d c (a + b))) ∧
    (RkIssues s c .sub → Gives (.sub c) s (rkWrites d c (a - b))) ∧
    (RkIssues s c .and → Gives (.and c) s (rkWrites d c (a &&& b))) ∧
    (RkIssues s c .or → Gives (.or c) s (rkWrites d c (a ||| b))) ∧
    (RkIssues s c .xor → Gives (.xor c) s (rkWrites d c (a ^^^ b))) ∧
    (RkIssues s c .sll → Gives (.sll c) s (rkWrites d c (a <<< (b.toNat % 32)))) ∧
    (RkIssues s c .srl → Gives (.srl c) s (rkWrites d c (a >>> (b.toNat % 32)))) ∧
    (RkIssues s c .sra → Gives (.sra c) s (rkWrites d c (BitVec.ofInt 32 (a.toInt / 2 ^ (b.toNat % 32))))) ∧
    (RkIssues s c .slt → Gives (.slt c) s (rkWrites d c (if a.toInt < b.toInt then 1 else 0))) ∧
    (RkIssues s c .sltu → Gives (.sltu c) s (rkWrites d c (if a.toNat < b.toNat then 1 else 0))) ∧
    (RkIssues s c .mul → Gives (.mul c) s (rkWrites d c (BitVec.ofNat 32 (a.toNat * b.toNat)))) ∧
    (RkIssues s c .mulhs → Gives (.mulhs c) s (rkWrites d c (BitVec.ofInt 32 (a.toInt * b.toInt / 2 ^ 32)))) ∧
    (RkIssues s c .mulhu → Gives (.mulhu c) s (rkWrites d c (BitVec.ofNat 32 (a.toNat * b.toNat / 2 ^ 32)))) ∧
    (RkIssues s c .min → Gives (.min c) s (rkWrites d c (BitVec.ofInt 32 (min a.toInt b.toInt)))) ∧
    (RkIssues s c .max → Gives (.max c) s (rkWrites d c (BitVec.ofInt 32 (max a.toInt b.toInt)))) ∧
    (RkIssues s c .expf → Gives (.expf c) s (rkWrites d c (BitVec.ofNat 32 (a.toNat / 2 ^ 23 % 256) - 127))) ∧
    (RkIssues s c .expb → Gives (.expb c) s (rkWrites d c (BitVec.ofNat 32 (a.toNat / 2 ^ 7 % 256) - 127)))) ∧
  (∀ (s : State) (c : CoreId),
    let d := rkFetched s c; let a := rkA d c; let i := rkSext d c; let u := rkZext d c
    (RkIssues s c .addi → Gives (.addi c) s (rkWrites d c (a + i))) ∧
    (RkIssues s c .slti → Gives (.slti c) s (rkWrites d c (if a.toInt < i.toInt then 1 else 0))) ∧
    (RkIssues s c .sltiu → Gives (.sltiu c) s (rkWrites d c (if a.toNat < i.toNat then 1 else 0))) ∧
    (RkIssues s c .andi → Gives (.andi c) s (rkWrites d c (a &&& u))) ∧
    (RkIssues s c .ori → Gives (.ori c) s (rkWrites d c (a ||| u))) ∧
    (RkIssues s c .xori → Gives (.xori c) s (rkWrites d c (a ^^^ u))) ∧
    (RkIssues s c .lui → Gives (.lui c) s (rkWrites d c (u <<< 16))) ∧
    (RkIssues s c .slli → Gives (.slli c) s (rkWrites d c (a <<< (u.toNat % 32)))) ∧
    (RkIssues s c .srli → Gives (.srli c) s (rkWrites d c (a >>> (u.toNat % 32)))) ∧
    (RkIssues s c .srai → Gives (.srai c) s (rkWrites d c (BitVec.ofInt 32 (a.toInt / 2 ^ (u.toNat % 32)))))) ∧
  (∀ (s : State) (c : CoreId), RkIssues s c .norm → let d := rkFetched s c
    ∃ n : Nat, n ≤ 31 ∧
      (∀ k, k < n → (rkA d c).getLsbD (30 - k) = (rkA d c).msb) ∧
      (n < 31 → (rkA d c).getLsbD (30 - n) ≠ (rkA d c).msb) ∧
      Gives (.norm c) s (rkThen d c fun b =>
        { (b.set (rkFirst d c) (rkA d c <<< n)).set ((rkWordOf d c).toNat / 2 ^ 6 % 32) (BitVec.ofNat 32 n) with pc := b.pc + 4 }))

/-- What a register result leaves unchanged: g0 stays 0, every other name of the bank, its accumulators, ROT and SAT, the other bank,
the rest of the core, every other core and all else of the device (R175, R176, R182).
A register value before and after ROT advances: the value named g16 + i is named g16 + i − 1 afterwards, the value named g16 is
named g31, and g0 to g15 keep theirs (R176).
A fetch counts at 0x3081.04 the errors that it corrects in the instruction word, and changes nothing else (R197). -/
def Obligations.ReckonerResultFrame : Prop :=
  (∀ (d : Dev) (c : CoreId) (v : Word),
    let t := rkWrites d c v; let b := rkBankOf d c; let b' := rkBankOf t c
    let k := (d.core c.toNat).rk; let k' := (t.core c.toNat).rk
    b'.get (rkFirst d c) = (if rkFirst d c = 0 then 0 else v) ∧
    (∀ r, r < 32 → r ≠ rkFirst d c → b'.get r = b.get r) ∧
    b'.pc = b.pc + 4 ∧ b'.a0 = b.a0 ∧ b'.a1 = b.a1 ∧ b'.rot = b.rot ∧ b'.sat = b.sat ∧
    (if k.inShadow then k'.main = k.main else k'.shadow = k.shadow) ∧
    k'.inShadow = k.inShadow ∧ k'.mode = k.mode ∧ k'.waiting = k.waiting ∧
    t.core c.toNat = { d.core c.toNat with rk := k' } ∧
    (∀ n, n ≠ c.toNat → t.core n = d.core n) ∧ t = { d with cores := t.cores }) ∧
  (∀ b : Bank, b.get 0 = 0 ∧ (∀ v, b.set 0 v = b) ∧
    (∀ i v, i < 16 → b.get (16 + i) = tabGet 0 b.regs (16 + (i + b.rot.toNat) % 16) ∧
      b.set (16 + i) v = { b with regs := tabSet b.regs (16 + (i + b.rot.toNat) % 16) v }) ∧
    let b' : Bank := { b with rot := b.rot + 1 }
    (∀ i, 1 ≤ i → i < 16 → b'.get (16 + i - 1) = b.get (16 + i)) ∧ b'.get 31 = b.get 16 ∧ (∀ r, r < 16 → b'.get r = b.get r)) ∧
  (∀ (s : State) (c : CoreId), (s.dev.core c.toNat).rk.bank.pc.toNat ≤ 0x3FFC →
    let d := s.dev; let t := rkFetched s c; let ws := wordsOf ((d.core c.toNat).rk.ibase c.toNat + (rkBankOf d c).pc.toNat) 4
    t = { d with latent := t.latent, counters := t.counters } ∧ t.latent = (d.latent.filter fun w => !ws.contains w) ∧
    t.count 0x3081 4 = (d.count 0x3081 4 + (d.latent.filter fun w => ws.contains w).length) % 2 ^ 64 ∧
    (∀ i k, okey i k ≠ okey 0x3081 4 → t.count i k = d.count i k))

/-- Loads and stores of data memory (R181, R183, R197). A store into a declared input writes nothing and fails the rounds that declared it (R147).
Loads and stores of the image of the descriptor in patch (R181, R183, R186). -/
def Obligations.ReckonerLoadsAndStores : Prop :=
  (∀ (s : State) (c : CoreId),
    let d := rkFetched s c; let at_ := rkBase + c.toNat * 0x40000 + rkAddr d c
    let store (i : Instr) (op : RkOp) (size : Nat) : Prop := RkIssues s c op → RkData d c size →
      (∀ owners, d.protectors at_ size = owners → owners ≠ [] → Gives i s (rkNext (d.failInputs owners) c)) ∧
      (d.protectors at_ size = [] → RkSound d c → Gives i s (rkStores d c size))
    (RkIssues s c .lw → RkData d c 4 → RkSound d c → Gives (.lw c) s (rkLoads d c 4 (BitVec.ofNat 32 (leNat (rkBytes d c 4))))) ∧
    (RkIssues s c .lh → RkData d c 2 → RkSound d c →
      Gives (.lh c) s (rkLoads d c 2 ((BitVec.ofNat 16 (leNat (rkBytes d c 2))).signExtend 32))) ∧
    (RkIssues s c .lhu → RkData d c 2 → RkSound d c → Gives (.lhu c) s (rkLoads d c 2 (BitVec.ofNat 32 (leNat (rkBytes d c 2))))) ∧
    (RkIssues s c .lb → RkData d c 1 → RkSound d c →
      Gives (.lb c) s (rkLoads d c 1 ((BitVec.ofNat 8 (leNat (rkBytes d c 1))).signExtend 32))) ∧
    (RkIssues s c .lbu → RkData d c 1 → RkSound d c → Gives (.lbu c) s (rkLoads d c 1 (BitVec.ofNat 32 (leNat (rkBytes d c 1))))) ∧
    store (.sw c) .sw 4 ∧ store (.sh c) .sh 2 ∧ store (.sb c) .sb 1) ∧
  (∀ (s : State) (c : CoreId) (x : Desc),
    let d := rkFetched s c; let a := rkAddr d c
    (RkIssues s c .dlw → RkPatch d c x 4 → Gives (.dlw c) s (rkWrites d c (BitVec.ofNat 32 (field x.image a 4)))) ∧
    (RkIssues s c .dlb → RkPatch d c x 1 → Gives (.dlb c) s (rkWrites d c (BitVec.ofNat 32 (field x.image a 1)))) ∧
    (RkIssues s c .dsw → RkPatch d c x 4 →
      Gives (.dsw c) s (rkNext (d.updDesc x.key fun y => { y with image := patchBytes y.image a (leBytes 4 (rkD d c).toNat) }) c)) ∧
    (RkIssues s c .dsb → RkPatch d c x 1 →
      Gives (.dsb c) s (rkNext (d.updDesc x.key fun y => { y with image := patchBytes y.image a (leBytes 1 (rkD d c).toNat) }) c)))

/-- Branches, LOOP and jumps (R181): a branch that is not taken goes on, one that is taken to a target that R183 allows goes there. LOOP
lowers the register, advances ROT and branches while the result is not 0. -/
def Obligations.ReckonerControlTransfers : Prop :=
  ∀ (s : State) (c : CoreId),
    let d := rkFetched s c; let l := rkD d c; let r := rkA d c
    let goes (i : Instr) (op : RkOp) (taken : Prop) : Prop :=
      RkIssues s c op → (taken → RkTarget (rkOffset d c) → Gives i s (rkGoes d c (rkOffset d c))) ∧ (¬taken → Gives i s (rkNext d c))
    let turned (b : Bank) : Bank := { b.set (rkFirst d c) (l - 1) with rot := b.rot + 1 }
    goes (.beq c) .beq (l = r) ∧ goes (.bne c) .bne (l ≠ r) ∧
    goes (.blt c) .blt (l.toInt < r.toInt) ∧ goes (.bge c) .bge (r.toInt ≤ l.toInt) ∧
    goes (.bltu c) .bltu (l.toNat < r.toNat) ∧ goes (.bgeu c) .bgeu (r.toNat ≤ l.toNat) ∧
    (RkIssues s c .loop →
      (l ≠ 1 → RkTarget (rkOffset d c) → Gives (.loop c) s (rkThen d c fun b => { turned b with pc := rkOffset d c })) ∧
      (l = 1 → Gives (.loop c) s (rkThen d c fun b => { turned b with pc := b.pc + 4 }))) ∧
    (RkIssues s c .jal → RkTarget (rkOffset d c) →
      Gives (.jal c) s (rkThen d c fun b => { b.set (rkFirst d c) (b.pc + 4) with pc := rkOffset d c })) ∧
    (RkIssues s c .jalr → RkTarget (r + rkSext d c) →
      Gives (.jalr c) s (rkThen d c fun b => { b.set (rkFirst d c) (b.pc + 4) with pc := r + rkSext d c }))

/-- The accumulator instructions: sat40, sat32 and SAT of R181 and R182. The value that RND delivers lies nearest to aA / 2^SH, a tie
going to the even one (R5). -/
def Obligations.ReckonerAccumulators : Prop :=
  ∀ (s : State) (c : CoreId),
    let d := rkFetched s c; let n := rkAccNo d c
    (RkIssues s c .mac → Gives (.mac c) s (rkAccumulates d c (rkAcc d c + rkProduct d c))) ∧
    (RkIssues s c .msu → Gives (.msu c) s (rkAccumulates d c (rkAcc d c - rkProduct d c))) ∧
    (RkIssues s c .mta → Gives (.mta c) s (rkAccumulates d c ((rkA d c).toInt * 2 ^ rkSh d c))) ∧
    (RkIssues s c .rnd → ∃ q : Int,
      |rkAcc d c - q * 2 ^ rkSh d c| * 2 ≤ 2 ^ rkSh d c ∧ (|rkAcc d c - q * 2 ^ rkSh d c| * 2 = 2 ^ rkSh d c → q % 2 = 0) ∧
      Gives (.rnd c) s (rkThen d c fun b =>
        { b.set (rkFirst d c) (BitVec.ofInt 32 (limit32 q)) with pc := b.pc + 4, sat := b.sat || limit32 q != q })) ∧
    (RkIssues s c .ahi → Gives (.ahi c) s (rkWrites d c (BitVec.ofInt 32 (rkAcc d c / 2 ^ 32)))) ∧
    (RkIssues s c .alo → Gives (.alo c) s (rkWrites d c (((rkBankOf d c).acc n).truncate 32)))

/-- WAIT, PREL, and the special registers (R178, R179, R181, R189). -/
def Obligations.ReckonerSystemInstructions : Prop :=
  ∀ (s : State) (c : CoreId),
    let d := rkFetched s c; let n := c.toNat; let k := (d.core n).rk; let sr := (rkWordOf d c).toNat / 2 ^ 11 % 32
    (RkIssues s c .wait → k.inShadow = false →
      Gives (.wait c) s (d.updRk n fun k => { k with main := { k.main with pc := k.main.pc + 4 }, waiting := true })) ∧
    (RkIssues s c .prel → k.inShadow = true → ∀ q rest, (d.core n).patchQ = q :: rest →
      Gives (.prel c) s ((d.updCore n fun x =>
        { x with rk := { x.rk with shadow := { x.rk.shadow with pc := x.rk.shadow.pc + 4 }, inShadow := false }, patchQ := rest }).setStage q .frozen)) ∧
    (RkIssues s c .mfs →
      (sr = 0 → Gives (.mfs c) s (rkWrites d c (BitVec.ofNat 32
        ((rkBankOf d c).rot.toNat * 2 ^ 12 + (if k.inShadow then 2 ^ 11 else 0) + (if k.abank then 2 ^ 10 else 0) + (if (rkBankOf d c).sat then 1 else 0))))) ∧
      (sr = 1 → Gives (.mfs c) s (rkWrites d c (BitVec.ofNat 32 n))) ∧
      (sr = 2 → Gives (.mfs c) s (rkWrites d c (BitVec.ofNat 32 d.timestamp))) ∧
      (sr = 3 → k.inShadow = false → Gives (.mfs c) s (rkWrites d c 0)) ∧
      (sr = 4 → k.inShadow = false → Gives (.mfs c) s (rkWrites d c 0)) ∧
      (k.inShadow = true → ∀ x, (d.core n).patchQ.head?.bind d.desc? = some x →
        (sr = 3 → Gives (.mfs c) s (rkWrites d c (BitVec.ofNat 32 (x.key.stream * 2 ^ 16 + x.key.slot)))) ∧
        (sr = 4 → Gives (.mfs c) s (rkWrites d c x.round)))) ∧
    (RkIssues s c .mts →
      Gives (.mts c) s (rkThen d c fun b =>
        { b with rot := BitVec.ofNat 4 ((rkA d c).toNat / 2 ^ 12), sat := (rkA d c).getLsbD 0, pc := b.pc + 4 }))

/-- The causes of R185: the Reckoner stops in the main bank with the cause and the PC of the instruction; its banks, memory and run request stay.
Every descriptor queued for a patch, the one in patch first, completes with BAD_DESCRIPTOR. -/
def Obligations.ReckonerFaults : Prop :=
  ∀ (s : State) (c : CoreId) (i : Instr) (cause : Byte),
    let d := rkFetched s c; let k := (d.core c.toNat).rk; let l := rkD d c; let r := rkA d c
    let away (op : RkOp) (j : Instr) (taken : Prop) : Prop :=
      RkIssues s c op ∧ taken ∧ ¬RkTarget (rkOffset d c) ∧ i = j ∧ cause = 0x03
    let data (op : RkOp) (j : Instr) (size : Nat) : Prop :=
      RkIssues s c op ∧ i = j ∧
        ((¬RkData d c size ∧ cause = 0x02) ∨ (k.inShadow = false ∧ RkData d c size ∧ ¬RkSound d c ∧ cause = 0x10))
    let store (op : RkOp) (j : Instr) (size : Nat) : Prop := RkIssues s c op ∧ i = j ∧ ¬RkData d c size ∧ cause = 0x02
    let image (op : RkOp) (j : Instr) (size : Nat) : Prop :=
      RkIssues s c op ∧ i = j ∧
        ((k.inShadow = false ∧ cause = 0x05) ∨ (k.inShadow = true ∧ ¬(rkAddr d c + size ≤ 320 ∧ rkAddr d c % size = 0) ∧ cause = 0x04))
    ((RkFetches s c ∧ rkDecode (rkWordOf d c) = none ∧ i = .illegalEncoding c ∧ cause = 0x01) ∨
     data .lw (.lw c) 4 ∨ data .lh (.lh c) 2 ∨ data .lhu (.lhu c) 2 ∨ data .lb (.lb c) 1 ∨ data .lbu (.lbu c) 1 ∨
     store .sw (.sw c) 4 ∨ store .sh (.sh c) 2 ∨ store .sb (.sb c) 1 ∨
     image .dlw (.dlw c) 4 ∨ image .dlb (.dlb c) 1 ∨ image .dsw (.dsw c) 4 ∨ image .dsb (.dsb c) 1 ∨
     away .beq (.beq c) (l = r) ∨ away .bne (.bne c) (l ≠ r) ∨ away .blt (.blt c) (l.toInt < r.toInt) ∨ away .bge (.bge c) (r.toInt ≤ l.toInt) ∨
     away .bltu (.bltu c) (l.toNat < r.toNat) ∨ away .bgeu (.bgeu c) (r.toNat ≤ l.toNat) ∨ away .loop (.loop c) (l ≠ 1) ∨ away .jal (.jal c) True ∨
     (RkIssues s c .jalr ∧ ¬RkTarget (r + rkSext d c) ∧ i = .jalr c ∧ cause = 0x03) ∨
     (RkIssues s c .wait ∧ k.inShadow = true ∧ i = .wait c ∧ cause = 0x06) ∨ (RkIssues s c .prel ∧ k.inShadow = false ∧ i = .prel c ∧ cause = 0x06)) →
    Gives i s ((d.core c.toNat).patchQ.foldl (fun d q => d.failDesc q .badDescriptor)
      (d.updCore c.toNat fun x =>
        { x with patchQ := [], rk := { k with mode := .faulted, cause := cause, faultPc := (rkBankOf d c).pc.truncate 14, inShadow := false,
                                              waiting := false } }))

/-! ### The slate engine (R99 to R118) -/

/-- The steps of R106 that take every type (R105, R106, R108, R109), and the checks of what they read (R117). -/
def Obligations.SlateArithmeticSteps : Prop :=
  ∀ (s : State) (c : CoreId) (j : SlateJob) (x : Desc) (r : Round),
    let all := allPositions x; let one := unaryPositions x j
    let step := StepOfEveryType s c j x r
    step (.stepMov c) 0x01 one (fun a _ _ => a) (fun a _ _ => a) ∧
    step (.stepAdd c) 0x02 all (fun a b _ => addVal a b) (fun a b _ => a + b) ∧
    step (.stepSub c) 0x03 all (fun a b _ => addVal a (negVal b)) (fun a b _ => a - b) ∧
    step (.stepMul c) 0x04 all (fun a b _ => mulVal a b) (fun a b _ => a * b) ∧
    step (.stepFma c) 0x05 all (fun a b e => addVal (mulVal a b) e) (fun a b e => a * b + e) ∧
    step (.stepMax c) 0x06 all (fun a b _ => maxVal a b) (fun a b _ => max a b) ∧
    step (.stepMin c) 0x07 all (fun a b _ => minVal a b) (fun a b _ => min a b) ∧
    step (.stepAbs c) 0x08 one (fun a _ _ => absVal a) (fun a _ _ => |a|) ∧
    step (.stepNeg c) 0x09 one (fun a _ _ => negVal a) (fun a _ _ => -a) ∧
    step (.stepRelu c) 0x0A one (fun a _ _ => reluVal a) (fun a _ _ => max a 0) ∧
    step (.stepClamp c) 0x0B all (fun a b e => clampVal a b e) (fun a b e => min (max a b) e)

/-- The integer steps, the conversions and the transcendental steps of R106 (R109, R110), and the checks of what they read (R117). -/
def Obligations.SlateTypedSteps : Prop :=
  ∀ (s : State) (c : CoreId) (j : SlateJob) (x : Desc) (r : Round),
    let all := allPositions x; let one := unaryPositions x j
    let step := StepOfType s c j x r
    step (.stepShl c) 0x10 1 all (fun a b _ => intResult (a.toInt * 2 ^ (b.toNat % 32))) ∧
    step (.stepShr c) 0x11 1 all (fun a b _ => (BitVec.ofInt 32 (rneShiftInt a.toInt (b.toNat % 32)), false)) ∧
    step (.stepAnd c) 0x12 1 all (fun a b _ => (a &&& b, false)) ∧
    step (.stepOr c) 0x13 1 all (fun a b _ => (a ||| b, false)) ∧
    step (.stepXor c) 0x14 1 all (fun a b _ => (a ^^^ b, false)) ∧
    step (.stepCvtFi c) 0x18 1 one (fun a _ _ => match ofFp32 a with
      | .fin neg m e => intResult ((if neg then -1 else 1) * (roundInt m e : Int))
      | .inf neg => (if neg then 0x80000000 else 0x7FFFFFFF, true)
      | _ => (0, true)) ∧
    step (.stepCvtIf c) 0x19 0 one (fun a _ _ => floatResult (.int a.toInt)) ∧
    step (.stepExp2 c) 0x20 0 one (fun a _ _ => (exp2Fp32 a, false)) ∧
    step (.stepLog2 c) 0x21 0 one (fun a _ _ => (log2Fp32 a, false)) ∧
    step (.stepRcp c) 0x22 0 one (fun a _ _ => (rcpFp32 a, false)) ∧
    step (.stepRsq c) 0x23 0 one (fun a _ _ => (rsqFp32 a, false)) ∧
    step (.stepTanh c) 0x24 0 one (fun a _ _ => (tanhFp32 a, false))

/-- CVT.PN, CVT.WL, CVT.WH and PERM (R106, R112). Packed element e of a slate is the low half of position e / 2 for even e, else the high
half. An index of PERM at or beyond VL writes zero, sets LANE_RANGE and counts one. -/
def Obligations.SlateRearrangingSteps : Prop :=
  ∀ (s : State) (c : CoreId) (j : SlateJob) (x : Desc) (r : Round),
    let d := s.dev; let w := x.stepAt j.pc; let vl := x.vl
    let a (p : Nat) : Word := (d.core c.toNat).slateAt w.a p
    let b (p : Nat) : Word := (d.core c.toNat).slateAt w.b p
    let fmt := if w.type = 2 then bf16 else fp16
    let wide (e : Nat) : Word := toFp32 (decodeFloat fmt (if e % 2 = 0 then (a (e / 2)).toNat % 2 ^ 16 else (a (e / 2)).toNat / 2 ^ 16))
    let thin (e : Nat) : Nat := encodeFloat fmt (ofFp32 (if e < vl then a e else b (e - vl)))
    let writes (f : Nat → Word) (e : Dev) : Dev := slateThen e c j w.dst ((List.range vl).map fun p => (p, f p)) 0 0
    (SlateAt s c 0x1A j x r → StepGives (.stepCvtPn c) s j (writes fun p => BitVec.ofNat 32 (thin (2 * p) + 2 ^ 16 * thin (2 * p + 1)))) ∧
    (SlateAt s c 0x1B j x r → StepGives (.stepCvtWl c) s j (writes wide)) ∧
    (SlateAt s c 0x1C j x r → StepGives (.stepCvtWh c) s j (writes fun p => wide (vl + p))) ∧
    (SlateAt s c 0x38 j x r → w.type = 1 →
      let index (p : Nat) : Nat :=
        (b (if w.mode = 0 then p else if w.mode = 1 then 0 else if w.mode = 2 then p % 64 else 64 * (p / 64))).toNat
      StepGives (.stepPerm c) s j fun e =>
        slateThen e c j w.dst ((List.range vl).map fun p => (p, if index p < vl then a (index p) else 0)) 0
          ((List.range vl).filter fun p => decide (vl ≤ index p)).length)

/-- The reductions over ALL positions (R111): position 0 receives the result. INT32 RSUM is the exact sum limited once, RMAX and RMIN are the
greatest and the least value; FP32 RSUM over five positions is ((p0 + p1) + (p2 + p3)) + p4. -/
def Obligations.SlateReductionSteps : Prop :=
  ∀ (s : State) (c : CoreId) (j : SlateJob) (x : Desc) (r : Round),
    let d := s.dev; let w := x.stepAt j.pc
    let a (p : Nat) : Word := (d.core c.toNat).slateAt w.a p
    let l := (List.range x.vl).map fun p => (a p).toInt
    let f (p : Nat) : Word := canon 0 (a p)
    let writes (v : Word × Bool) (e : Dev) : Dev := slateThen e c j w.dst [(0, v.1)] (if v.2 then 1 else 0) 0
    w.mode = 0 →
    (SlateAt s c 0x30 j x r → w.type = 1 → StepGives (.stepRsum c) s j (writes (intResult l.sum))) ∧
    (SlateAt s c 0x31 j x r → w.type = 1 → ∀ m ∈ l, (∀ v ∈ l, v ≤ m) → StepGives (.stepRmax c) s j (writes (BitVec.ofInt 32 m, false))) ∧
    (SlateAt s c 0x32 j x r → w.type = 1 → ∀ m ∈ l, (∀ v ∈ l, m ≤ v) → StepGives (.stepRmin c) s j (writes (BitVec.ofInt 32 m, false))) ∧
    (SlateAt s c 0x30 j x r → w.type = 0 → x.vl = 5 →
      StepGives (.stepRsum c) s j (writes (addFp32 (addFp32 (addFp32 (f 0) (f 1)) (addFp32 (f 2) (f 3))) (f 4), false)))

/-- A slate position reads as it was written, and a write of other positions or of another slate leaves it (R99).
Checks that correct words are counted at 0x3050.02, one for each, and change no memory, core or descriptor (R117).
Where no core holds a MATMUL or a tile, nothing follows an engine command beyond its own step. -/
def Obligations.SlateFrame : Prop :=
  (∀ (d : Dev) (c : CoreId) (j : SlateJob) (dst : Nat) (l : List (Nat × Word)) (sat lane q p : Nat),
    (∀ e ∈ l, e.1 < 256) → p < 256 → (l.map Prod.fst).Nodup →
    ((slateThen d c j dst l sat lane).core c.toNat).slateAt q p =
      (if q = dst then ((l.find? fun e => e.1 = p).map Prod.snd).getD ((d.core c.toNat).slateAt q p) else (d.core c.toNat).slateAt q p) ∧
    (slateThen d c j dst l sat lane).mem = d.mem ∧ ∀ n, n ≠ c.toNat → (slateThen d c j dst l sat lane).core n = d.core n) ∧
  (∀ (d : Dev) (u : Upset), slateChecked d .clean = d ∧
    (u.corrected ≠ 0 → (slateChecked d u).count 0x3050 2 = (d.count 0x3050 2 + u.corrected) % 2 ^ 64) ∧
    slateChecked d u = { d with counters := (slateChecked d u).counters }) ∧
  (∀ d : Dev, (∀ e ∈ d.cores, (d.core e.1).jobs = [] ∧ (d.core e.1).chainOut = none) → d.settle = d)

/-- BEAMREAD reads the next unmasked row of the block into quarter q with the row's tag applied, and releases the row; with no row left it
writes nothing; it reads no slate, so that no check of one meets it (R85, R113, R117).
STORE in a SLATE hands VL values, or 2 × VL elements of a packed slate, to the store engine, which writes whole byte groups and blocks
at the cursor of the output walk (R30, R34, R114). In a MATMUL it stores the tile's columns of every row that the pass has read (R114); that a
row read after the STORE is stored nowhere is the model's choice, log entry 86. -/
def Obligations.SlateBeamreadAndStore : Prop :=
  (∀ (s : State) (c : CoreId) (j : SlateJob) (x : Desc) (r : Round) (q : MatJob) (u : Upset),
    let d := s.dev; let w := x.stepAt j.pc; let row (m : Nat) := q.rowOf j.blk m; let b (m : Nat) := (d.core c.toNat).beamRow (row m)
    SlateAt s c 0x3C j x r → (d.core c.toNat).job? j.key = some q →
    (q.rows[j.next]? = none → Gives (.stepBeamread c u) s (d.updSlateJob c.toNat fun k => { k with pc := k.pc + 1 }).settle) ∧
    (∀ m, q.rows[j.next]? = some m → q.rowReady r x j.blk m = true →
      let value (p : Nat) : Word × Bool :=
        let v := (b m).vals.getD p 0
        if (b m).isInt then
          (if w.type = 0 then floatResult (mulVal (ofFp32 (toFp32 (.int v.toInt))) (.fin false 1 (b m).tag)) else intResult (v.toInt * 2 ^ (b m).tag))
        else (if w.type = 0 then canon 0 v else v, false)
      Gives (.stepBeamread c u) s
        ((slateThen d c { j with next := j.next + 1, reads := j.reads ++ [(w.mode, j.next)] } w.dst
          ((List.range 64).map fun p => (64 * w.mode + p, (value p).1))
          ((List.range 64).filter fun p => (value p).2 && decide (p < q.width j.blk)).length 0).putRow c.toNat (row m) { b m with unread := false }).settle)) ∧
  (∀ (s : State) (c : CoreId) (j : SlateJob) (x : Desc) (r : Round) (u : Upset),
    let d := slateChecked s.dev u; let w := x.stepAt j.pc; let v := x.view 2
    let hand (d : Dev) (p : Nat) : List Val :=
      let u := (d.core c.toNat).slateAt w.a p
      if w.type = 0 then [ofFp32 u] else if w.type = 1 then [.int u.toInt]
      else let fmt := if w.type = 2 then bf16 else fp16; [decodeFloat fmt (u.toNat % 2 ^ 16), decodeFloat fmt (u.toNat / 2 ^ 16)]
    let vals := j.buffer ++ (List.range x.vl).flatMap (hand d)
    let whole := vals.length / v.unit * v.unit
    let d1 := (storeWalk v (r.settingNat 0x4020 1) (v.runs + 1) j.cursor (vals.take whole)).foldl (fun d p => d.store s.fuses x p) d
    SlateAt s c 0x3D j x r →
    (u.failed = true → Gives (.stepStore c u) s (d.failDesc j.key .hwUncorrectable).settle) ∧
    (u.failed = false → j.isMat = false → d1.descOk j.key = true → (d1.core c.toNat).slate.job = some j →
      Gives (.stepStore c u) s
        (d1.updSlateJob c.toNat fun q => { q with cursor := q.cursor + whole, buffer := vals.drop whole, pc := q.pc + 1 }).settle) ∧
    (∀ q, u.failed = false → j.isMat = true → (d.core c.toNat).job? j.key = some q →
      let columns (d : Dev) (e : Nat × Nat) : List Val := (List.range (q.width j.blk)).flatMap fun p => hand d (64 * e.1 + p)
      let place (e : Nat × Nat) : Int := v.batchAt (q.rows.getD e.2 0) 0 (j.blk / max 1 q.cols)
      let d2 := j.reads.foldl (fun d e => d.store s.fuses x (storeRun v (r.settingNat 0x4020 1) (place e) (64 * (j.blk % max 1 q.cols)) (columns d e))) d
      d2.descOk j.key = true →
      Gives (.stepStore c u) s (d2.updSlateJob c.toNat fun q => { q with pc := q.pc + 1 }).settle))

/-! ### The engines (R48 to R98, R121, R154 to R172) -/

/-- NOP has its waits, fences and signal only; MATMUL enters an empty array, or stands behind the one there, and an N that no view gives begins
open at 64 (R121, R158, R159, R172; that it then stands behind only one is the model's choice, log entry 55); HANDLE_TAKE moves the head handle
of the ring of the next consumer view into the descriptor, if it is of this round or committed (R121, R165).
COPY reads all of VIEW0, then writes VIEW2; SLATE loads its views and side vectors into fresh slates and starts its list at step 0
(R99, R121, R124, R157). The views name no handle ring here, and those of the COPY do not overlap. -/
def Obligations.EngineStarts : Prop :=
  (∀ (s : State) (stream : StreamId) (slot : SlotId) (x : Desc) (r : Round),
    let k := descKey stream slot; let d := s.dev; let a := (d.core x.core).array
    (d.pins.clocks = true → d.desc? k = some x → d.roundActive x.round = true → x.op = 0 → x.stage = .ready → d.descOk k = true →
      Gives (.nop stream slot) s (d.updDesc k fun y => { y with stage := .executed }).settle) ∧
    (MayBegin s stream slot 3 x r → a.next = none → d.ringAt (x.view 2).base = none → d.descOk k = true → ∀ n isOpen,
      (d.nOf x r = some n ∧ isOpen = false ∨ d.nOf x r = none ∧ n = 64 ∧ isOpen = true) →
      let j := newJob x n isOpen (if r.ownWeights x then (x.view 0).format else 0)
      let d1 := d.updDesc k fun y => { y with begun := true, stage := .running }
      (a.job = none → Gives (.matmul stream slot) s
        (d1.updArray x.core fun a => { ArrayEngine.reset with job := some j, waiting := a.waiting }).settle) ∧
      (a.job ≠ none → Gives (.matmul stream slot) s (d1.updArray x.core fun a => { a with next := some j, nextFeeders := [] }).settle)) ∧
    (∀ v n q h rest, d.pins.clocks = true → d.desc? k = some x → (x.stage = .ready ∨ x.stage = .running) →
      (d.core x.core).loadQ.head? = some k → ((d.core x.core).halt = 0 ∨ x.begun = true) → d.mayWork x = true → x.isEmpty = false →
      (d.untaken x).head? = some v → d.ringAt (x.view v).base = some (n, q) → (d.ring n q).queue = h :: rest →
      (h.round = x.round ∨ h.committed = true) →
      Gives (.handleTake stream slot) s
        (((d.updRing n q fun g => { queue := rest, held := g.held ++ [{ handle := h, holder := .consumer k x.round }] }).updDesc k fun y =>
          if v = 0 then { y with inBuf0 := some h.buf, begun := true } else { y with inBuf1 := some h.buf, begun := true })).settle)) ∧
  (∀ (s : State) (stream : StreamId) (slot : SlotId) (y : Desc) (r : Round),
    let k := descKey stream slot; let d := s.dev.updDesc k fun y => { y with begun := true }; let x : Desc := { y with begun := true }
    let v := x.view 2
    (∀ e, e < 3 → d.ringAt (x.view e).base = none) → d.descOk k = true →
    (MayBegin s stream slot 1 y r → ∀ vals d1, pullView s.fuses x.origin none (x.view 0) d = .ok vals d1 →
      let parts := storeWalk v (r.settingNat 0x4020 1) (v.runs + 1) 0 vals
      let writes := parts.flatMap Stored.writes
      (∀ e, e < 3 → d1.ringAt (x.view e).base = none) →
      anyOverlap ((x.view 0).stretches.filterMap (d1.placeOf none)) (writes.filterMap fun w => d1.placeOf none (w.1, w.2.length)) = false →
      Gives (.copy stream slot) s
        (((d1.leaveLoad x).store s.fuses x
          { writes := writes, sat := (parts.map Stored.sat).foldl (· + ·) 0, under := (parts.map Stored.under).foldl (· + ·) 0 }).executed k none).settle) ∧
    (MayBegin s stream slot 2 y r → (d.core x.core).slate.job = none → d.epilogues x.core = [] → ∀ ins sides d1 d2,
      pullInputs s.fuses x d = .ok ins d1 → pullSides s.fuses x 0 x.vl d1 = .ok sides d2 →
      let d3 := (d2.leaveLoad x).freshSlates x.core (newSlateJob k x.round false)
      let d4 := ins.foldl (fun d e => d.updCore x.core fun c => { c with slate := c.slate.put e.1.slate (c.viewWords e.1 e.2) }) d3
      Gives (.slate stream slot) s ((sides.foldl (fun d e => d.updSlate x.core fun q => q.put e.1 e.2) d4).setStage k .running).settle))

/-- One bead row enters the shadow registers, with row 63 the tile is whole, is kept if the attempt uses it and goes on along the chain; a feeder
queue takes its next entry (R53, R54, R62, R82). The load side serves the MATMUL behind the one in the array, where there is one (R172). The reads
have answered; no whole tile waits in the shadow registers; a queue holds 16 entries.
A vector leaves the heads of all queues that it needs and enters the array with the tile it meets; where a head is missing a bubble is
counted at 0x3030.01; in a held cycle nothing moves (R52, R55, R56).
The words that a check corrects are counted at 0x3030.03; one that it cannot correct fails the descriptor with HW_UNCORRECTABLE (R68). -/
def Obligations.ArrayLoadsAndReleases : Prop :=
  (∀ (s : State) (c : CoreId) (j : MatJob) (x : Desc) (r : Round) (d1 : Dev) (u : Upset), LoadAt s c j x r →
    let d := s.dev; let n := c.toNat; let a := (d.core n).array; let d2 := weightsChecked d1 u
    (d.core n).loadQ.head? = some j.key →
    (∀ j1 cs, r.ownWeights x = true → (d.untaken x).contains 0 = false → j.loadSide (d.blockSettled x r j) = some j1 →
      (∀ t, a.shadow = some t → t.full = false) → d1.descOk j.key = true →
      pullBeads s.fuses x (d.bindOf x 0) j1 j1.loadBlk j1.loadTile j1.loadRow d = .ok cs d1 →
      let codes := (match a.shadow with | some t => if j1.loadRow = 0 then [] else t.codes | none => []) ++ cs
      let t : TileLoad := { key := j1.key, blk := j1.loadBlk, tile := j1.loadTile, oext := j1.width j1.loadBlk, full := false, codes := codes }
      (j1.loadRow ≠ 63 →
        (u.failed = true → Gives (.shadowRowLoad c u) s (d2.failDesc j.key .hwUncorrectable).settle) ∧
        (u.failed = false → Gives (.shadowRowLoad c u) s
          ((d2.putJob n { j1 with loadRow := j1.loadRow + 1 }).updArray n fun a => { a with shadow := some t }).settle)) ∧
      let out : ChainTile :=
        { hdr := { format := j1.wfmt, dclass := dclassOf j1.depth, kext := j1.kext j1.loadTile, oext := j1.width j1.loadBlk, rep := j1.repeating },
          chain := x.chain, round := x.round, ordinal := x.chainOrd, tile := j1.loadTile % 4096, codes := codes }
      (j1.loadRow = 63 → u.failed = false →
        let d3 := (d2.putJob n j1.tileTaken).updArray n fun a => { a with shadow := if j1.uses then some { t with full := true } else none }
        (r.passesOn x = false → Gives (.shadowRowLoad c u) s d3.settle) ∧
        (r.passesOn x = true → (d.core n).chainOut = none → Gives (.shadowRowLoad c u) s
          (d3.updCore n fun q => { q with chainOut := some out }).settle))) ∧
    (∀ (row : BitVec 6) es,
      let f := a.feeder j row.toNat; let g := j.feedNext row.toNat f.next; let v := max 1 j.rows.length; let t := g / v % max 1 j.tiles
      let shift := if j.isInt then attemptShift (j.attempt + if j.overflow then 1 else 0) else 0
      (d.untaken x).contains 1 = false → j.wfmt ≠ 0 → a.queued row.toNat < 16 → g < j.feedLimit →
      pullReduce s.fuses x.origin (d.bindOf x 1) (x.view 1) (j.batchOf (g / v / max 1 j.tiles)) (j.rows.getD (g % v) 0)
        (j.span t row.toNat).1 (j.span t row.toNat).2 d = .ok es d1 →
      Gives (.feederWrite c row) s (d1.updArray n fun a =>
        let e : Feeder := { next := g + 1, entries := f.entries ++ [(g, es.map fun e => shiftVal shift (elemVal j.afmt e))] }
        a.putFeeders j (tabSet (a.feedersOf j) row.toNat e)).settle)) ∧
  (∀ (s : State) (c : CoreId) (j : MatJob) (x : Desc) (r : Round) (u : Upset), ReleaseAt s c j x r →
    let d := s.dev; let n := c.toNat; let a := (d.core n).array; let d1 := weightsChecked d u
    let g := (j.blk * j.tiles + j.tile) * j.rows.length + j.vec
    (a.hold = true → Gives (.vectorRelease c u) s d.settle) ∧
    (a.hold = false → j.mayRelease = true → ∀ t switch, a.tileFor j = some (t, switch) →
      (a.heads j g = none → Gives (.vectorRelease c u) s (d.bump 0x3030 1 1).settle) ∧
      (∀ acts, a.heads j g = some acts → u.failed = true → Gives (.vectorRelease c u) s (d1.failDesc j.key .hwUncorrectable).settle) ∧
      (∀ acts, a.heads j g = some acts → u.failed = false →
        let j1 := if j.tile = 0 ∧ j.vec = 0 then { j with began := d1.cycles } else j
        let left (e : Nat × Feeder) : Nat × Feeder := if e.1 < j.rowsUsed j.tile then (e.1, { e.2 with entries := e.2.entries.drop 1 }) else e
        let v : VecSlot :=
          { key := j.key, blk := j.blk, tile := j.tile, m := j.rows.getD j.vec 0, drop := false, oext := t.oext, acts := acts,
            weights := t.codes.map (elemVal j.wfmt) }
        Gives (.vectorRelease c u) s ((d1.putJob n j1.nextVec).updArray n fun b =>
          ({ b with active := some t, shadow := if switch then none else b.shadow, flight := b.flight ++ [v] }).putFeeders j
            ((a.feedersOf j).map left)).settle)))

/-- The oldest vector reaches the beam (R73 to R80): an FP32 column below the tile's extent receives its rod's sum, added to what stands
there unless the first tile overwrites; an INT32 column receives the exact sum under the attempt's tag; a row is final with its last tile, and the
block with its last row (R86, R90), which sets RESCALED where it took a further attempt.
A sum outside INT32 discards the vectors under way and calls for a further attempt, or after the fourth fails the descriptor (R81, R82, R83, R87);
a vector that an overflow discarded writes nothing (R83); a reduction extent of zero writes +0 rows (R80). An INT32 rod sums exactly, and
overflows where a partial sum leaves INT32 (R81). The row that is read back is checked: corrected words are counted at 0x3040.04, one for each
(R77). -/
def Obligations.BeamWrites : Prop :=
  (∀ (s : State) (c : CoreId) (j : MatJob) (x : Desc) (r : Round) (u : Upset), ArrayAt s c j x r →
    let n := c.toNat; let a := (s.dev.core n).array
    let final (d : Dev) : Dev :=
      let e := d.updJob n j.key fun q => { q with finished := q.finished + 1, rowsFinal := 0, attempt := 1 }
      if j.attempt ≤ 1 then e else e.updDesc j.key fun y => { y with resc := true, nResc := y.nResc + 1 }
    (∀ v rest, a.flight = v :: rest → v.key = j.key → v.drop = true →
      Gives (.beamRowWrite c u) s (s.dev.updArray n fun a => { a with flight := rest }).settle) ∧
    (∀ v rest, a.flight = v :: rest → v.key = j.key → v.drop = false →
      let row := j.rowOf v.blk v.m; let w := (s.dev.core n).beamRow row
      j.rowFault w (decide (v.tile = 0)) = none → j.rowHeld w v.blk = false →
      let fresh : Bool := decide (v.tile = 0) && !j.accumulate
      let d := if fresh then s.dev else beamChecked s.dev u
      let rod (col : Nat) : Word :=
        (v.acts.zip (List.range v.acts.length)).foldl (fun t e => addFp32 t (toFp32 (mulVal (v.weights.getD (e.2 * v.oext + col) (.int 0)) e.1))) 0x80000000
      let total (col : Nat) : Int := (if fresh then 0 else (w.vals.getD col 0).toInt) + (rodInt v.oext col v.acts v.weights).1
      let fits (col : Nat) : Prop := (rodInt v.oext col v.acts v.weights).2 = false ∧ -2 ^ 31 ≤ total col ∧ total col < 2 ^ 31
      let entry (col : Nat) : Word :=
        let old := w.vals.getD col 0
        if v.oext ≤ col then old else if j.isInt then BitVec.ofInt 32 (total col) else if fresh then rod col else addFp32 old (rod col)
      let out : Dev := (d.putRow n row
        { isInt := j.isInt, tag := if j.isInt then attemptShift j.attempt else 0, vals := (List.range 64).map entry, owner := some j.round,
          unread := true, writer := some j.key, blk := v.blk }).updArray n fun a => { a with flight := rest, hold := false }
      (fresh = false → u.failed = true → Gives (.beamRowWrite c u) s (d.failDesc j.key .hwUncorrectable).settle) ∧
      ((fresh = true ∨ u.failed = false) → (j.isInt = true → ∀ col, col < v.oext → col < 64 → fits col) →
        (v.tile + 1 ≠ j.tiles → Gives (.beamRowWrite c u) s out.settle) ∧
        (v.tile + 1 = j.tiles → some v.m ≠ j.rows.getLast? →
          Gives (.beamRowWrite c u) s (out.updJob n j.key fun q => { q with rowsFinal := q.rowsFinal + 1 }).settle) ∧
        (v.tile + 1 = j.tiles → some v.m = j.rows.getLast? → Gives (.beamRowWrite c u) s (final out).settle)) ∧
      (∀ col, (fresh = true ∨ u.failed = false) → j.isInt = true → col < v.oext → col < 64 → ¬fits col →
        (j.attempt < 4 → ∃ e : Dev, Gives (.beamRowWrite c u) s e.settle ∧ e.mem = d.mem ∧
          (e.core n).array.job = some { j with
            overflow := true, blk := v.blk, tile := 0, vec := 0, useTile := 0
            loadTile := if x.chainEn then j.loadTile else 0, loadRow := if x.chainEn then j.loadRow else 0 } ∧
          (e.core n).array.flight = rest.map (fun q => { q with drop := true }) ∧ (e.core n).array.active = none ∧ (e.core n).array.feeders = [] ∧
          (e.core n).array.shadow = (if x.chainEn then a.shadow.filter fun t => !t.full else none)) ∧
        (4 ≤ j.attempt → ∃ e : Dev, Gives (.beamRowWrite c u) s (e.failDesc j.key .rescaleExhausted).settle ∧ e.mem = d.mem ∧ e.descs = d.descs))) ∧
    (a.flight = [] → j.k = 0 → j.accumulate = false → j.isInt = false → j.rows ≠ [] → j.blk < j.total →
      let row := j.rowOf j.blk (j.rows.getD j.vec 0); let w := (s.dev.core n).beamRow row
      j.rowFault w true = none → j.rowHeld w j.blk = false →
      let out := ((s.dev.putRow n row
        { isInt := false, tag := 0, vals := List.replicate 64 0, owner := some j.round, unread := true, writer := some j.key, blk := j.blk }).putJob n
          { j.nextVec with rowsFinal := j.vec + 1 }).updArray n fun a => { a with hold := false }
      (j.vec + 1 ≠ j.rows.length → Gives (.beamRowWrite c u) s out.settle) ∧
      (j.vec + 1 = j.rows.length → Gives (.beamRowWrite c u) s (final out).settle))) ∧
  (∀ (oext col : Nat) (acts weights : List Val) (as ws : List Int),
    acts = as.map Val.int → weights = ws.map Val.int → col < oext → oext * as.length ≤ ws.length →
    let terms := (List.range as.length).map fun k => ws.getD (k * oext + col) 0 * as.getD k 0
    (rodInt oext col acts weights).1 = terms.sum ∧
    ((rodInt oext col acts weights).2 = true ↔ ∃ k, k ≤ as.length ∧ ¬(-2 ^ 31 ≤ (terms.take k).sum ∧ (terms.take k).sum < 2 ^ 31)))

/-- The overflow repeat (R82 to R84): RESCALE_ATTEMPT_START in a drained array with tile 0 and every head at hand releases the first vector
of the next attempt and counts the cycles of the discarded one, its words checked as any release's (R68); REPEAT_PASS_SEND makes the head of a
chain send the block's tiles again, where it, another member here or a device downstream needs them (R262). -/
def Obligations.OverflowRepeats : Prop :=
  (∀ (s : State) (c : CoreId) (j : MatJob) (x : Desc) (r : Round) (u : Upset), ArrayAt s c j x r →
    let d := weightsChecked s.dev u; let n := c.toNat; let a := (d.core n).array
    j.overflow = true → a.flight = [] → j.tile = 0 → j.vec = 0 →
    let j1 : MatJob := { j with overflow := false, attempt := j.attempt + 1 }
    let left (e : Nat × Feeder) : Nat × Feeder := if e.1 < j.rowsUsed 0 then (e.1, { e.2 with entries := e.2.entries.drop 1 }) else e
    ∀ t acts, a.tileFor j1 = some (t, true) → a.heads j1 (j.blk * j.tiles * j.rows.length) = some acts → u.failed = false →
    Gives (.rescaleAttemptStart { core := c, upset := u }) s (((d.putJob n (MatJob.nextVec { j1 with began := d.cycles })).updArray n fun b =>
      ({ b with
        active := some t
        shadow := none
        flight := [{ key := j.key, blk := j.blk, tile := 0, m := j.rows.getD 0 0, drop := false, oext := t.oext, acts := acts,
                     weights := t.codes.map (elemVal j.wfmt) }] }).putFeeders j ((a.feedersOf j).map left)).bump 0x3040 2 (d.cycles - j.began)).settle) ∧
  (∀ (s : State) (c : CoreId) (j : MatJob) (x : Desc) (r : Round), LoadAt s c j x r →
    x.chainEn = true → r.ownWeights x = true → j.mayRepeat = true → 0 < j.tiles → j.tiles ≤ j.loadTile →
    ((j.overflow = true ∧ j.blk = j.loadBlk ∧ j.useTile = 0) ∨ s.dev.memberRepeats x r j.loadBlk = true ∨ (j.loadBlk, j.pass, true) ∈ j.asks) →
    Gives (.repeatPassSend c) s (s.dev.putJob c.toNat { j with loadTile := 0, loadRow := 0, repeating := true, pass := j.pass + 1 }).settle)

/-- A chain member takes the tile that its predecessor offers, keeps it if its attempt uses it and passes it on, or refuses a header that its
descriptor does not agree with (R62 to R65). The words that the link's check corrects are counted (R68). -/
def Obligations.ChainTiles : Prop :=
  ∀ (s : State) (c : CoreId) (j : MatJob) (x : Desc) (r : Round) (t : ChainTile) (j1 : MatJob) (u : Upset), LoadAt s c j x r →
    let d := s.dev; let n := c.toNat; let j0 := if j.wfmt = 0 then { j with wfmt := t.hdr.format } else j
    let d1 := weightsChecked (d.takeOffered n x r t) u
    x.chainEn = true → r.ownWeights x = false → d.offered n x r = some t → (j0.memberSide t.hdr.rep).map (fun q => q.headerN t.hdr) = some j1 →
    ((j1.badHeader x t.hdr = true ∨ j1.badEpilogue x = true) → Gives (.chainTileArrive c u) s (d.failDesc j.key .badDescriptor).settle) ∧
    (j1.badHeader x t.hdr = false → j1.badEpilogue x = false → (j1.uses = true → (d.core n).array.shadow = none) →
      (r.passesOn x = true → (d.core n).chainOut = none) → d1.descOk j.key = true →
      let keep (q : Dev) : Option TileLoad := if j1.uses then
        some { key := j1.key, blk := j1.loadBlk, tile := j1.loadTile, oext := t.hdr.oext, full := true, codes := t.codes } else (q.core n).array.shadow
      let out : ChainTile :=
        { hdr := t.hdr, chain := x.chain, round := x.round, ordinal := x.chainOrd, tile := j1.loadTile % 4096, codes := t.codes }
      let taken := (d1.putJob n j1.tileTaken).updArray n fun a => { a with shadow := keep d1 }
      (u.failed = true → Gives (.chainTileArrive c u) s (d1.failDesc j.key .hwUncorrectable).settle) ∧
      (u.failed = false → r.passesOn x = false → Gives (.chainTileArrive c u) s taken.settle) ∧
      (u.failed = false → r.passesOn x = true → Gives (.chainTileArrive c u) s
        (taken.updCore n fun q => { q with chainOut := some out }).settle))

/-- A member of a carry group sends its next complete row to the position above it and releases the row; a partial that is due is added as
own + received, entry by entry, in FP32, or in INT32 under the higher of the two tags, its row then holding the sum (R90, R91); the row that is read
is checked (R77), and results that wait for the beam's port are held for a cycle (R76).
The shape of the tree: position i receives from i + 2^ℓ for every level ℓ at which i is a multiple of 2^(ℓ + 1) and that position
exists; every position but 0 sends to exactly one, a lower one, which waits for it (R90). -/
def Obligations.CarryTree : Prop :=
  (∀ (s : State) (c : CoreId) (j : MatJob) (x : Desc) (r : Round),
    let d := s.dev; let n := c.toNat
    d.pins.clocks = true → d.ctxs n = [(j, x, r)] →
    (∀ blk m t, nextSend (j, x, r) = some (blk, m) → (r.carryOf x.carry)[parentOf r.unordered ((r.carryPos x).getD 0)]? = some t →
      let row := j.rowOf blk m; let b := (d.core n).beamRow row
      Gives (.carrySend c) s (((d.putRow n row { b with unread := false }).updJob n j.key fun q => { q with sent := q.sent ++ [(blk, m)] }).nocSend
        { vc := 0, dest := endOfCore t, src := endOfCore n, op := 0x06, tag := 0, status := 0, lenm1 := 255, rslot := BitVec.ofNat 7 r.rslot, addr := 0,
          body := .carry (BitVec.ofNat 7 t)
            { group := x.carry, round := x.round, ordinal := x.carryOrd, pos := (r.carryPos x).getD 0, shape := (j.m, j.n, j.batch), blk := blk, row := m,
              isInt := b.isInt, tag := b.tag, mask := BitVec.ofNat 64 x.mask, vals := b.vals } }).settle) ∧
    (∀ m rest (u : Upset), (d.core n).carryIn = m :: rest → carryFor m (j, x, r) = true → carryBad m (j, x, r) = false → carryDue m (j, x, r) = true →
      d.descOk j.key = true → u.failed = false →
      let row := j.rowOf m.blk m.row; let b := (d.core n).beamRow row; let tag := if j.isInt then max b.tag m.tag else 0
      let exact (col : Nat) : Int := rneShiftInt (b.vals.getD col 0).toInt (tag - b.tag) + rneShiftInt (m.vals.getD col 0).toInt (tag - m.tag)
      let sum (col : Nat) : Word := if j.width m.blk ≤ col then b.vals.getD col 0
        else if j.isInt then (intResult (exact col)).1 else addFp32 (b.vals.getD col 0) (m.vals.getD col 0)
      let events := ((List.range 64).filter fun col => j.isInt && decide (col < j.width m.blk) && (intResult (exact col)).2).length
      let d1 := (((beamChecked (d.updCore n fun q => { q with carryIn := rest }) u).putRow n row
        { b with tag := tag, vals := (List.range 64).map sum }).updJob n j.key fun q => { q with got := q.got ++ [(m.blk, m.row, m.pos)] }).updDesc j.key
          fun y => { y with sat := y.sat || 0 < events, nSat := y.nSat + events }
      ((d.core n).array.flight = [] → Gives (.carryPartialArrive c u) s d1.settle) ∧
      ((d.core n).array.flight ≠ [] →
        Gives (.carryPartialArrive c u) s ((d1.bump 0x3030 2 1).updArray n fun a => { a with hold := true }).settle))) ∧
  (∀ (m i : Nat), m ≤ 4095 → i < m →
    (∀ p, p ∈ duesOf false m i ↔ p < m ∧ ∃ l, l < 12 ∧ i % 2 ^ (l + 1) = 0 ∧ p = i + 2 ^ l) ∧
    (0 < i → parentOf false i < i ∧ i ∈ duesOf false m (parentOf false i)) ∧
    (∀ q, q < m → i ∈ duesOf false m q → q = parentOf false i))

/-! ### The Sequencer (R119 to R153) -/

/-- The flags and the stream control blocks (R125, R126, R127, R307): a flag adds modulo 2^32, a doorbell sets TAIL modulo the ring size, an
accepted enable clears STATUS and, with every slot released, sets FETCH, RELEASE and TAIL to 0; a refused one sets STATUS to 0x12; a doorbell of a
stream that fabric logic feeds is dropped and reported with ADDRESS.
When an enable is refused (R127, R332): a SIZE that is 0, no power of two or above 4,096, a misaligned base, a ring not wholly in populated
space outside the Sequencer range and the mirror, or a device not in user mode. -/
def Obligations.SequencerRegisterWrites : Prop :=
  (∀ (s : State) (stream : StreamId) (flag : FlagId) (v : Word) (tail : BitVec 16), s.dev.pins.clocks = true →
    let d := s.dev; let n := stream.toNat; let x := d.stream n
    Gives (.flagAdd flag v) s { d with flags := tabSet d.flags flag.toNat (d.flag flag.toNat + v) } ∧
    Gives (.flagSet flag v) s { d with flags := tabSet d.flags flag.toNat v } ∧
    Gives (.streamDisable stream) s (d.updStream n fun x => { x with enable := false }) ∧
    (x.enable = false → d.enableBad x = true → Gives (.streamEnable stream) s (d.updStream n fun x => { x with status := 0x12 })) ∧
    (x.enable = false → d.enableBad x = false → x.release = x.fetch →
      Gives (.streamEnable stream) s (d.updStream n fun x =>
        { x with enable := true, status := 0, fetch := 0, release := 0, tail := 0, phase := true, freed := [], refetch := [], openWait := false,
                 remote := [], remoteStatus := none })) ∧
    (x.enable = false → d.enableBad x = false → x.release ≠ x.fetch →
      Gives (.streamEnable stream) s (d.updStream n fun x => { x with enable := true, status := 0 })) ∧
    (x.enable = true → Ignored (.streamEnable stream) s) ∧
    (d.fabricStream n = false → 0 < x.size.toNat →
      Gives (.doorbell stream tail) s (d.updStream n fun x => { x with tail := BitVec.ofNat 16 (tail.toNat % (16 * x.size.toNat)) })) ∧
    (d.fabricStream n = true → Gives (.doorbell stream tail) s { d with hostOut := d.hostOut ++ [{ status := .address, data := [] }] })) ∧
  (∀ (d : Dev) (x : Stream),
    d.enableBad x = true ↔
      d.cfg.state ≠ 5 ∨ x.size.toNat = 0 ∨ ¬(∃ k, x.size.toNat = 2 ^ k) ∨ 4096 < x.size.toNat ∨ x.ringBase.toNat % 128 ≠ 0 ∨
      x.cplBase.toNat % 16 ≠ 0 ∨ d.ringSpace x.ringBase.toNat (128 * (16 * x.size.toNat)) = false ∨
      d.ringSpace x.cplBase.toNat (16 * (16 * x.size.toNat)) = false)

/-- A wait holds a descriptor while its flag lies behind its threshold on the circle of 2^32, and it is issued when no wait holds it (R131,
R132). No slot of an aborted attempt is to be fetched again before it. -/
def Obligations.WaitsHoldIssue : Prop :=
  ∀ (s : State) (stream : StreamId) (x : Desc),
    let d := s.dev; let n := stream.toNat
    d.pins.clocks = true → d.oldestUnissued n = some x → d.roundActive x.round = true → d.awaitsRestart n x.key.slot = false →
    let holds (i : Nat) : Prop :=
      let w := x.word (5 + i)
      w / 2 ^ 63 % 2 = 1 ∧ 2 ^ 31 ≤ ((d.flag (w / 2 ^ 32 % 2 ^ 12)).toNat + 2 ^ 32 - w % 2 ^ 32) % 2 ^ 32
    ((∀ i, i < 4 → ¬holds i) → Gives (.descriptorIssue stream) s (d.updDesc x.key fun y => { y with stage := .issued })) ∧
    ((∃ i, i < 4 ∧ holds i) → Ignored (.descriptorIssue stream) s) ∧
    (∀ (f : FlagId) (v : Word), ∃ t, Gives (.flagAdd f v) s t ∧ (t.flag f.toNat).toNat = ((d.flag f.toNat).toNat + v.toNat) % 2 ^ 32 ∧
      ∀ g, g < 4096 → g ≠ f.toNat → t.flag g = d.flag g)

/-- DESCRIPTOR_FETCH reads the 128 bytes of the slot at FETCH, or of the oldest slot that a restart fetches again. Within a run the descriptor
enters the round's attempt, FETCH passes the slot and PHASE toggles on a wrap; outside a run a ROUND_OPEN whose record can be read opens its round
with the settings in force, and any other descriptor is recorded with BAD_DESCRIPTOR (R128, R141, R145, R355, R392, R427); a read that fails
outside a run stops the stream with its status (R426). -/
def Obligations.DescriptorFetches : Prop :=
  (∀ (s : State) (stream : StreamId) (b : List Byte) (d1 : Dev),
    let d := s.dev; let n := stream.toNat; let x := d.stream n; let slot := x.fetch.toNat
    let passes (y : Stream) : Stream :=
      { y with remote := [], remoteStatus := none, openWait := false, fetch := BitVec.ofNat 16 (y.wrap (y.fetch.toNat + 1)),
               phase := if y.wrap (y.fetch.toNat + 1) = 0 then !y.phase else y.phase }
    d.pins.clocks = true → x.enable = true → x.empty = false → x.refetch = [] → d.inFlight < 1024 →
    (d.descs.any fun q => q.key.stream == n && q.stage == .fetched && x.place q.key.slot < x.place slot && (d.firstWait q).isSome) = false →
    (∀ r m, x.run = some m → d.round? m = some r → r.active = true → fetchBytes s.fuses n (x.slotAddr slot) 128 d = .ok b d1 →
      let q := newDesc { stream := n, slot := slot } r.number r.attempt x.phase b
      q.isOpen = false → q.isCommit = false → q.roundField = r.number →
      Gives (.descriptorFetch stream) s
        (((d1.placeDesc q).updStream n passes).updRound r.number fun r =>
            { r with runs := r.runs.map fun u => if u.stream = n then { u with stuck := false } else u })) ∧
    (x.run = none → fetchBytes s.fuses n (x.slotAddr slot) 128 d = .ok b d1 →
      let m := BitVec.ofNat 32 (field b 4 4); let q := newDesc { stream := n, slot := slot } m 0 x.phase b
      (q.isOpen = false → Gives (.descriptorFetch stream) s (d1.orphan s.fuses n slot x.phase q)) ∧
      (∀ k w0 ins d2, q.isOpen = true → q.isCommit = false → d1.objNat 0x7100 1 ≠ 1 → d1.round? m = none → d1.freeRslot = some k →
        d1.rounds.length < 64 → d1.readRecord s.fuses n d1.objs q.rrec = .ok (w0, .ok ins) d2 →
        Gives (.descriptorFetch stream) s
          (((Dev.placeDesc { d2 with rounds := d2.rounds ++
              [newRound m k q.rrec d2.objs w0 ins { stream := n, first := slot, commitSlot := none, stuck := false }] } q).updStream n passes).updStream n
            fun y => { y with run := some m }))) ∧
    (∀ st, x.run = none → fetchBytes s.fuses n (x.slotAddr slot) 128 d = .fail st d1 →
      Gives (.descriptorFetch stream) s
        (d1.updStream n fun y => { y with enable := false, status := BitVec.ofNat 8 st.code, remote := [], remoteStatus := none }))) ∧
  (∀ (s : State) (stream : StreamId) (b : List Byte) (d1 : Dev) (e : Refetch) (rest : List Refetch) (r : Round),
    let d := s.dev; let n := stream.toNat; let x := d.stream n; let q := newDesc { stream := n, slot := e.slot } r.number r.attempt e.phase b
    d.pins.clocks = true → x.refetch = e :: rest → d.inFlight < 1024 →
    (d.descs.any fun q => q.key.stream == n && q.stage == .fetched && x.place q.key.slot < x.place e.slot && (d.firstWait q).isSome) = false →
    d.round? e.round = some r → r.active = true → (∀ u ∈ r.runs, ¬(u.stream = n ∧ u.first = e.slot)) →
    fetchBytes s.fuses n (x.slotAddr e.slot) 128 d = .ok b d1 → q.isOpen = false → q.isCommit = false → q.roundField = r.number →
    (d1.stream n).fetch.toNat ≠ e.slot →
    ∃ t, Gives (.descriptorFetch stream) s t ∧ t.rounds = (d1.updRound r.number id).rounds ∧ t.descs = (d1.placeDesc q).descs ∧
      t.stream n = { d1.stream n with remote := [], remoteStatus := none, openWait := false, refetch := (d1.stream n).refetch.drop 1 })

/-- A descriptor that is delivered without PATCH takes its 320-byte image, joins its core's load queue, unless it is a NOP, and is checked; one with
PATCH awaits its patch; a record that cannot be read fails it (R121, R136, R186, R188). A core asked to halt accepts none but a NOP (R96); a cluster
that is not in P0 is woken first (R374). -/
def Obligations.DescriptorDeliveries : Prop :=
  ∀ (s : State) (stream : StreamId) (x : Desc) (r : Round) (vs : List (List Byte)) (d1 : Dev),
    let d := s.dev
    d.pins.clocks = true → d.nextDelivery stream.toNat = some x → d.round? x.round = some r → x.stage = .issued →
    d.undelivered stream.toNat x.key.slot = false → r.active = true → d.fencesOk x = true →
    (d.awake x.core = false → Gives (.descriptorDelivery stream) s (d.requestWake (x.core / 8))) ∧
    (d.awake x.core = true → d.coreAccepts r x = false → Ignored (.descriptorDelivery stream) s) ∧
    (d.awake x.core = true → d.coreAccepts r x = true → pullAll ((List.range 3).map (pullRecord s.fuses x)) d = .ok vs d1 →
      let image := x.image ++ vs.flatten
      let d2 := (d1.number x).updDesc x.key fun q => { q with image := image, original := image, remote := [] }
      let d3 := if x.op = 0 then d2 else d2.updCore x.core fun c => { c with loadQ := c.loadQ ++ [x.key] }
      (x.isPatch = false → Gives (.descriptorDelivery stream) s (d3.checked r x.key)) ∧
      (x.isPatch = true → (d1.core x.core).rk.mode = .running →
        Gives (.descriptorDelivery stream) s ((d3.updCore x.core fun c => { c with patchQ := c.patchQ ++ [x.key] }).updDesc x.key fun q =>
          { q with stage := .patching })) ∧
      (x.isPatch = true → (d1.core x.core).rk.mode ≠ .running → Gives (.descriptorDelivery stream) s (d2.failDesc x.key .badDescriptor))) ∧
    (∀ st, d.awake x.core = true → d.coreAccepts r x = true → pullAll ((List.range 3).map (pullRecord s.fuses x)) d = .fail st d1 →
      Gives (.descriptorDelivery stream) s ((d1.number x).failDesc x.key st))

/-- A completion writes the record first, then pushes the producer's handle, then adds the signal's increment, which the round keeps for a
restart (R134, R137, R141, R164); a descriptor that has failed completes with its record alone; one whose signal reaches no node fails (R250).
The 16 bytes of a completion record, field by field (R141). -/
def Obligations.DescriptorCompletions : Prop :=
  (∀ (s : State) (stream : StreamId) (slot : SlotId) (x : Desc),
    let d := s.dev; let k : DescKey := { stream := stream.toNat, slot := slot.toNat }
    d.pins.clocks = true → d.desc? k = some x → x.stage = .executed → x.isCommit = false →
    (x.finalStatus.isSuccess = false →
      Gives (.descriptorComplete stream slot) s ((d.recordAs s.fuses x x.finalStatus).updDesc k fun y => { y with stage := .completed })) ∧
    (∀ st, d.mayComplete x = true → d.signalFails x = some st → Gives (.descriptorComplete stream slot) s (d.failDesc k st)) ∧
    (d.mayComplete x = true → d.signalFails x = none → x.finalStatus.isSuccess = true →
      let d2 := (d.recordAs s.fuses x x.finalStatus).pushHandle x
      ((x.signals = false ∨ x.atCommit = true) →
        Gives (.descriptorComplete stream slot) s (d2.updDesc k fun y => { y with stage := .completed })) ∧
      (x.signals = true → x.atCommit = false →
        Gives (.descriptorComplete stream slot) s
          (((d2.signalAdd x.incr false (.signal k x.round x.attempt)).updRound x.round fun r =>
            { r with increments := r.increments ++ [x.incr] }).updDesc k fun y => { y with stage := .completed })))) ∧
  (∀ (st : Status) (sticky attempt : Nat) (phase : Bool) (round : RoundNo) (time : Nat),
    sticky < 16 → time < 2 ^ 64 →
    let b := recordBytes st sticky attempt phase round time
    b.length = 16 ∧ leNat (b.take 1) = st.code ∧ leNat ((b.drop 1).take 1) = sticky ∧
    leNat ((b.drop 2).take 1) = 2 * min attempt 7 + (if phase then 1 else 0) ∧ leNat ((b.drop 3).take 1) = 0 ∧
    leNat ((b.drop 4).take 4) = round.toNat ∧ leNat (b.drop 8) = time)

/-! ### Rounds (R140, R148 to R153, R390 to R401) -/

/-- ABORT reaches an open round with HOST_ABORT; a number that names no open round is ignored (R149).
ROUND_ABORT acts on the cause of a round: a round of one device aborts here, one that spans devices hands a frame to the Tally bus, final
where the cause ends it; a round without a cause is left; a cause that the command names is detected first (R7, R390, R394).
A cause detected in a running round stands unless a worse one of the same cycle is detected; one of a later cycle leaves it (R8, R395; what a cause
of a later cycle does is the model's choice, log entry 8). -/
def Obligations.RoundAborts : Prop :=
  (∀ (s : State) (n : RoundNo), s.dev.pins.clocks = true →
    Gives (.abort n) s (s.dev.updRound n fun r => r.raise s.dev.cycles .hostAbort) ∧ (s.dev.round? n = none → Ignored (.abort n) s)) ∧
  (∀ (s : State) (n : RoundNo) (r : Round) (st : Status), s.dev.pins.clocks = true → s.dev.round? n = some r →
    let d := s.dev; let hard := st.isHardware
    let ends := !hard || decide (leNat (objIn r.settings 0x2170 1) ≤ r.attempt)
    (r.cause = none → Ignored (.roundAbort n none) s) ∧
    (r.cause = some st → r.peerGroup = 0 → Gives (.roundAbort n none) s (d.abortRound s.fuses n st ends (ends && hard) false)) ∧
    (r.cause = some st → r.peerGroup ≠ 0 →
      Gives (.roundAbort n none) s { d with tally := { d.tally with frames := (d.tally.frames.filter fun f => f.1 ≠ n) ++ [(n, !ends, st)] } }) ∧
    (st.isSuccess = false →
      exec (.roundAbort n (some st)) s = exec (.roundAbort n none) (s.withDev (d.updRound n fun r => r.raise d.cycles st)))) ∧
  (∀ (r : Round) (now : Nat) (a b : Status), r.phase = .running →
    (r.cause = none → (r.raise now a).cause = some a ∧ (r.raise now a).causeAt = now) ∧
    (r.cause = some a → r.causeAt = now → (r.raise now b).cause = some (a.worse b)) ∧
    (r.cause = some a → r.causeAt ≠ now → (r.raise now b).cause = some a) ∧
    (b.isHardware = true → a.isProgram = true → a.worse b = a ∧ b.worse a = a))

/-- A round of one device commits once every stream has reached its ROUND_COMMIT and every descriptor has completed, and is then open no more;
until then ROUND_COMMIT changes nothing (R140, R153). -/
def Obligations.RoundCommits : Prop :=
  ∀ (s : State) (n : RoundNo) (r : Round), s.dev.pins.clocks = true → s.dev.round? n = some r → r.peerGroup = 0 →
    (s.dev.commitReady r = false → Ignored (.roundCommit n) s) ∧
    (s.dev.commitReady r = true → ∃ t, exec (.roundCommit n) s = .next t ∧ t.dev = s.dev.commitRound s.fuses r ∧
      (∀ q ∈ t.dev.rounds, q.number ≠ n) ∧ (∀ x ∈ t.dev.descs, x.round ≠ n))

/-- What an abort clears: no descriptor of the round is left, no beam row is owned by it, no engine, queue or fabric-port command holds
work of it, and the memory and the descriptors of every other round are as before (R69, R75, R117, R191, R306, R390). -/
def Obligations.AbortClearsTheAttempt : Prop :=
  ∀ (d : Dev) (n : RoundNo) (st : Status),
    let t := d.clearRound n st
    t.descs = d.descs.filter (fun x => x.round ≠ n) ∧ t.mem = d.mem ∧ t.flags = d.flags ∧ t.rounds = d.rounds ∧ t.objs = d.objs ∧
    (∀ q ∈ t.saeri.rows, q.round ≠ n) ∧
    ∀ e ∈ t.cores,
      (∀ b ∈ e.2.beam, b.2.owner ≠ some n) ∧ (∀ j, e.2.array.job = some j → j.round ≠ n) ∧ (∀ j, e.2.array.next = some j → j.round ≠ n) ∧
      (∀ j ∈ e.2.array.waiting, j.round ≠ n) ∧ (∀ j, e.2.slate.job = some j → j.round ≠ n) ∧ (∀ q ∈ e.2.carryIn, q.round ≠ n) ∧
      (∀ q ∈ e.2.chainIn, q.round ≠ n) ∧ (∀ q ∈ e.2.chainParts, q.tile.round ≠ n) ∧ (∀ q, e.2.chainOut = some q → q.round ≠ n) ∧
      (∀ q ∈ e.2.port.injects, cmdOfRound q n = false) ∧ (∀ q ∈ e.2.port.outstanding, cmdOfRound q.2 n = false) ∧
      (∀ g ∈ e.2.rings, ∀ h ∈ g.2.held, h.holder.round? ≠ some n)

/-- FLAG_RESTORE subtracts every increment of the aborted attempt from its flag, and the round may then restart (R134). The signals stay in
this device and no traffic of the attempt is left. While a subtraction at another node is not acknowledged, the round waits.
ROUND_RESTART begins the next attempt of a restored round that nothing holds: the attempt number grows by one, the cause is gone, the counter
0x3170.01 grows, and every stream of the round refetches the slots of its run (R392). -/
def Obligations.RoundRestarts : Prop :=
  (∀ (s : State) (n : RoundNo) (e : Restore),
    s.dev.pins.clocks = true → s.dev.restores.find? (fun e => e.round = n) = some e → s.dev.trafficOf e = false →
    ((∀ i ∈ e.increments, s.dev.isHere i.node = true) → (∀ q ∈ s.dev.saeri.outstanding, q.use ≠ .restore n e.rslot) →
      ∃ t, exec (.flagRestore n) s = .next t ∧ t.dev.restores = s.dev.restores.erase e ∧ t.dev.mem = s.dev.mem ∧
        (∀ f, f < 4096 → t.dev.flag f = s.dev.flag f - ((e.increments.filter fun i => i.flag.toNat = f).map Incr.amount).sum) ∧
        t.dev.rounds = s.dev.rounds.map fun r => if r.number = n ∧ r.phase = .aborted ∧ r.rslot = e.rslot then { r with phase := .restored } else r) ∧
    (e.increments = [] → (∃ q ∈ s.dev.saeri.outstanding, q.use = .restore n e.rslot) →
      Gives (.flagRestore n) s { s.dev with restores := e :: s.dev.restores.erase e })) ∧
  (∀ (s : State) (n : RoundNo) (r : Round), s.dev.pins.clocks = true → s.dev.round? n = some r → r.peerGroup = 0 →
    (r.phase ≠ .restored ∨ r.hold ≠ .none ∨ r.cause ≠ none → Ignored (.roundRestart n) s) ∧
    (r.phase = .restored → r.hold = .none → r.cause = none → ∃ t, exec (.roundRestart n) s = .next t ∧ t.dev.mem = s.dev.mem ∧ t.dev.flags = s.dev.flags ∧
      t.dev.count 0x3170 1 = (s.dev.count 0x3170 1 + 1) % 2 ^ 64 ∧
      t.dev.rounds = s.dev.rounds.map (fun q => if q.number = n then
        { q with phase := .running, attempt := q.attempt + 1, cause := none, later := none, undelivered := [], nodesUsed := [], recorded := [], deps := [] }
        else q) ∧
      (∀ q ∈ r.runs, ∀ m, m < 65536 → m ∈ s.dev.runSlots q → (r.runs.map Run.stream).Nodup →
        ∃ e ∈ (t.dev.stream q.stream).refetch, e.slot = m ∧ e.round = n)))

/-- The timers and the declaration of deadlock (R148, R151, R152): an attempt that has run for RoundTimeout fails with ROUND_TOO_LONG unless a
halted core stands in it; a quiescent round of one device is declared after 65,536 cycles, and its record kept. -/
def Obligations.RoundTimers : Prop :=
  ∀ (s : State) (n : RoundNo) (r : Round), s.dev.pins.clocks = true → s.dev.round? n = some r →
    (∀ us, r.phase = .running → leNat (objIn r.settings 0x2060 1) ≤ us → s.dev.timersStand n = false →
      Gives (.roundTooLong n us) s (s.dev.updRound n fun q => q.raise s.dev.cycles .roundTooLong)) ∧
    (∀ us, (us < leNat (objIn r.settings 0x2060 1) ∨ s.dev.timersStand n = true) → Ignored (.roundTooLong n us) s) ∧
    (∀ cycles es, s.dev.quiescent r = some es → r.peerGroup = 0 → 65536 ≤ cycles →
      let record := leBytes 4 n.toNat ++ leBytes 2 es.length ++ [0, 0] ++ leBytes 8 s.dev.timestamp ++ es.flatten
      Gives (.deadlock n cycles) s (Dev.updRound { s.dev with deadlockRecord := record } n fun q => q.raise s.dev.cycles .deadlock)) ∧
    (∀ cycles, (s.dev.quiescent r = none ∨ cycles < 65536) → Ignored (.deadlock n cycles) s)

/-- The Tally bus (R394 to R401): a frame without its stop bit is void; a frame aborts a running round of the device, with its own cause where the
frame is its own and else with PEER_ABORT, joined with a cause of the same cycle, and ends a round whose restart is held if it is not final; a vote
that is won with its stop bit commits or restarts a round that is ready here; a line that reads 0 for 64 cycles is stuck, which TALLY1 answers by
aborting and TALLY0 by failing every running round that spans devices, and recovers after 64 cycles at 1. -/
def Obligations.TallyBus : Prop :=
  ∀ (s : State) (n : RoundNo) (r : Round) (code group : Byte) (final : Bool) (cycles : Nat), s.dev.pins.clocks = true → s.dev.round? n = some r →
    let d := s.dev; let st := Status.ofCode code.toNat
    let taken : Dev := { d with tally := { d.tally with frames := d.tally.frames.filter fun f => f.1 ≠ n } }
    let abort (e : Dev) (own : Status) (received : Bool) : Dev :=
      let hold : Hold := if st = .peerLost then .peer else if r.hold = .peer then .none else r.hold
      (e.updRound n fun r => { r with hold := if final then hold else r.hold }).abortRound s.fuses n own (!final) (!final && st.isHardware) received
    Ignored (.abortFrame n final code false) s ∧
    (r.peerGroup ≠ 0 → (r.phase = .running ∨ final = false) →
      ((n, final, st) ∉ d.tally.frames → Gives (.abortFrame n final code true) s
        (abort taken (if r.causeAt = d.cycles then (Status.join r.cause .peerAbort).getD .peerAbort else .peerAbort) true)) ∧
      ((n, final, st) ∈ d.tally.frames → Gives (.abortFrame n final code true) s (abort (taken.bump 0x3170 4 1) (r.cause.getD st) false))) ∧
    ((n, final, st) ∉ d.tally.frames → (r.peerGroup = 0 ∨ (r.phase ≠ .running ∧ final = true)) → Gives (.abortFrame n final code true) s taken) ∧
    (r.peerGroup = group.toNat → r.peerGroup ≠ 0 → d.commitReady r = true →
      Gives (.commitVote n group true true) s ((d.bump 0x3170 8 1).commitRound s.fuses r)) ∧
    (r.peerGroup ≠ group.toNat → Ignored (.commitVote n group true true) s ∧ Ignored (.restartVote n group true true) s) ∧
    (r.peerGroup = group.toNat → r.peerGroup ≠ 0 → r.phase = .restored → r.hold = .none → r.cause = none →
      d.tally.stuck1 = false → d.tally.stuck0 = false → Gives (.restartVote n group true true) s ((d.bump 0x3170 8 1).restartRound r)) ∧
    (64 ≤ cycles → d.tally.stuck0 = false → (d.rounds.map Round.number).Nodup →
      let fails (q : Round) : Round :=
        let p := if q.phase = .running then q.raise d.cycles .hwUncorrectable else q
        if p.hold = .none then { p with hold := .tally0 } else p
      Gives (.tally0Stuck cycles) s
        { d with tally := { d.tally with stuck0 := true }, rounds := d.rounds.map fun q => if q.peerGroup = 0 then q else fails q }) ∧
    (64 ≤ cycles → d.tally.stuck1 = false →
      let stuck : Dev := { d with tally := { d.tally with stuck1 := true, frames := [] } }
      ((∀ q ∈ d.rounds, q.peerGroup = 0) → Gives (.tally1Stuck cycles) s stuck) ∧
      (d.rounds = [r] → r.peerGroup ≠ 0 → r.phase = .running →
        let own := ((r.raise d.cycles .hwUncorrectable).cause).getD .hwUncorrectable
        let ends := !own.isHardware || decide (leNat (objIn r.settings 0x2170 1) ≤ r.attempt)
        Gives (.tally1Stuck cycles) s ((stuck.updRound n fun q => if q.hold = .none then { q with hold := .tally1 } else q).abortRound s.fuses n own ends
          (ends && own.isHardware) false))) ∧
    (64 ≤ cycles → d.tally.stuck0 = true →
      Gives (.tally0Recovered cycles) s
        { d with tally := { d.tally with stuck0 := false }, rounds := d.rounds.map fun r => if r.hold = .tally0 then { r with hold := .none } else r }) ∧
    (64 ≤ cycles → d.tally.stuck1 = true →
      Gives (.tally1Recovered cycles) s
        { d with tally := { d.tally with stuck1 := false }, rounds := d.rounds.map fun r => if r.hold = .tally1 then { r with hold := .none } else r }) ∧
    (cycles < 64 → Ignored (.tally0Stuck cycles) s ∧ Ignored (.tally1Stuck cycles) s ∧ Ignored (.tally0Recovered cycles) s ∧
      Ignored (.tally1Recovered cycles) s)

/-- Patches, the running and the stopping of a Reckoner, and the halt of a core (R96, R189, R190, R195, R196): a patch begins in a cluster in P0;
a bank swap that resumes the main bank asks for one (R193); a core asked to halt is halted once its engines are empty. -/
def Obligations.PatchesStopsAndHalts : Prop :=
  ∀ (s : State) (c : CoreId), s.dev.pins.clocks = true →
    let d := s.dev; let n := c.toNat; let q := d.core n
    (∀ k rest x, q.patchQ = k :: rest → d.desc? k = some x → x.stage = .patching → q.rk.mode = .running → q.rk.inShadow = false → d.awake n = true →
      Gives (.patchEvent c) s ((d.updRk n fun k =>
        { k with inShadow := true, waiting := false, shadow := { k.shadow with pc := 0x20 } }).bump 0x3081 1 1)) ∧
    (∀ x r, d.descs.find? (fun x => x.core == n && x.stage == .frozen) = some x → d.round? x.round = some r → r.active = true →
      Gives (.patchRelease c) s (d.checked r x.key)) ∧
    (q.rk.mode = .running → q.rk.waiting = true → q.rk.inShadow = false → q.patchQ = [] →
      (∀ b, q.rk.swap = some b →
        let swapped := d.updRk n fun k => { k with abank := b, swap := none, waiting := false, main := { k.main with pc := 0 } }
        Gives (.bankSwap c) s (if (d.cluster (n / 8)).state = 0 then swapped else swapped.updCluster (n / 8) fun k => { k with wake := true }) ∧
        (q.rk.stopReq = true → Gives (.reckonerStopped c) s (swapped.updRk n fun k => { k with mode := .stopped, stopReq := false }))) ∧
      (q.rk.swap = none → Ignored (.bankSwap c) s) ∧
      (q.rk.swap = none → q.rk.stopReq = true →
        Gives (.reckonerStopped c) s (d.updRk n fun k => { k with mode := .stopped, stopReq := false, waiting := false }))) ∧
    (q.halt = 1 → q.array.job = none → q.slate.job = none →
      (∀ x ∈ d.descs, x.core = n → x.stage ≠ .running ∧ (x.stage = .ready → x.begun = false)) →
      Gives (.coreHalted c) s (d.updCore n fun c => { c with halt := 2 }))

/-! ### Resets, clocks and rails (R323, R371, R381, R417 to R421) -/

/-- The state after reset (R125, R126, R151, R162, R196, R278, R323, R348, R352, R372, R380): nothing waits or is open, every flag and counter is 0, every
object reads its default, every stream, port and Reckoner is off, every cluster is in P0 with its full allowance, and memory is in canonical form.
RESET_N, power-on and a rail fault leave the device at its reset values with the straps sampled, no clock and DONE low; the battery-backed
key outlives a reset, and a loss of power only with VBATT; ResetCause tells which it was, and 4 after a thermal trip (R323, R418, R420, R421;
a rail that is out of range for 1 µs or less changes nothing). -/
def Obligations.ResetsLeaveTheResetState : Prop :=
  (let d := State.reset.dev
  State.reset.pending = [] ∧ d.rounds = [] ∧ d.descs = [] ∧ d.cfg.state = 0 ∧ d.pins.clocks = false ∧ memWf d.mem = true ∧ FreshIds d ∧
  (∀ f, d.flag f = 0) ∧ (∀ i j, d.count i j = 0) ∧ (∀ i j, d.obj i j = objDefault (okey i j)) ∧ (∀ i j, d.staged i j = objDefault (okey i j)) ∧
  (∀ n, (d.stream n).enable = false ∧ (d.stream n).status = 0 ∧ (d.stream n).fetch = 0 ∧ (d.stream n).release = 0 ∧ (d.stream n).tail = 0) ∧
  (∀ n, (d.core n).halt = 0 ∧ (d.core n).rk.mode = .stopped ∧ (d.core n).array.job = none ∧ (d.core n).slate.job = none ∧ (d.core n).rings = [] ∧
    (d.core n).port.outstanding = []) ∧
  (∀ c, (d.cluster c).state = 0 ∧ (d.cluster c).allowance = 16 ∧ (d.cluster c).capAllowance = 16 ∧ (d.cluster c).cache = []) ∧
  (∀ p, (d.port p).enabled = false ∧ (d.port p).step = 0)) ∧
  (∀ (s : State) (straps : Straps) (rail : Rail) (ns : Nat),
    let d := s.dev
    let pins (st : Straps) (cause : Nat) (io : Bool) : Pins :=
      { d.pins with powered := true, vddIo := io, straps := st, doneReleased := false, thermTrip := false, pllLocked := false, clocks := false,
                    oscillator := false, resetCause := cause }
    Gives (.deviceReset straps) s
      { Dev.reset with bbramKey := d.bbramKey, pins := pins straps (if d.pins.thermTrip then 4 else 1) true } ∧
    Gives (.powerOn straps) s { Dev.reset with bbramKey := if d.pins.vbatt then d.bbramKey else none, pins := pins straps 0 true } ∧
    (ns ≤ 1000 → Ignored (.railFault rail ns) s) ∧
    (1000 < ns → Gives (.railFault rail ns) s
      { Dev.reset with bbramKey := if rail = .vddIo ∧ d.pins.vbatt = false then none else d.bbramKey, pins := pins d.pins.straps 0 (decide (rail ≠ .vddIo)) }))

/-- The clocks (R371, R381, R417): the lock of the PLL starts them, and after a clock loss resets the device with cause 3; a loss stops them
and pulls DONE low; at 110 °C everything stops and HBM loses its contents; VBATT holds the key alone where VDD_IO is absent (R323).
Completes: PLL_LOCK, CLOCK_LOSS, THERMAL_TRIP, VBATT_REMOVAL, CAN_ERROR_FRAME. -/
def Obligations.ClocksAndSupplies : Prop :=
  ∀ (s : State) (c : ClusterId) (t : Int),
    let d := s.dev
    let stopped (p : Pins) : Pins := { p with clocks := false, pllLocked := false, doneReleased := false }
    (d.pins.thermTrip = false → d.pins.pllLocked = false → d.pins.oscillator = false →
      Gives .pllLock s { d with pins := { d.pins with pllLocked := true, clocks := true, oscillator := false } }) ∧
    (d.pins.thermTrip = false → d.pins.pllLocked = false → d.pins.oscillator = true →
      Gives .pllLock s { Dev.reset with
        bbramKey := d.bbramKey
        pins := { d.pins with doneReleased := false, resetCause := 3, pllLocked := true, clocks := true, oscillator := false }
        tally := { stuck1 := false, stuck0 := false,
                   frames := (d.rounds.filter fun r => r.peerGroup ≠ 0).map fun r => (r.number, false, Status.hostAbort) } }) ∧
    ((d.pins.thermTrip = true ∨ d.pins.pllLocked = true) → Ignored .pllLock s) ∧
    (d.pins.clocks = true → Gives .clockLoss s { d with pins := { stopped d.pins with oscillator := true } }) ∧
    (d.pins.clocks = false → Ignored .clockLoss s) ∧
    (110 ≤ t → d.pins.powered = true → ∃ e, Gives (.thermalTrip c t) s e ∧
      e.pins = { stopped d.pins with thermTrip := true, oscillator := false } ∧
      (∀ a, a < 0x4800000000 → memGet e.mem a = 0) ∧ (∀ a, 0x4800000000 ≤ a → memGet e.mem a = memGet d.mem a) ∧
      (e.cluster c.toNat).celsius = t ∧ (∀ q, q ≠ c.toNat → e.cluster q = d.cluster q) ∧ e.objs = d.objs ∧ e.bbramKey = d.bbramKey) ∧
    ((t < 110 ∨ d.pins.powered = false) → Ignored (.thermalTrip c t) s) ∧
    (d.pins.vddIo = true → Gives .vbattRemoval s { d with pins := { d.pins with vbatt := false } }) ∧
    (d.pins.vddIo = false → Gives .vbattRemoval s { d with pins := { d.pins with vbatt := false }, bbramKey := none }) ∧
    ((d.pins.clocks = true ∨ d.pins.oscillator = true) → Gives .canErrorFrame s (d.bumpSat32 0x1120 2) ∧
      (d.bumpSat32 0x1120 2).count 0x1120 2 = min (2 ^ 32 - 1) (d.count 0x1120 2 + 1)) ∧
    (d.pins.clocks = false → d.pins.oscillator = false → Ignored .canErrorFrame s)

/-- Without clocks and without the oscillator no command does anything but a reset, a change of the rails, the lock of the PLL, a temperature or the loss of
VBATT (R371, R381, R418 to R421). -/
def Obligations.NothingRunsWithoutClocks : Prop :=
  ∀ (i : Instr) (s : State), s.dev.pins.clocks = false → s.dev.pins.oscillator = false →
    (∀ x, i ≠ .powerOn x) → (∀ x, i ≠ .deviceReset x) → (∀ x n, i ≠ .railFault x n) → i ≠ .pciePerst → i ≠ .pllLock →
    (∀ c t, i ≠ .thermalTrip c t) → i ≠ .vbattRemoval → Ignored i s

/-! ### Configuration and start-up (R319 to R345) -/

/-- The units of a configuration stream are taken whole and in order (R319 to R322, R328): a header of 64 bytes that is in range, comes from the
source that CFG_MODE selects (R326), and whose key is allowed and present, begins a full load, which clears every frame; another ends the load with
HEADER or KEY and STATE 6. Frames come once the columns are clear: a record of 576 bytes whose CRC holds is written at its address, and the last one sets
STATE 2; one that fails its CRC ends the load with FRAME_CHECK, a reserved address with FRAME_ADDRESS. A tag of zeros releases DONE and keeps every
frame (R330); another ends the load with AUTH. In user mode a header of KIND 2 begins a repair load, one that names a declared partition isolates it
and clears its columns (R334, R335), its tag makes it VALID (R338), and an abort ends the load with TRUNCATED (R341). A unit of another length, or one that no load awaits, changes nothing.
The steps of start-up (R326, R331, R332): DONE begins them, step 3 resets the hardened blocks and zeroes the tile and Reckoner memories, step 4 ends
with HBM zeroed, the failed pseudo-channels marked and the device in user mode.
Completes: FULL_LOAD, STREAM_HEADER, CLEAR_DONE, FRAME_RECORD, STREAM_TAG, ICP_ABORT, DONE_HIGH, STARTUP_STEP_END, HBM_TRAINING_DONE. -/
def Obligations.ConfigurationAndStartUp : Prop :=
  (∀ (s : State) (src : LoadSource) (b : List Byte), s.dev.pins.clocks = true → b.length = 64 → s.dev.cfg.load = none → s.dev.mayBring src = true →
    let d := s.dev; let keySrc := field b 6 1; let key := keyOf s.fuses d keySrc
    let load : Load :=
      { src := src, feeder := none, kind := field b 5 1, keySrc := keySrc, partition := field b 7 1, frames := field b 8 4, die := field b 12 1,
        region := field b 13 1, colLo := field b 14 1, colHi := field b 15 1, iv := slice b 16 12, header := slice b 0 64,
        designId := BitVec.ofNat 64 (field b 32 8), clearing := decide (field b 5 1 ≠ 2), taken := 0, failed := 0,
        hash := if keySrc = 0 then 0 else ghash (gcmH (key.getD [])) 0 (slice b 0 64), written := [] }
    let ended (c : Cfg) (r : Nat) : Cfg := { c with load := none, loadResult := r, icpStatus := some (BitVec.ofNat 8 r) }
    (d.cfg.state = 0 → d.fullSource src none = true →
      (headerBad b = false → field b 5 1 = 0 → key.isSome = true →
        Gives (.streamHeader src b) s { d with cfg :=
          { d.cfg with load := some load, state := 1, frames := [], design := Design.empty, designIds := [], regions := [], encryptedParts := [] } }) ∧
      ((src ≠ .flash ∨ d.cfg.second = true) → (headerBad b = true ∨ field b 5 1 ≠ 0 ∨ key = none) →
        let r := if headerBad b = true ∨ field b 5 1 ≠ 0 then 0x01 else 0x02
        Gives (.streamHeader src b) s { d with
          pins := { d.pins with doneReleased := false }
          cfg := { ended d.cfg r with result := r, state := 6, frames := [], design := Design.empty, designIds := [], regions := [],
                                      encryptedParts := [] } }) ∧
      (src = .flash → d.cfg.second = false → (headerBad b = true ∨ field b 5 1 ≠ 0 ∨ key = none) →
        let r := if headerBad b = true ∨ field b 5 1 ≠ 0 then 0x01 else 0x02
        Gives (.streamHeader src b) s { d with
          cfg := { ended d.cfg r with result := r, second := true, frames := [], design := Design.empty, designIds := [], regions := [],
                                      encryptedParts := [] } })) ∧
    ((if d.cfg.state = 0 then d.fullSource src none = false else src = .flash ∨ (src = .icp ∧ d.isolated 0 = true)) →
      Ignored (.streamHeader src b) s) ∧
    (d.cfg.state ≠ 0 → src ≠ .flash → (src = .icp → d.isolated 0 = false) →
      ((headerBad b = true ∨ field b 5 1 = 0 ∨ d.cfg.state ≠ 5) → Gives (.streamHeader src b) s { d with cfg := ended d.cfg 0x01 }) ∧
      (d.cfg.state = 5 → headerBad b = false → field b 5 1 = 2 → key.isSome = true → Gives (.streamHeader src b) s { d with cfg := { d.cfg with load := some load } }) ∧
      (d.cfg.state = 5 → headerBad b = false → field b 5 1 ≠ 0 → key = none → Gives (.streamHeader src b) s { d with cfg := ended d.cfg 0x02 }) ∧
      (∀ p, d.cfg.state = 5 → headerBad b = false → field b 5 1 = 1 → key.isSome = true → tabFind d.cfg.design.partitions (field b 7 1) = some p → field b 7 1 ≠ 0 →
        (field b 12 1 ≠ p.die ∨ field b 13 1 ≠ p.region ∨ field b 14 1 ≠ p.colLo ∨ field b 15 1 ≠ p.colHi →
          Gives (.streamHeader src b) s { d with cfg := ended d.cfg 0x06 }) ∧
        (field b 12 1 = p.die → field b 13 1 = p.region → field b 14 1 = p.colLo → field b 15 1 = p.colHi →
          ((∃ r ∈ d.rounds, r.phase = .running ∧ field b 7 1 ∈ r.deps) → Gives (.streamHeader src b) s { d with cfg := ended d.cfg 0x07 }) ∧
          ((∀ r ∈ d.rounds, r.phase = .running → field b 7 1 ∉ r.deps) → ∃ t, Gives (.streamHeader src b) s t ∧
            t.cfg.load = some load ∧ t.regionState (field b 7 1) = (2, 0) ∧ t.isolated (field b 7 1) = true ∧ t.mem = d.mem ∧ t.cfg.design = d.cfg.design ∧
            ∀ e ∈ t.cfg.frames, e ∈ d.cfg.frames ∧
              ¬(frameDie e.1 = p.die ∧ frameRegion e.1 = p.region ∧ p.colLo ≤ frameCol e.1 ∧ frameCol e.1 ≤ p.colHi)))))) ∧
  (∀ (s : State) (src : LoadSource) (b : List Byte), s.dev.pins.clocks = true →
    (b.length ≠ 64 ∨ s.dev.cfg.load.isSome = true → Ignored (.streamHeader src b) s) ∧
    (b.length ≠ 576 ∨ s.dev.cfg.load = none → Ignored (.frameRecord b) s) ∧ (b.length ≠ 16 ∨ s.dev.cfg.load = none → Ignored (.streamTag b) s) ∧
    (s.dev.cfg.load = none → Ignored .clearDone s ∧ Ignored .icpAbort s)) ∧
  (∀ (s : State) (l : Load) (b : List Byte), s.dev.pins.clocks = true → s.dev.cfg.load = some l → s.dev.mayBring l.src = true →
    l.failed = 0 → l.keySrc = 0 → l.kind = 0 → (l.src ≠ .flash ∨ s.dev.cfg.second = true) →
    let d := s.dev; let f := field (slice b 0 576) 0 3 % 2 ^ 18
    let fails (r : Nat) (t : Dev) : Prop :=
      t.cfg.load = none ∧ t.cfg.state = 6 ∧ t.cfg.result = r ∧ t.cfg.loadResult = r ∧ t.cfg.frames = [] ∧ t.pins.doneReleased = false
    (b.length = 576 → l.clearing = false → l.taken < l.frames →
      (frameValid f = true → recordOk (slice b 0 576) = true → (frameDie f = 0 ∨ NetworkWhole d) → ∃ t, Gives (.frameRecord b) s t ∧
        t.cfg = { d.cfg with load := some { l with taken := l.taken + 1, written := f :: l.written }
                             state := if l.taken + 1 = l.frames then 2 else d.cfg.state
                             frames := tabSet d.cfg.frames f { bytes := slice b 0 576, bad := false, encrypted := false } } ∧
        t.mem = d.mem ∧ t.rounds = d.rounds ∧ (frameDie f = 0 → t.counters = d.counters ∧ t.noc = d.noc)) ∧
      (frameValid f = true → recordOk (slice b 0 576) = false → ∃ t, Gives (.frameRecord b) s t ∧ fails 0x04 t) ∧
      (frameValid f = false → ∃ t, Gives (.frameRecord b) s t ∧ fails 0x05 t)) ∧
    (b.length = 576 → (l.clearing = true ∨ l.frames ≤ l.taken) → Ignored (.frameRecord b) s) ∧
    (b.length = 16 → l.clearing = false → l.frames ≤ l.taken →
      ((∀ i, i < 16 → b.getD i 0 = 0) → ∃ t, Gives (.streamTag b) s t ∧ t.cfg.load = none ∧ t.cfg.state = 3 ∧ t.cfg.result = 0 ∧
        t.cfg.loadResult = 0 ∧ t.cfg.frames = d.cfg.frames ∧ t.cfg.fallback = d.cfg.second ∧ t.pins = { d.pins with doneReleased := true } ∧
        t.cfg.design = Config.designOf (d.cfg.frames.map fun e => (e.1, e.2.bytes)) ∧ t.mem = d.mem) ∧
      ((∃ i, i < 16 ∧ b.getD i 0 ≠ 0) → ∃ t, Gives (.streamTag b) s t ∧ fails 0x03 t)) ∧
    (b.length = 16 → (l.clearing = true ∨ l.taken < l.frames) → Ignored (.streamTag b) s)) ∧
  (∀ (s : State) (l : Load) (b : List Byte), s.dev.pins.clocks = true → s.dev.cfg.load = some l → s.dev.mayBring l.src = true →
    l.failed = 0 → l.keySrc = 0 → l.kind = 1 → l.clearing = false → l.frames ≤ l.taken → b.length = 16 → (∀ i, i < 16 → b.getD i 0 = 0) →
    ∃ t, Gives (.streamTag b) s t ∧ t.cfg.load = none ∧ t.cfg.loadResult = 0 ∧ t.regionState l.partition = (1, 0) ∧
      tabFind t.cfg.designIds l.partition = some l.designId ∧ t.cfg.state = s.dev.cfg.state ∧ t.mem = s.dev.mem ∧
      (∀ p, p ≠ l.partition → t.regionState p = s.dev.regionState p)) ∧
  (∀ (s : State) (l : Load), s.dev.pins.clocks = true → s.dev.cfg.load = some l →
    let d := s.dev; let clear : Dev := { d with cfg := { d.cfg with load := some { l with clearing := false } } }
    (l.clearing = true → l.feeder = none → Gives .clearDone s clear) ∧
    (∀ w, l.clearing = true → l.feeder = some w → Gives .clearDone s (clear.passStream s.fuses w [])) ∧
    (l.clearing = false → Ignored .clearDone s) ∧
    (d.cfg.state = 5 → d.isolated 0 = false → l.failed = 0 → l.kind ≠ 0 →
      let c : Cfg := { d.cfg with load := none, loadResult := 0x08, icpStatus := some 0x08 }
      Gives .icpAbort s { d with cfg := if l.kind = 1 then { c with regions := tabSet c.regions l.partition (3, 4) } else c })) ∧
  (∀ (s : State) (failed : List PcId), s.dev.pins.clocks = true →
    let d := s.dev; let step (n : Nat) : Dev := { d with cfg := { d.cfg with phase := n } }
    (d.cfg.state = 0 → Gives .fullLoad s { d with cfg := { d.cfg with started := true } }) ∧
    (d.cfg.state ≠ 0 → Ignored .fullLoad s) ∧
    (d.cfg.state = 3 → Gives .doneHigh s { d with cfg := { d.cfg with state := 4, phase := 1 } }) ∧
    (d.cfg.state ≠ 3 → Ignored .doneHigh s) ∧
    (d.cfg.state = 4 → d.cfg.phase = 1 → Gives .startupStepEnd s { step 2 with logic := { flops := [], io := [] } }) ∧
    (d.cfg.state = 4 → d.cfg.phase = 2 → d.objNat 0x4161 2 = 0 → Gives .startupStepEnd s (step 3)) ∧
    (d.cfg.state = 4 → d.cfg.phase = 2 → d.objNat 0x4161 2 ≠ 0 →
      Gives .startupStepEnd s { step 3 with power := { d.power with setpoint := Config.fusedSetpoint, target := Config.fusedSetpoint } }) ∧
    (d.cfg.state = 4 → d.cfg.phase = 3 → ∃ t, exec .startupStepEnd s = .next t ∧ t.dev.cfg = { d.cfg with phase := 4 } ∧
      (∀ a, tileBase ≤ a → a < tileBase + 0x10000000 → t.dev.regionOf a ≠ .reserved → memGet t.dev.mem a = 0) ∧
      (∀ a, rkBase ≤ a → a < rkBase + 0x2000000 → memGet t.dev.mem a = 0) ∧
      (∀ a, a < tileBase → memGet t.dev.mem a = memGet d.mem a) ∧ (∀ n, t.dev.core n = Core.reset) ∧ (∀ n, t.dev.stream n = Stream.reset) ∧
      (∀ f, t.dev.flag f = 0) ∧ t.dev.descs = [] ∧ (∀ c, (t.dev.cluster c).cache = []) ∧ t.dev.saeri.outstanding = []) ∧
    (d.cfg.state = 4 → d.cfg.phase = 4 → d.hbm.waiting = [] → ∃ t, exec (.hbmTrainingDone failed) s = .next t ∧
      t.dev.cfg = { d.cfg with state := 5, phase := 5 } ∧ t.dev.hbm.trained = true ∧ (∀ p ∈ failed, p.toNat ∈ t.dev.hbm.failed) ∧
      (∀ a, a < 0x4800000000 → memGet t.dev.mem a = 0) ∧ (∀ a, 0x4800000000 ≤ a → memGet t.dev.mem a = memGet d.mem a)))

/-- Scrubbing (R343, R344, R348): a pass is counted and begins at the die's first frame, unless ScrubPeriod is 0; a frame read adds what was corrected and,
where the copies disagree, one to ScrubVoteCorrections (R342); a word that cannot be corrected, or a CRC that does not match, marks the frame bad, which is counted and
logged, and in a VALID partition makes it INVALID with cause 5; a frame already marked is not reported again; a frame that is
already behind the pass, or is not valid, is not read; frames of a partition that is LOADING or INVALID are skipped. A frame of die 1 is read over the
seam. Completes: SCRUB_PASS, SCRUB_FRAME. -/
def Obligations.Scrubbing : Prop :=
  ∀ (s : State) (die : BitVec 1) (f : FAddr) (o : ScrubObs), s.dev.pins.clocks = true →
    let d := s.dev; let p := d.frameOwner f.toNat; let bad := (tabGet Frame.clear d.cfg.frames f.toNat).bad
    let at' : Dev := { d with cfg := { d.cfg with scrubAt := tabSet d.cfg.scrubAt (frameDie f.toNat) (f.toNat + 1) } }
    let voted : Dev := if o.voteMismatch then at'.bump 0x3150 4 1 else at'
    let read := voted.bump 0x3150 1 o.corrected
    let entry (w : Nat) : ScrubEntry := { frame := f.toNat, word := w, partition := p, time := d.timestamp }
    let marked (w : Nat) (t : Dev) : Prop :=
      (tabGet Frame.clear t.cfg.frames f.toNat).bad = true ∧ t.cfg.scrubLog = logPush d.cfg.scrubLog (entry w) ∧
      t.count 0x3150 2 = (d.count 0x3150 2 + 1) % 2 ^ 64 ∧ t.mem = d.mem ∧
      t.regionState p = if (d.regionState p).1 = 1 then (3, 5) else d.regionState p
    (d.objNat 0x4140 1 ≠ 0 →
      Gives (.scrubPass die) s { d.bump 0x3150 3 1 with cfg := { d.cfg with scrubAt := tabSet d.cfg.scrubAt die.toNat (die.toNat * 2 ^ 17) } }) ∧
    (d.objNat 0x4140 1 = 0 → Ignored (.scrubPass die) s) ∧
    (frameValid f.toNat = true → tabGet (2 ^ 18) d.cfg.scrubAt (frameDie f.toNat) ≤ f.toNat → frameDie f.toNat = 0 →
      (∀ w, o.badWord = some w → w.toNat < 36) →
      (p ≠ 0 → (d.regionState p).1 ≠ 1 → Gives (.scrubFrame f o) s voted) ∧
      (p = 0 ∨ (d.regionState p).1 = 1 →
        (o.badWord = none ∧ o.crcBad = false ∨ bad = true → Gives (.scrubFrame f o) s read) ∧
        (bad = false → o.badWord = none → o.crcBad = true → ∃ t, Gives (.scrubFrame f o) s t ∧ marked 0xFF t) ∧
        (∀ w, bad = false → o.badWord = some w → ∃ t, Gives (.scrubFrame f o) s t ∧ marked w.toNat t))) ∧
    (frameDie f.toNat = 1 → ∃ t, Gives (.scrubFrame f o) s t ∧ t.mem = d.mem ∧ t.pins = d.pins) ∧
    ((frameValid f.toNat = false ∨ f.toNat < tabGet (2 ^ 18) d.cfg.scrubAt (frameDie f.toNat) ∨ (∃ w, o.badWord = some w ∧ 36 ≤ w.toNat)) →
      Ignored (.scrubFrame f o) s)

/-! ### Power states, the capper and ageing (R372 to R387) -/

/-- A cluster enters its chosen state only when idle, past the hold time and not asked to wake; in C2 and C3 its cache is empty, in C3 its
beams lose their contents (R207, R372, R373, R376). A wake is asked of a cluster not in P0, granted a slot in ascending rank, and ends in
P0 when the exit's time has passed (R374, R377, R379).
What the deep states lose (R207, R372): an entry into C2 or C3 empties the cache part; C3 releases every beam row of the cluster; the
memories read as before; the rows of other clusters stay. -/
def Obligations.PowerStates : Prop :=
  (∀ (s : State) (c : ClusterId) (ns : Nat), s.dev.pins.clocks = true →
    let d := s.dev; let n := c.toNat; let k := d.cluster n; let d1 := d.choose n; let st := d.chosenState n
    (d1.clusterIdle n = true → k.state < st → heldLong st ns = true → k.wake = false → Gives (.stateEntry c ns) s (d1.enterState n st)) ∧
    ((d1.clusterIdle n = false ∨ st ≤ k.state ∨ heldLong st ns = false ∨ k.wake = true) → Gives (.stateEntry c ns) s d1) ∧
    (k.state = 0 → Ignored (.wakeRequest c) s) ∧
    (k.state ≠ 0 → Gives (.wakeRequest c) s (d.updCluster n fun k => { k with wake := true })) ∧
    (k.wake = true → k.granted = false → k.state ≠ 0 → d.slotsWithin 1 ns = true →
      ((∀ q, q < 16 → (d.cluster q).wake = true → (d.cluster q).granted = false → d.rankOf n ≤ d.rankOf q) →
        Gives (.wakeSlotGrant c ns) s (d.updCluster n fun k => { k with granted := true })) ∧
      ((∃ q, q < 16 ∧ (d.cluster q).wake = true ∧ (d.cluster q).granted = false ∧ d.rankOf q < d.rankOf n) → Ignored (.wakeSlotGrant c ns) s)) ∧
    (k.granted = true → k.noRetention = false → k.waiting = [] → exitNs k.state true ≤ ns →
      Gives (.wakeComplete c ns) s (d.updCluster n fun k => { k with state := 0, wake := false, granted := false, noRetention := false })) ∧
    (k.granted = false → Ignored (.wakeComplete c ns) s) ∧
    Gives .stateRecompute s ((List.range 16).foldl (fun d q => if (d.cluster q).chosen < (d.cluster q).state then d.requestWake q else d)
      ((List.range 16).foldl Dev.choose d))) ∧
  (∀ (d : Dev) (c st : Nat), c < 16 → st ≤ 3 →
    let t := d.enterState c st
    (t.cluster c).state = st ∧ (2 ≤ st → (t.cluster c).cache = []) ∧ (st < 2 → (t.cluster c).cache = (d.cluster c).cache) ∧ t.mem = d.mem ∧
    (∀ n, n / 8 = c → n < 128 → (st = 3 → (t.core n).beam = [] ∧ (t.core n).beamLost.isSome = true) ∧ (st ≠ 3 → t.core n = d.core n)) ∧
    (∀ n, n / 8 ≠ c → t.core n = d.core n))

/-- The capper and the thermal limit (R380, R381): a sample above 125 % of PowerCap limits every release allowance to 8 at once; each 10 µs step
moves the allowances by one within 1 to 16; at 105 °C the engines of the cluster stop.
Ageing (R382 to R384): a measurement is taken of a cluster that is idle in P0 or C1 for 10 µs, or forced after MeasureInterval hours; a
re-plan without any measurement changes nothing, one with takes group 0x4161 (R387); the setpoint moves 5 mV at a time, and after three writes without acknowledgement it stays
and the failure is flagged. -/
def Obligations.AllowancesAndAgeing : Prop :=
  (∀ (s : State) (c : ClusterId) (t : Int) (mw average : Nat), s.dev.pins.clocks = true →
    let d := s.dev; let n := c.toNat; let cap := d.objNat 0x2160 3
    (∃ e, exec (.capSample mw average) s = .next e ∧ e.dev.power = { d.power with sample := mw, average := average } ∧ e.dev.cores = d.cores ∧
      ∀ q, q < 16 → (e.dev.cluster q).capAllowance =
        (if cap * 1250 < mw then min 8 (d.cluster q).capAllowance else (d.cluster q).capAllowance)) ∧
    (∃ e, exec (.allowanceStep c t) s = .next e ∧ (e.dev.cluster n).celsius = t ∧ (∀ q, q ≠ n → e.dev.cluster q = d.cluster q) ∧
      (1 ≤ (d.cluster n).capAllowance → (d.cluster n).capAllowance ≤ 16 → 1 ≤ (d.cluster n).allowance → (d.cluster n).allowance ≤ 16 →
        1 ≤ (e.dev.cluster n).capAllowance ∧ (e.dev.cluster n).capAllowance ≤ 16 ∧ 1 ≤ (e.dev.cluster n).allowance ∧ (e.dev.cluster n).allowance ≤ 16) ∧
      (cap * 1000 < d.power.average → 1 < (d.cluster n).capAllowance → (e.dev.cluster n).capAllowance + 1 = (d.cluster n).capAllowance) ∧
      (100 ≤ t → 1 < (d.cluster n).allowance → (e.dev.cluster n).allowance + 1 = (d.cluster n).allowance) ∧
      (t ≤ 98 → (d.cluster n).allowance < 16 → (e.dev.cluster n).allowance = (d.cluster n).allowance + 1) ∧
      (105 ≤ t → ∀ core, core / 8 = n → e.dev.engineOk core = false))) ∧
  (∀ (s : State) (c : ClusterId) (ns hours : Nat) (o : Margin) (acked : Bool), s.dev.pins.clocks = true →
    let d := s.dev; let n := c.toNat; let w := d.power
    let taken (forced : Bool) : Dev := d.updCluster n fun k =>
      { k with slack := o.slack, slackLow := o.slackLow, ringOsc := o.ringOsc, forced := forced, measurements := k.measurements + 1,
               firstTime := if k.measurements = 0 then d.timestamp else k.firstTime }
    (d.clusterIdle n = true → (d.cluster n).state ≤ 1 → 10000 ≤ ns → Gives (.marginMeasurement c ns o) s (taken false)) ∧
    ((d.clusterIdle n = false ∨ 2 ≤ (d.cluster n).state ∨ ns < 10000) → Ignored (.marginMeasurement c ns o) s) ∧
    (w.interval ≤ hours → Gives (.forcedMeasurement c hours o) s ((taken true).bump 0x3161 2 1)) ∧
    (hours < w.interval → Ignored (.forcedMeasurement c hours o) s) ∧
    ((∀ q, q < 16 → (d.cluster q).measurements = 0) → Ignored .replan s) ∧
    (∃ e, exec .replan s = .next e ∧ (e.dev = d ∨ 650 ≤ e.dev.power.target ∧ e.dev.power.target ≤ 850 ∧ e.dev.power.target % 5 = 0 ∧
      e.dev.power.setpoint = w.setpoint ∧ e.dev.power.bus = d.objNat 0x4161 2 ∧ e.dev.power.interval = d.objNat 0x4161 4)) ∧
    (w.setpoint = w.target → Ignored (.setpointStep acked) s) ∧
    (acked = true → w.setpoint + 5 < w.target → Gives (.setpointStep acked) s { d with power := { w with setpoint := w.setpoint + 5, tries := 0, writeFailed := false } }) ∧
    (acked = true → w.target + 5 < w.setpoint → Gives (.setpointStep acked) s { d with power := { w with setpoint := w.setpoint - 5, tries := 0, writeFailed := false } }) ∧
    (acked = false → w.bus ≠ 0 → w.setpoint ≠ w.target →
      (w.tries < 2 → Gives (.setpointStep acked) s { d with power := { w with tries := w.tries + 1 } }) ∧
      (2 ≤ w.tries → Gives (.setpointStep acked) s { d with power := { w with tries := 0, writeFailed := true, target := w.setpoint, newTrims := [] } })))

/-! ### The dictionary (R322 to R329, R346 to R367) -/

/-- Writes of objects, staged fields, groups and the translator (R349, R354, R357, R358): a write that the object's rule allows takes effect, and
one that it does not is refused with the lowest of its codes. A write for a function of die 1 crosses the seam, and is refused where no link carries it (R14).
A write of 0 to TranslatorCommit resets the translator's staging copy (R354). ConfigStream is refused by security fuse 0, and bytes short of a header wait
(R324, R365).
Completes: REGISTER_WRITE, STAGED_WRITE, GROUP_COMMIT, STAGING_RESET, TRANSLATOR_COMMIT, CONFIG_STREAM. -/
def Obligations.DictionaryObjects : Prop :=
  ∀ (s : State) (via : Transport) (index : BitVec 16) (sub : Byte) (b : List Byte), Reaches s via →
    let d := s.dev; let i := index.toNat; let j := sub.toNat
    (objInfo i j = none → Refuses (.registerWrite via (.object index sub) b) s via i j 0x01000001) ∧
    (b.length = 4 → 1 ≤ leNat b → leNat b ≤ 1000000 →
      Gives (.registerWrite via (.object 0x2060 1) b) s (d.setObj 0x2060 1 b) ∧ (d.setObj 0x2060 1 b).obj 0x2060 1 = b) ∧
    (b.length = 4 → (leNat b = 0 ∨ 1000000 < leNat b) → Refuses (.registerWrite via (.object 0x2060 1) b) s via 0x2060 1 0x01000005) ∧
    (b.length ≠ 4 → Refuses (.registerWrite via (.object 0x2060 1) b) s via 0x2060 1 0x01000004) ∧
    (∀ f : Nat, f < 4096 → b.length = 4 → d.pins.clocks = true →
      Gives (.registerWrite via (.sequencer (BitVec.ofNat 26 (0x10000 + 4 * f))) b) s (d.setFlag f (BitVec.ofNat 32 (leNat b))) ∧
      Gives (.registerWrite via (.sequencer (BitVec.ofNat 26 (4 * f))) b) s (d.setFlag f (d.flag f + BitVec.ofNat 32 (leNat b)))) ∧
    (∀ o, objInfo i j = some o → o.access = .staged → o.type.lengthOk b.length = true → ObjReached d i j →
      let e := d.overSeam true i j b.length
      Gives (.stagedWrite via index sub b) s
        { e with staging := if b = d.obj i j then tabErase d.staging (okey i j) else tabSet d.staging (okey i j) b }) ∧
    (∀ o, objInfo i j = some o → o.access = .staged → o.type.lengthOk b.length = true → d.seamCauses i j ≠ [] →
      Refuses (.stagedWrite via index sub b) s via i j 0x06000001) ∧
    (i ∈ groups →
      Gives (.stagingReset via index) s { d with staging := d.staging.filter fun e => e.1 / 256 ≠ i } ∧
      (∀ code, lowest (d.commitCauses i d.staged) = some code → Refuses (.groupCommit via index) s via i 0 code) ∧
      (d.commitCauses i d.staged = [] → ∃ t, Gives (.groupCommit via index) s t ∧
        (∀ e ∈ groupSubs i, t.obj i e = d.staged i e) ∧ t.staging = d.staging.filter (fun e => e.1 / 256 ≠ i) ∧
        (∀ g e, e < 256 → g ≠ i → t.obj g e = d.obj g e))) ∧
    (∀ code, d.translatorCommit = .error code → Refuses (.translatorCommit via) s via 0x4110 1 code) ∧
    (∀ t, d.translatorCommit = .ok t → (d.staging.map Prod.fst).Nodup →
      Gives (.translatorCommit via) s t ∧ t.staging = d.staging.filter (fun e => !isEntryKey e.1) ∧
      ∀ e ∈ d.staging, isEntryKey e.1 = true → t.obj (e.1 / 256) (e.1 % 256) = e.2) ∧
    (s.fuses.security.getLsbD 0 = true → Ignored (.configStream via b) s) ∧
    (s.fuses.security.getLsbD 0 = false → d.cfg.load = none → d.cfg.feeds = [] → b.length < 64 →
      Gives (.configStream via b) s { d with cfg := { d.cfg with feeds := [{ who := (via, none), bytes := b, skip := 0, spent := false }] } }) ∧
    Gives (.registerWrite via (.object 0x4110 1) [0]) s { d with staging := d.staging.filter fun e => !isEntryKey e.1 }

/-- A write of 0 to a profile puts the fields of its groups at their defaults in one step (R47, R72, R98, R174, R222, R241, R269, R293, R315, R348,
R356, R387). No round is open here, no ring holds a buffer, no stream is enabled, and Topology is within the default path budget. -/
def Obligations.ProfilesRestoreDefaults : Prop :=
  ∀ (s : State) (via : Transport), Reaches s via → s.dev.rounds = [] → (∀ n, s.dev.ringsBusy n = false) →
    (∀ e ∈ s.dev.streams, e.2.enable = false) → budgetOk (topoOf (s.dev.obj 0x4111 1)) s.dev.saeri.departed.contains (s.dev.objNat 0x1110 1) 4000 = true →
    ∀ p ∈ [(Instr.formatProfile via 0, [0x4020]), (.arrayProfile via 0, [0x4031]), (.reductionProfile via 0, [0x4040, 0x4041]),
           (.fusionProfile via 0, [0x4070, 0x4071]), (.memoryProfile via 0, [0x4090]), (.hbmProfile via 0, [0x4410]), (.nocProfile via 0, [0x4100]),
           (.saeriProfile via 0, [0x4112, 0x4113, 0x4114]), (.laneProfile via 0, [0x4120]), (.fabricProfile via 0, [0x4130]),
           (.configProfile via 0, [0x4140]), (.powerProfile via 0, [0x4160, 0x4161])],
      ∃ t, Gives p.1 s t ∧ (∀ g ∈ p.2, ∀ e ∈ groupSubs g, t.obj g e = objDefault (okey g e)) ∧
        t.rounds = [] ∧ t.descs = s.dev.descs ∧ t.flags = s.dev.flags ∧ t.counters = s.dev.counters

/-- Keys and fuses, Reprogram, halts, the Reckoner's run and bank, statistics and probes through the dictionary (R96, R195, R196, R238, R239,
R325, R329). A write for a core of die 1 crosses the seam (R14). A Reckoner that starts asks for a wake of its cluster (R193). Reprogram leaves of the
open rounds only the frames that tell their groups of HOST_ABORT.
Completes: REPROGRAM, BBRAM_KEY, BBRAM_ERASE, FUSE_PROGRAM, EFUSE_KEY, CORE_HALT, CORE_RELEASE, RECKONER_RUN_START, RECKONER_STOP_REQUEST, IBANK_SELECT,
NOC_STATS_CLEAR, PROBE_ARM, PROBE_DISARM. -/
def Obligations.DictionaryControls : Prop :=
  ∀ (s : State) (via : Transport) (c : CoreId) (key : List Byte) (mask : Word), Reaches s via → (c.toNat < 64 ∨ NetworkWhole s.dev) →
    let d := s.dev; let n := c.toNat; let k := (d.core n).rk; let fz := s.fuses
    let crossed (i : Nat) : Dev := d.overSeam true i (n + 1) 1
    (n < 64 → ∀ i, crossed i = d) ∧
    Gives (.reprogram via 1) s { Dev.reset with
      bbramKey := d.bbramKey
      pins := { d.pins with doneReleased := false, resetCause := 2 }
      tally := { stuck1 := false, stuck0 := false,
                 frames := (d.rounds.filter fun r => r.peerGroup ≠ 0).map fun r => (r.number, false, Status.hostAbort) } } ∧
    Ignored (.reprogram via 0) s ∧
    (key.length = 32 → d.cfg.state = 0 → fz.security.getLsbD 5 = false → Gives (.bbramKey via key) s { d with bbramKey := some key }) ∧
    ((key.length ≠ 32 ∨ d.cfg.state ≠ 0 ∨ fz.security.getLsbD 5 = true) → Ignored (.bbramKey via key) s) ∧
    Gives (.bbramErase via 1) s { d with bbramKey := none } ∧
    (via = .mgmt → d.cfg.state = 0 →
      exec (.fuseProgram via mask) s = .next { s with fuses := { fz with security := fz.security ||| (mask.truncate 6 &&& 0b101111) } }) ∧
    (via ≠ .mgmt → Refuses (.fuseProgram via mask) s via 0x2140 6 (if d.cfg.state = 0 then 0x03000001 else 0x01000006)) ∧
    (via = .mgmt → d.cfg.state = 0 → fz.security.getLsbD 4 = false → fz.efuseKey = none → key.length = 32 →
      exec (.efuseKey via key) s = .next { s with fuses := { security := fz.security ||| 0b010000, efuseKey := some key } }) ∧
    ((via ≠ .mgmt ∨ d.cfg.state ≠ 0 ∨ fz.security.getLsbD 4 = true ∨ key.length ≠ 32) → Ignored (.efuseKey via key) s) ∧
    Gives (.coreHalt via c) s ((crossed 0x7042).updCore n fun x => { x with halt := if x.halt = 0 then 1 else x.halt }) ∧
    Gives (.coreRelease via c) s ((crossed 0x7042).updCore n fun x => { x with halt := 0 }) ∧
    (k.mode ≠ .running →
      (let started := ((crossed 0x2080).setObj 0x2080 (n + 1) [1]).updRk n fun k =>
        { k with main := Bank.reset, shadow := Bank.reset, mode := .running, waiting := false, inShadow := false, cause := 0, faultPc := 0,
                 stopReq := false }
       Gives (.reckonerRunStart via c) s
        (if (d.cluster (n / 8)).state = 0 then started else started.updCluster (n / 8) fun k => { k with wake := true })) ∧
      (k.abank = false →
        Gives (.ibankSelect via c 1) s (((crossed 0x2081).setObj 0x2081 (n + 1) [1]).updRk n fun k => { k with abank := true, swap := none }))) ∧
    (k.mode = .running →
      Gives (.reckonerStopRequest via c) s (((crossed 0x2080).setObj 0x2080 (n + 1) [0]).updRk n fun k => { k with stopReq := true }) ∧
      (k.abank = false → Gives (.ibankSelect via c 1) s (((crossed 0x2081).setObj 0x2081 (n + 1) [1]).updRk n fun k => { k with swap := some true }))) ∧
    (k.abank = true → Gives (.ibankSelect via c 1) s (((crossed 0x2081).setObj 0x2081 (n + 1) [1]).updRk n id)) ∧
    Refuses (.ibankSelect via c 2) s via 0x2081 (n + 1) 0x01000005 ∧
    Gives (.nocStatsClear via 1) s { d with noc := { d.noc with stats := [] } } ∧
    (d.rounds = [] → Gives (.probeArm via) s
      { d.setObj 0x7100 1 [1] with counters := d.counters.filter fun e => e.1 / 256 ≠ 0x7102, noc := { d.noc with trace := [] } }) ∧
    (d.rounds ≠ [] → Refuses (.probeArm via) s via 0x7100 1 0x01000006) ∧
    Gives (.probeDisarm via) s (d.setObj 0x7100 1 [0])

/-- Ports, lanes, leaving and resuming through the dictionary (R266, R268, R276, R278, R279). A write for a port or a lane of die 1 crosses the seam (R14).
The test of a lane (R291): a write of LaneTest clears LaneTestErrors; each bit in error adds one, up to 2^32 − 1.
Completes: PORT_ENABLE, PORT_DISABLE, BIT_SLIP, LANE_TEST_START, LANE_TEST_END, LANE_TEST_ERROR, LEAVE, PEER_RESUME. -/
def Obligations.PortControls : Prop :=
  ∀ (s : State) (via : Transport) (p : PortId) (l : LaneId) (v : Byte) (n : RoundNo), Reaches s via →
    ((p.toNat < 8 ∧ l.toNat < 64) ∨ NetworkWhole s.dev) →
    let d := s.dev; let q := d.port p.toNat; let x := d.port (l.toNat / 8)
    let crossed (i sub : Nat) : Dev := d.overSeam true i sub 1
    (p.toNat < 8 → crossed 0x2120 (p.toNat + 1) = d) ∧ (l.toNat < 64 → crossed 0x2121 (l.toNat + 1) = d ∧ crossed 0x7120 (l.toNat + 1) = d) ∧
    (d.cfg.state = 5 → q.enabled = false → ∃ t, Gives (.portEnable via p) s t ∧ t.port p.toNat = { Port.reset with enabled := true, step := 1 } ∧
      t.obj 0x2120 (p.toNat + 1) = [1] ∧ (∀ m, m ≠ p.toNat → t.port m = d.port m) ∧
      (∀ m, t.lane m = if m / 8 = p.toNat then
        { d.lane m with signal := false, cdr := false, lock := false, boundary := 0, peaking := d.objNat 0x4120 (m + 1), mark := none, marks := 0 }
        else d.lane m) ∧ t.mem = d.mem ∧ t.saeri = d.saeri) ∧
    (d.cfg.state = 5 → q.enabled = true → Gives (.portEnable via p) s (crossed 0x2120 (p.toNat + 1))) ∧
    (d.cfg.state ≠ 5 → Refuses (.portEnable via p) s via 0x2120 (p.toNat + 1) 0x01000006) ∧
    (d.cfg.state = 5 → q.step ≠ 7 → Gives (.portDisable via p) s (((crossed 0x2120 (p.toNat + 1)).setObj 0x2120 (p.toNat + 1) [0]).updPort p.toNat fun q =>
      { Port.reset with txSeq := q.txSeq, rxSeq := q.rxSeq })) ∧
    (d.cfg.state = 5 → q.step = 7 → ∃ t, Gives (.portDisable via p) s t ∧ (t.port p.toNat).step = 0 ∧ (t.port p.toNat).enabled = false ∧
      t.obj 0x2120 (p.toNat + 1) = [0]) ∧
    (1 ≤ v.toNat → v.toNat ≤ 66 → x.step = 3 →
      Gives (.bitSlip via l v) s ((crossed 0x2121 (l.toNat + 1)).updLane l.toNat fun y => { y with boundary := (y.boundary + v.toNat) % 66, lock := false })) ∧
    (1 ≤ v.toNat → v.toNat ≤ 66 → x.step ≠ 3 → Refuses (.bitSlip via l v) s via 0x2121 (l.toNat + 1) 0x01000006) ∧
    ((v.toNat = 0 ∨ 66 < v.toNat) → Refuses (.bitSlip via l v) s via 0x2121 (l.toNat + 1) 0x01000005) ∧
    (x.enabled = false →
      Gives (.laneTestStart via l) s (((crossed 0x7120 (l.toNat + 1)).setObj 0x7120 (l.toNat + 1) [1]).updLane l.toNat fun y => { y with test := true, testErrors := 0 }) ∧
      Gives (.laneTestEnd via l) s (((crossed 0x7120 (l.toNat + 1)).setObj 0x7120 (l.toNat + 1) [0]).updLane l.toNat fun y => { y with test := false, testErrors := 0 })) ∧
    (x.enabled = true → Refuses (.laneTestStart via l) s via 0x7120 (l.toNat + 1) 0x01000006 ∧
      Refuses (.laneTestEnd via l) s via 0x7120 (l.toNat + 1) 0x01000006) ∧
    (d.pins.clocks = true → (d.lane l.toNat).test = true →
      Gives (.laneTestError l) s (d.updLane l.toNat fun y => { y with testErrors := min (y.testErrors + 1) (2 ^ 32 - 1) })) ∧
    (d.rounds = [] → (∀ m, m < 16 → (d.port m).step ≠ 7) → ∃ t, Gives (.leave via 1) s t ∧ t.saeri = { d.saeri with left := true } ∧
      (∀ m, m < 16 → t.port m = Port.reset ∧ t.obj 0x2120 (m + 1) = [0]) ∧ t.mem = d.mem ∧ t.lanes = d.lanes) ∧
    (d.rounds = [] → ∃ t, Gives (.leave via 1) s t ∧ t.saeri.left = true ∧ ∀ m, m < 16 → t.obj 0x2120 (m + 1) = [0] ∧ (t.port m).step = 0) ∧
    (d.rounds ≠ [] → Refuses (.leave via 1) s via 0x2110 3 0x01000006) ∧ Ignored (.leave via 0) s ∧
    (∀ r, d.round? n = some r → r.hold = .peer → r.phase ≠ .running → ∃ t, Gives (.peerResume via n) s t ∧
      t.rounds = d.rounds.map (fun e => if e.number = n then
        { e with
          hold := .none
          waitRegions := []
          settings := (e.settings.filter fun k => decide (k.1 / 256 < 0x4112 ∨ 0x4114 < k.1 / 256)) ++
            d.objs.filter fun k => decide (0x4112 ≤ k.1 / 256 ∧ k.1 / 256 ≤ 0x4114) } else e) ∧ t.mem = d.mem ∧ t.objs = d.objs) ∧
    (d.round? n = none → Ignored (.peerResume via n) s) ∧
    (∀ r, d.round? n = some r → (r.hold ≠ .peer ∨ r.phase = .running) → Ignored (.peerResume via n) s)

/-! ### Transfers and the mailbox (R359 to R364) -/

/-- The transfer protocol (R363, R364): a value that fits one segment is read in one frame with its length before it; a write of one segment acts as
a write of the object and is acknowledged; an abort ends a transfer; 100 ms of silence abort it; the mailbox holds one response at a time (R360). A value of a function of
die 1 comes over the seam (R14).
Completes: TRANSFER_READ, WRITE_SEGMENT, READ_ACKNOWLEDGE, CLIENT_ABORT, TRANSFER_TIMEOUT, REQLEN_WRITE, RSPLEN_FREE. -/
def Obligations.Transfers : Prop :=
  ∀ (s : State) (f : TFrame) (v : List Byte) (tid : Byte) (ms : Nat), s.dev.pins.clocks = true → s.dev.pins.straps.mgtAddr ≠ 0 →
    let d := s.dev; let via : Transport := .mgmt; let old := d.findTransfer via f.tid
    let room := (d.dict.transfers.filter fun t => sameBus t.via via).length < 4
    (f.cmd = 1 → f.flags.toNat < 4 → old = none → room → 4 + v.length ≤ 56 →
      d.objRead s.fuses via f.index.toNat f.sub.toNat (f.flags.getLsbD 1) = .ok v →
      Gives (.transferRead via f) s ((d.overSeam false f.index.toNat f.sub.toNat v.length).sendFrame via
        { cmd := 0x81, tid := f.tid, index := f.index, sub := f.sub, flags := 1, seq := 0, data := leBytes 4 v.length ++ v })) ∧
    (∀ code, f.cmd = 1 → f.flags.toNat < 4 → old = none → room →
      d.objRead s.fuses via f.index.toNat f.sub.toNat (f.flags.getLsbD 1) = .error code →
      Gives (.transferRead via f) s (d.sendFrame via
        { cmd := 0x85, tid := f.tid, index := f.index, sub := f.sub, flags := 0, seq := 0, data := leBytes 4 code })) ∧
    (f.cmd = 1 → f.flags.toNat < 4 → old = none → ¬room → Gives (.transferRead via f) s (d.sendFrame via
        { cmd := 0x85, tid := f.tid, index := f.index, sub := f.sub, flags := 0, seq := 0, data := leBytes 4 0x04000003 })) ∧
    (∀ fz' d', f.cmd = 2 → f.flags.toNat = 1 → f.seq = 0 → old = none → room → f.data = leBytes 4 v.length ++ v → v.length ≤ 52 →
      ¬(f.index.toNat = 0x2140 ∧ f.sub.toNat = 2) → dictWrite s.fuses d via f.index.toNat f.sub.toNat v = .ok (fz', d') →
      exec (.writeSegment via f) s = .next (State.withDev { s with fuses := fz' } (d'.sendFrame via
        { cmd := 0x82, tid := f.tid, index := f.index, sub := f.sub, flags := 1, seq := 0, data := [] }))) ∧
    (∀ t, f.cmd = 4 → f.flags.toNat = 0 → old = some t → t.write = false → f.seq.toNat + 1 = t.next →
      Gives (.readAcknowledge via f) s (d.readBatch t)) ∧
    (∀ t, f.cmd = 5 → f.flags.toNat = 0 → old = some t → ¬(t.index.toNat = 0x2140 ∧ t.sub.toNat = 2) →
      Gives (.clientAbort via f) s { d with dict := { d.dict with transfers := d.dict.transfers.filter fun u => u ≠ t } }) ∧
    (f.cmd = 5 → f.flags.toNat = 0 → old = none → Ignored (.clientAbort via f) s) ∧
    (∀ t, d.findTransfer via tid = some t → ¬(t.index.toNat = 0x2140 ∧ t.sub.toNat = 2) → 100 ≤ ms →
      Gives (.transferTimeout via tid ms) s (Dev.sendFrame { d with dict := { d.dict with transfers := d.dict.transfers.filter fun u => u ≠ t } } t.via
        { cmd := 0x85, tid := tid, index := t.index, sub := t.sub, flags := 0, seq := 0, data := leBytes 4 0x04000001 })) ∧
    (ms < 100 → Ignored (.transferTimeout via tid ms) s) ∧
    (∀ len : Word64, (len.toNat < 8 ∨ 2048 < len.toNat) → Gives (.reqlenWrite len) s (d.mirrorAbort 0x1FFF 0xFF 0x01000004)) ∧
    (∀ len : Word64, 8 ≤ len.toNat → len.toNat ≤ 2048 →
      Gives (.reqlenWrite len) s (frameIn s.fuses d .pcie (bytesFrame (tableBytes d.dict.request len.toNat))).2) ∧
    (d.dict.out = [] → Gives (.rsplenFree 0) s { d with dict := { d.dict with response := [] } }) ∧
    (∀ g rest, d.dict.out = (.pcie, g) :: rest →
      Gives (.rsplenFree 0) s { d with dict := { d.dict with response := frameBytes g, out := rest } })

/-! ### The host port and the fabric ports (R301 to R312, R402 to R404, R418) -/

/-- HOST_READ answers what memory holds, HOST_WRITE changes the bytes that it names and no other; the loss of the link, a function-level reset and
PERST do what R403, R404 and R418 say.
Completes: HOST_READ, HOST_WRITE, HOST_LINK_DOWN, FUNCTION_LEVEL_RESET, PCIE_PERST. -/
def Obligations.HostPort : Prop :=
  ∀ (s : State) (a : BitVec 52) (n : Nat) (b : List Byte), s.dev.pins.clocks = true → FreshIds s.dev →
    let d := s.dev
    let stops (t : Dev) : Prop := (∀ k, t.stream k = { d.stream k with enable := false }) ∧
      t.rounds = d.rounds.map (fun r => r.raise d.cycles .hostAbort) ∧ t.mem = d.mem ∧ t.descs = d.descs
    (MemoryReady d a.toNat n → ∃ t, Gives (.hostRead a n) s t ∧ t.mem = d.mem ∧ t.accesses = d.accesses ∧ t.flags = d.flags ∧ t.cores = d.cores ∧
      t.hostOut = d.hostOut ++ [{ status := .done, data := memRead d.mem a.toNat n }]) ∧
    (MemoryWritable d a.toNat b.length → ∃ t, Gives (.hostWrite a b) s t ∧ t.accesses = d.accesses ∧ t.flags = d.flags ∧ t.cores = d.cores ∧
      t.mem = memWrite d.mem a.toNat b ∧ t.hostOut = d.hostOut ++ [{ status := .done, data := [] }] ∧
      ∀ k, memGet t.mem k = if a.toNat ≤ k ∧ k < a.toNat + b.length then b.getD (k - a.toNat) 0 else memGet d.mem k) ∧
    (d.imports = [] → 0 < n → d.regionOfRange a.toNat n = .reserved → ∃ t, Gives (.hostRead a n) s t ∧ t.mem = d.mem ∧
      t.hostOut = d.hostOut ++ [{ status := .address, data := deadBytes a.toNat n }]) ∧
    (d.objNat 0x2170 2 ≠ 1 → Gives .hostLinkDown s (d.bump 0x3170 7 1)) ∧
    ((d.rounds.map Round.number).Nodup →
      (d.objNat 0x2170 2 = 1 → ∃ t, Gives .hostLinkDown s t ∧ t.count 0x3170 7 = (d.count 0x3170 7 + 1) % 2 ^ 64 ∧ stops t) ∧
      (∃ t, Gives .functionLevelReset s t ∧ t.pins = { d.pins with pcieResets := d.pins.pcieResets + 1 } ∧ stops t)) ∧
    Gives .pciePerst s { d with pins := { d.pins with pcieResets := d.pins.pcieResets + 1 }, hostOut := [] }

/-- A command word of a fabric port has the fields of R301; a reserved OP, or bits that are not 0 where they must be, is answered with BAD_DESCRIPTOR, and
so is a command of a round that is not open; one of an attempt that has ended gets that attempt's status (R303, R306).
READ, WRITE and INJECT without a round (R302, R305, R307): a WRITE changes the bytes that it names; an INJECT appends its descriptor at TAIL, waits where the ring is
full, and is refused by a stream that is not marked or not enabled.
TAKE, RELEASE and FLAGADD without a round, and what fabric logic answers to a delivered access, by the OP and TAG of its response word (R302, R303, R308,
R309, R311, R312).
Completes: READ, WRITE, INJECT, INJECT_RESUME, TAKE, RELEASE, FLAGADD, FABRIC_RESPONSE, FABRIC_TIMEOUT. -/
def Obligations.FabricPortCommands : Prop :=
  (∀ (op : BitVec 4) (cmd : FabCmd), fabDecode (commandWord op cmd) cmd.beats = (op, cmd)) ∧
  (∀ (s : State) (c : CoreId) (op : BitVec 4) (cmd : FabCmd) (r : Round),
    let d := s.dev; let n := c.toNat
    (PortAccepts s c cmd 0 → (op = 0 ∨ 6 < op.toNat) →
      Gives (.read c (fabCommand op cmd)) s (d.fabAnswer n op cmd .badDescriptor 0 0)) ∧
    (PortAccepts s c cmd 0 → cmd.rsvd ≠ 0 → Gives (.read c (fabCommand 1 cmd)) s (d.fabAnswer n 1 cmd .badDescriptor 0 0)) ∧
    (PortAccepts s c cmd 0 → cmd.rsvd = 0 → cmd.rvalid = true →
      (d.round? cmd.round = none → Gives (.read c (fabCommand 1 cmd)) s (d.fabAnswer n 1 cmd .badDescriptor 0 0)) ∧
      (∀ e, d.round? cmd.round = some r → (r.phase ≠ .running ∨ cmd.attempt.toNat ≠ min r.attempt 7) →
        r.endings.find? (fun e => cmd.attempt.toNat = min e.1 7) = some e →
        Gives (.read c (fabCommand 1 cmd)) s (d.fabAnswer n 1 cmd e.2 0 0))) ∧
    ((op ≠ 1 ∧ op ≠ 0 ∧ op.toNat ≤ 6) → Ignored (.read c (fabCommand op cmd)) s)) ∧
  (∀ (s : State) (c : CoreId) (cmd : FabCmd),
    let d := s.dev; let n := c.toNat; let a := cmd.addr.toNat; let len := cmd.lenm1.toNat + 1; let x := d.stream a
    let slot := x.ringBase.toNat + 128 * x.tail.toNat; let ready := x.enable = true ∧ x.full = false ∧ d.injecting a = false ∧ d.injectLate n a = false
    FreshIds d →
    (PortTakes s c cmd 0 → a / 4096 = (a + len - 1) / 4096 → MemoryReady d a len → ∃ t, Gives (.read c (fabCommand 1 cmd)) s t ∧
      t.mem = d.mem ∧ t.accesses = d.accesses ∧ (t.core n).port.outstanding = (d.core n).port.outstanding ∧
      (t.core n).port.responses = portAnswered d c 1 cmd .done 0 0 (beatsOf (memRead d.mem a len))) ∧
    (PortTakes s c cmd ((len + 63) / 64) → a / 4096 = (a + len - 1) / 4096 → MemoryWritable d a len →
      ∃ t, Gives (.write c (fabCommand 2 cmd)) s t ∧
      t.mem = memWrite d.mem a (slice cmd.beats 0 len) ∧ t.accesses = d.accesses ∧
      (t.core n).port.responses = portAnswered d c 2 cmd .done 0 0 []) ∧
    (PortTakes s c cmd 0 → a / 4096 ≠ (a + len - 1) / 4096 → Gives (.read c (fabCommand 1 cmd)) s (d.fabAnswer n 1 cmd .address 0 0)) ∧
    (PortTakes s c cmd ((len + 63) / 64) → a / 4096 ≠ (a + len - 1) / 4096 →
      Gives (.write c (fabCommand 2 cmd)) s (d.fabAnswer n 2 cmd .address 0 0)) ∧
    (PortTakes s c cmd 2 → cmd.lenm1 = 0 → a < 256 →
      ((d.fabricStream a = false ∨ x.enable = false) → Gives (.inject c (fabCommand 3 cmd)) s (d.fabAnswer n 3 cmd .address 0 0)) ∧
      (d.fabricStream a = true → x.enable = true → x.full = true →
        Gives (.inject c (fabCommand 3 cmd)) s
          (d.updFab n fun p => { p with outstanding := p.outstanding ++ [(3, cmd)], injects := p.injects ++ [cmd] })) ∧
      (d.fabricStream a = true → ready → MemoryWritable d slot 128 → ∃ t, Gives (.inject c (fabCommand 3 cmd)) s t ∧
          t.mem = memWrite d.mem slot cmd.beats ∧
          (t.stream a).tail = BitVec.ofNat 16 ((x.tail.toNat + 1) % (16 * x.size.toNat)) ∧
          t.count 0x3130 4 = (d.count 0x3130 4 + 1) % 2 ^ 64 ∧
          (t.core n).port.responses = portAnswered d c 3 cmd .done 0 (x.tail.setWidth 52) [])) ∧
    (d.pins.clocks = true → (∀ q ∈ (d.core n).port.injects, d.injectOpen q.addr.toNat = true ∧ (d.stream q.addr.toNat).full = true) →
      Ignored (.injectResume c) s) ∧
    (∀ rest, d.pins.clocks = true → (d.core n).port.injects = cmd :: rest → d.fabricStream a = true → ready →
      (3, cmd) ∈ (d.core n).port.outstanding → cmd.beats.length = 128 → MemoryWritable d slot 128 → ∃ t, Gives (.injectResume c) s t ∧
        t.mem = memWrite d.mem slot cmd.beats ∧ (t.core n).port.injects = rest ∧
        (t.stream a).tail = BitVec.ofNat 16 ((x.tail.toNat + 1) % (16 * x.size.toNat)) ∧
        (t.core n).port.responses = portAnswered d c 3 cmd .done 0 (x.tail.setWidth 52) []) ∧
    (∀ rest, d.pins.clocks = true → (d.core n).port.injects = cmd :: rest → d.injectOpen a = false →
      let left := d.updFab n fun p => { p with injects := rest }
      ((3, cmd) ∈ (d.core n).port.outstanding → Gives (.injectResume c) s (left.fabAnswer n 3 cmd .address 0 0)) ∧
      ((3, cmd) ∉ (d.core n).port.outstanding →
        Gives (.injectResume c) s (left.updFab n fun p => { p with orphans := p.orphans.erase (3, cmd) })))) ∧
  (∀ (s : State) (c : CoreId) (cmd : FabCmd),
    let d := s.dev; let n := c.toNat; let a := cmd.addr.toNat
    (PortTakes s c cmd 0 → cmd.lenm1 = 0 → a < 16 →
      ((d.ringCfg n a).port = false → Gives (.take c (fabCommand 4 cmd)) s (d.fabAnswer n 4 cmd .badDescriptor 0 0)) ∧
      ((d.ringCfg n a).port = true → (d.ring n a).queue = [] → Gives (.take c (fabCommand 4 cmd)) s (d.fabAnswer n 4 cmd .empty 0 0)) ∧
      (∀ h rest, (d.ringCfg n a).port = true → (d.ring n a).queue = h :: rest →
        (h.committed = false → Gives (.take c (fabCommand 4 cmd)) s (d.fabAnswer n 4 cmd .empty 0 0)) ∧
        (h.committed = true → Gives (.take c (fabCommand 4 cmd)) s
          ((d.updRing n a fun g => { queue := rest, held := g.held ++ [{ handle := h, holder := .port false cmd.round false false }] }).fabAnswer n 4 cmd
            .done (BitVec.ofNat 3 h.buf) (BitVec.ofNat 52 (d.bufAddr n a h.buf)))))) ∧
    (PortTakes s c cmd 0 → cmd.lenm1 = 0 → a < 128 →
      ((∀ e ∈ (d.ring n (a % 16)).held, e.ofPort (a / 16) = false) →
        Gives (.release c (fabCommand 5 cmd)) s (d.fabAnswer n 5 cmd .badDescriptor 0 0)) ∧
      (∀ e, e ∈ (d.ring n (a % 16)).held → e.ofPort (a / 16) = true → ∃ t, Gives (.release c (fabCommand 5 cmd)) s t ∧
        (t.core n).port.responses = portAnswered d c 5 cmd .done 0 0 [] ∧
        (∀ g ∈ (t.ring n (a % 16)).held, g.ofPort (a / 16) = false) ∧ (t.ring n (a % 16)).queue = (d.ring n (a % 16)).queue)) ∧
    (PortTakes s c cmd 1 → cmd.lenm1 = 0 → a < 2 ^ 24 →
      let node : NodeId := BitVec.ofNat 12 (a / 2 ^ 12)
      (d.isHere node = true → Gives (.flagadd c (fabCommand 6 cmd)) s
        ((d.setFlag (a % 2 ^ 12) (d.flag (a % 2 ^ 12) + BitVec.ofNat 32 (field cmd.beats 0 4))).fabAnswer n 6 cmd .done 0 0)) ∧
      (d.isHere node = false → (topoOf (d.obj 0x4111 1)).pos? (a / 2 ^ 12) = none →
        Gives (.flagadd c (fabCommand 6 cmd)) s (d.fabAnswer n 6 cmd .address 0 0)) ∧
      (d.isHere node = false → (topoOf (d.obj 0x4111 1)).pos? (a / 2 ^ 12) ≠ none →
        (d.nodeLost node = true → Gives (.flagadd c (fabCommand 6 cmd)) s (d.fabAnswer n 6 cmd .peerLost 0 0)) ∧
        (d.nodeLost node = false → Gives (.flagadd c (fabCommand 6 cmd)) s
          ((d.updFab n fun p => { p with outstanding := p.outstanding ++ [(6, cmd)] }).saeriRequest node 0x05 (a % 2 ^ 12) 4
            (slice cmd.beats 0 4) (.flagAdd (some (c, cmd)))))))) ∧
  (∀ (s : State) (c : CoreId) (hi lo : Word64) (cw : BitVec 128) (p : Part) (rest : List (BitVec 128 × Part)) (b : List Byte) (cycles : Nat),
    s.dev.pins.clocks = true → (s.dev.core c.toNat).port.delivered = (cw, p) :: rest →
    let d := s.dev; let n := c.toNat; let d1 := d.updFab n fun f => { f with delivered := rest }; let w := hi ++ lo
    let answers := w.toNat / 2 ^ 124 = cw.toNat / 2 ^ 124 ∧ w.toNat / 2 ^ 118 % 64 = cw.toNat / 2 ^ 82 % 64
    let status := w.toNat / 2 ^ 110 % 256; let tag : BitVec 6 := BitVec.ofNat 6 (cw.toNat / 2 ^ 82)
    let whole := b.length = (if p.data = none then 64 * ((p.len + 63) / 64) else 0)
    (answers → status = 0 → whole → Gives (.fabricResponse c hi lo b) s (d1.partDone p .done (slice b 0 p.len))) ∧
    (answers → status = 0 → ¬whole → Ignored (.fabricResponse c hi lo b) s) ∧
    (answers → status ≠ 0 → Gives (.fabricResponse c hi lo b) s (d1.partDone p .address (deadBytes p.addr p.len))) ∧
    (cycles < d.objNat 0x4130 2 → Ignored (.fabricTimeout c tag cycles) s) ∧
    (d.objNat 0x4130 2 ≤ cycles →
      Gives (.fabricTimeout c tag cycles) s (((d.bump 0x3130 3 1).updFab n fun f => { f with delivered := rest }).partDone p .address
        (deadBytes p.addr p.len)))) ∧
  (∀ (s : State) (c : CoreId) (hi lo : Word64) (b : List Byte), (∀ e ∈ (s.dev.core c.toNat).port.delivered, commandTag e.1 ≠ responseTag (hi ++ lo)) →
    Ignored (.fabricResponse c hi lo b) s)

/-! ### The on-chip network (R223 to R241) -/

/-- Requests, answers and adds that arrive over the network, in the order of their ports and channel (R228 to R236): a read is answered with the bytes of
memory, or with HW_UNCORRECTABLE where a word that it reads has an error that cannot be corrected; a write changes exactly its bytes and is acknowledged; a
response reaches the initiator whose request it answers and enters its record (R238), and is discarded where nothing asked or the attempt has ended (R234);
a flag add adds; a carry partial and the last packet of a tile reach their core while the attempt runs.
Completes: NOC_READ, NOC_WRITE, NOC_READ_DATA, NOC_WRITE_ACK, NOC_FLAG_ADD, NOC_CARRY_PARTIAL, NOC_WEIGHT_ROW, NOC_MANAGEMENT. -/
def Obligations.NetworkPackets : Prop :=
  ∀ (s : State) (k : NocPacket) (latency : Nat),
    let d := s.dev; let a := k.addr.toNat; let len := k.lenm1.toNat + 1; let left := nocLeft d k
    let room := (d.noc.outstanding.filter fun q => q.src == k.src).length < 4096
    let served (ans : NocPacket) : Noc :=
      { d.noc with flight := d.noc.flight.erase k ++ [ans], outstanding := d.noc.outstanding ++ [k] }
    let delivered (q : NocPacket) (st : Table InitStats) : Dev :=
      { d with noc := { d.noc with flight := d.noc.flight.erase k, outstanding := d.noc.outstanding.erase q, received := d.noc.received ++ [k], stats := st } }
    FreshIds d →
    (∀ us, NocReaches s k 0x01 → room → MemoryReady (d.strikes us) a len → ∃ t, Gives (.nocRead k us) s t ∧ t.mem = d.mem ∧
      t.accesses = d.accesses ∧ t.cores = d.cores ∧ t.noc = served (nocAnswer k .done (memRead d.mem a len))) ∧
    (∀ us w c, NocReaches s k 0x01 → room → d.imports = [] → d.regionOfRange a len = .tile c → d.sleeping? a len = none → w ∈ wordsOf a len →
      w ∈ (d.strikes us).badWords → ∃ t, Gives (.nocRead k us) s t ∧ t.mem = d.mem ∧
      t.noc = served (nocAnswer k .hwUncorrectable (deadBytes a len))) ∧
    (∀ b, NocReaches s k 0x02 → room → k.body = .bytes b → b.length = len → MemoryWritable d a len → ∃ t, Gives (.nocWrite k) s t ∧
      t.mem = memWrite d.mem a b ∧ t.accesses = d.accesses ∧ t.cores = d.cores ∧ t.noc = served (nocAnswer k .done [])) ∧
    (∀ q, NocReaches s k 0x03 → d.nocRequestOf k = some q → k.rslot = 0x7F →
      (statKey k.dest k.vc false = none → Gives (.nocReadData k latency) s (delivered q d.noc.stats)) ∧
      (∀ key, statKey k.dest k.vc false = some key →
        let old := tabGet { read := 0, written := 0, bins := [] } d.noc.stats key
        ∃ bin r, ((bin = 0 ∧ latency < 64) ∨ (1 ≤ bin ∧ bin < 15 ∧ 64 * 2 ^ (bin - 1) ≤ latency ∧ latency < 64 * 2 ^ bin) ∨
            (bin = 15 ∧ 1048576 ≤ latency)) ∧
          r.read = old.read + len ∧ r.written = old.written ∧
          (∀ q, tabGet 0 r.bins q = if q = bin then min (tabGet 0 old.bins q + 1) (2 ^ 32 - 1) else tabGet 0 old.bins q) ∧
          Gives (.nocReadData k latency) s (delivered q (tabSet d.noc.stats key r)))) ∧
    (NocReaches s k 0x03 → d.nocRequestOf k = none → Gives (.nocReadData k latency) s left) ∧
    (∀ q, NocReaches s k 0x04 → d.nocRequestOf k = some q →
      let st := Status.ofCode k.status.toNat
      let stats := match statKey k.dest k.vc true with
        | some key => let old := tabGet { read := 0, written := 0, bins := [] } d.noc.stats key; tabSet d.noc.stats key { old with written := old.written + len }
        | none => d.noc.stats
      (k.rslot = 0x7F → Gives (.nocWriteAck k) s (delivered q stats)) ∧
      (∀ r, k.rslot ≠ 0x7F → d.slotRound k.rslot.toNat = some r →
        (r.phase = .running → st.isSuccess = true → Gives (.nocWriteAck k) s (delivered q stats)) ∧
        (r.phase = .running → st.isSuccess = false →
          Gives (.nocWriteAck k) s ((delivered q stats).updRound r.number fun q => q.raise d.cycles st)) ∧
        (r.phase ≠ .running → ∃ t, Gives (.nocWriteAck k) s t ∧ t.noc.received = d.noc.received ∧ t.rounds = d.rounds))) ∧
    (NocReaches s k 0x04 → d.nocRequestOf k = none → Gives (.nocWriteAck k) s left) ∧
    (∀ b f, NocReaches s k 0x05 → k.body = .bytes b → f < 4096 → a = seqBase + 4 * f →
      Gives (.nocFlagAdd k) s (left.setFlag f (d.flag f + BitVec.ofNat 32 (field b 0 4)))) ∧
    (∀ n m, NocReaches s k 0x06 → k.body = .carry n m →
      (d.attemptRuns m.round = true → (d.cluster (n.toNat / 8)).state = 0 →
        Gives (.nocCarryPartial k) s (left.updCore n.toNat fun c => { c with carryIn := c.carryIn ++ [m] })) ∧
      (d.attemptRuns m.round = false → Gives (.nocCarryPartial k) s left)) ∧
    (∀ n ord b r, NocReaches s k 0x07 → k.body = .tile ord b → coreOfEnd k.dest = some n → d.slotRound k.rslot.toNat = some r → r.phase = .running →
      (d.cluster (n / 8)).state = 0 → b.length = len →
      let h := tileHdrOf a; let piece := a % 64; let chain := a / 2 ^ 20 % 64
      let tile : ChainTile := { hdr := h, chain := chain, round := r.number, ordinal := ord, tile := a / 2 ^ 8 % 4096, codes := [] }
      let mine (p : TilePart) : Bool := p.net && p.tile.chain == chain && p.tile.round == r.number
      b.length = min 256 (tileBytes h - 256 * piece) →
      ∀ p, (if piece = 0 then p = { net := true, tile := tile, bytes := [], next := 0 }
            else (d.core n).chainParts.find? (fun p => mine p && p.next == piece && p.tile == tile) = some p) →
        let rest := (d.core n).chainParts.filter fun p => !mine p
        (piece + 1 < tilePieces h → Gives (.nocWeightRow k) s (left.updCore n fun c =>
          { c with chainParts := { p with bytes := p.bytes ++ b, next := piece + 1 } :: rest })) ∧
        (tilePieces h ≤ piece + 1 → Gives (.nocWeightRow k) s (left.updCore n fun c =>
          { c with chainParts := rest, chainIn := c.chainIn ++ [tileOfImage p.tile (p.bytes ++ b)] }))) ∧
    (NocReaches s k 0x08 → Gives (.nocManagement k) s left) ∧
    (d.pins.clocks = true → (k.op ≠ 0x08 ∨ nocOk k = false ∨ d.nocFirst k = false) → Ignored (.nocManagement k) s)

/-- Replays and links (R225, R232, R233): a replay of a packet on the link that it uses is counted; after three that failed the packet is dropped, its loss counted, and
its link set to leave its bundle; the round in RSLOT fails with HW_UNCORRECTABLE, or without one the initiator is told in a response. A packet whose route has
no working link fails so too. A drained bundle resumes without the link, which LinkHealth shows, and what waited before it goes on; while a packet is on
it, it does not.
Completes: FLIT_REPLAY, LINK_REMOVAL. -/
def Obligations.NetworkFailures : Prop :=
  ∀ (s : State) (k : NocPacket) (bundle : BitVec 6) (link : BitVec 3) (failures : Nat), s.dev.pins.clocks = true → s.dev.objNat 0x7100 1 ≠ 1 →
    let d := s.dev; let b := bundle.toNat; let l := link.toNat
    let onLink := nocOk k = true ∧ b ∈ bundlesOf k ∧ d.linkOf k b = some l
    let lost (d1 : Dev) : Dev :=
      let d2 := nocLeft d1 k
      if k.rslot = 0x7F then
        (if k.vc = 1 then
          match d.nocRequestOf k with
          | some q => { d2 with noc := { d2.noc with
              outstanding := d.noc.outstanding.erase q, received := d.noc.received ++ [{ k with status := BitVec.ofNat 8 Status.hwUncorrectable.code, body := .none }] } }
          | none => d2
        else { d2 with noc := { d2.noc with flight := d2.noc.flight ++ [nocAnswer k .hwUncorrectable []] } })
      else match d.slotRound k.rslot.toNat with
        | some r => d2.updRound r.number fun q => q.raise d.cycles .hwUncorrectable
        | none => d2
    (onLink → failures < 3 → Gives (.flitReplay k bundle link failures) s (d.bump 0x3100 2 1)) ∧
    (onLink → 3 ≤ failures → d.noc.draining = [] → ∃ t, Gives (.flitReplay k bundle link failures) s t ∧ t.noc.draining = [(b, l)] ∧
      t = { lost (d.bump 0x3100 3 1) with noc := { (lost (d.bump 0x3100 3 1)).noc with draining := [(b, l)] } }) ∧
    (¬onLink → Ignored (.flitReplay k bundle link failures) s) ∧
    (k.op = 0x08 → nocOk k = true → d.nocFirst k = true → d.noc.draining = [] → d.pathDead k = true → Gives (.nocManagement k) s (lost d)) ∧
    ((b, l) ∈ d.noc.draining → b < 52 → l < 6 → (∀ q ∈ d.noc.flight, b ∉ bundlesOf q) → ∃ t, Gives (.linkRemoval bundle link) s t ∧
      tabGet 0 t.noc.health b = tabGet 0 d.noc.health b ||| (1 : Byte) <<< l ∧ (b, l) ∉ t.noc.draining ∧
      (∀ q, q ≠ b → tabGet 0 t.noc.health q = tabGet 0 d.noc.health q) ∧ t.mem = d.mem ∧ t.cores = d.cores ∧ t.rounds = d.rounds ∧
      (d.noc.draining = [(b, l)] → t.noc.flight = d.noc.flight ++ d.noc.held ∧ t.noc.held = [])) ∧
    (((b, l) ∉ d.noc.draining ∨ 52 ≤ b ∨ 6 ≤ l ∨ (∃ q ∈ d.noc.flight, b ∈ bundlesOf q)) → Ignored (.linkRemoval bundle link) s)

/-! ### HBM and the cluster caches (R203 to R221) -/

/-- HBM_ACCESS within one grain and one row, whose words errors may have struck: data on a read, the bytes written and no other on a write; a word with an error that cannot
be corrected fails a read, which is logged with SOURCE 0; two parity errors fail the access and are logged with SOURCE 3 for its first word
(the model's choice, log entry 43); the first access fixes the map (R209, R211, R212, R216, R217).
Completes: HBM_ACCESS. -/
def Obligations.HbmAccesses : Prop :=
  ∀ (s : State) (a : BitVec 52) (n parity : Nat) (us : List UpsetAt), s.dev.pins.clocks = true →
    let d := s.dev; let e := d.strikes us; let m := d.hbmMap a.toNat; let w := hbmPlace m.2
    let last (st : Status) (b : List Byte) : Option HbmLast := some { pc := m.1, bank := w.1, row := w.2.1, column := w.2.2, status := st, data := b }
    ((d.hbm.trained = false ∨ d.oneRow a.toNat n = false) → Ignored (.hbmAccess a n none us parity) s) ∧
    (MemoryReady e a.toNat n → d.oneRow a.toNat n = true → parity < 2 →
      Gives (.hbmAccess a n none us parity) s
        { e.correct (wordsOf a.toNat n) with hbm := { d.hbm with mapLocked := true, last := last .done (memRead d.mem a.toNat n) } }) ∧
    (∀ k, d.hbm.trained = true → d.oneRow a.toNat n = true → parity < 2 → k ∈ wordsOf a.toNat n → k ∈ e.badWords → ∃ t,
      Gives (.hbmAccess a n none us parity) s t ∧ t.mem = d.mem ∧ t.hbm.last = last .hwUncorrectable (deadBytes a.toNat n) ∧
      (e.badWords.Nodup → (wordsOf a.toNat n).filter (fun x => e.badWords.contains x) = [k] →
        t.hbm.log.getLast? = some { addr := k * 16, pc := (d.hbmMap (k * 16)).1, source := 0, time := d.timestamp } ∧
        t.count 0x3410 2 = (d.count 0x3410 2 + 1) % 2 ^ 64)) ∧
    (∀ b, MemoryWritable e a.toNat n → d.oneRow a.toNat n = true → parity < 2 → b.length = n →
      ∃ t, Gives (.hbmAccess a n (some b) us parity) s t ∧ t.mem = memWrite d.mem a.toNat b ∧
        t.hbm = { d.hbm with mapLocked := true, last := last .done [] } ∧ t.objs = d.objs ∧ (e.latent = [] → t.counters = d.counters)) ∧
    (∀ b owners, d.hbm.trained = true → d.oneRow a.toNat n = true → parity < 2 → b.length = n → d.protectors a.toNat n = owners → owners ≠ [] →
      ∃ t, Gives (.hbmAccess a n (some b) us parity) s t ∧ t.mem = d.mem ∧ t.hbm.last = last .inputWrite []) ∧
    (∀ write, d.hbm.trained = true → d.oneRow a.toNat n = true → 2 ≤ parity → (∀ b, write = some b → b.length = n) →
      ∃ t, Gives (.hbmAccess a n write us parity) s t ∧ t.mem = d.mem ∧
      t.hbm.last = last .hwUncorrectable (deadBytes a.toNat n) ∧ t.hbm.mapLocked = true ∧ t.count 0x3410 2 = (d.count 0x3410 2 + 1) % 2 ^ 64 ∧
      t.hbm.log.getLast? = some { addr := a.toNat / 16 * 16, pc := (d.hbmMap (a.toNat / 16 * 16)).1, source := 3, time := d.timestamp })

/-- Refresh, temperature, retraining and the patrol (R209, R214, R216, R218, R219, R221): refresh runs from the end of training on; a pass over a stack is due after RetrainPeriod,
or once its temperature has moved by 10 °C; a pseudo-channel that fails three passes in a row is failed, one that passes is counted afresh; the patrol
corrects and counts, and logs with SOURCE 2 what it cannot correct.
Completes: HBM_REFRESH, HBM_TEMP_READ, REFRESH_MANAGEMENT, RETRAIN_PASS, PATROL_READ. -/
def Obligations.HbmUpkeep : Prop :=
  ∀ (s : State) (pc : PcId) (bank : BitVec 6) (stack : StackId) (celsius : Byte) (failed : List PcId) (a : BitVec 52) (u v : Upset),
    s.dev.pins.clocks = true →
    let d := s.dev; let key := pc.toNat * 64 + bank.toNat; let w := a.toNat / 16; let n := stack.toNat
    let due := d.objNat 0x4410 1 * 1000000 ≤ d.timestamp - tabGet 0 d.hbm.passTimes n ∨
      10 ≤ ((tabGet 0 d.hbm.temps n).toInt - (tabGet 0 d.hbm.passTemps n).toInt).natAbs
    (bank.toNat < 48 → d.hbm.trained = true → Gives (.hbmRefresh pc bank) s
      { d with hbm := { d.hbm with refreshes := tabSet d.hbm.refreshes key (tabGet 0 d.hbm.refreshes key + 1) } }) ∧
    ((48 ≤ bank.toNat ∨ d.hbm.trained = false) → Ignored (.hbmRefresh pc bank) s) ∧
    Gives (.hbmTempRead stack celsius) s { d with hbm := { d.hbm with temps := tabSet d.hbm.temps n celsius } } ∧
    Gives (.refreshManagement stack) s
      { d with hbm := { d.hbm with managed := tabSet d.hbm.managed n (tabGet 0 d.hbm.managed n + 1) } } ∧
    (d.hbm.trained = true → due → pc.toNat / 32 = n → ∃ t, Gives (.retrainPass stack failed) s t ∧ t.mem = d.mem ∧
      tabGet 0 t.hbm.passTimes n = d.timestamp ∧ tabGet 0 t.hbm.passTemps n = tabGet 0 d.hbm.temps n ∧
      (∀ q ∈ d.hbm.failed, q ∈ t.hbm.failed) ∧
      (pc ∈ failed → 2 ≤ tabGet 0 d.hbm.passFails pc.toNat → pc.toNat ∈ t.hbm.failed) ∧
      (pc ∈ failed → tabGet 0 t.hbm.passFails pc.toNat = tabGet 0 d.hbm.passFails pc.toNat + 1) ∧
      (pc ∉ failed → tabGet 0 t.hbm.passFails pc.toNat = 0) ∧
      (pc.toNat ∉ d.hbm.failed → (pc ∉ failed ∨ tabGet 0 d.hbm.passFails pc.toNat < 2) → pc.toNat ∉ t.hbm.failed)) ∧
    ((d.hbm.trained = false ∨ ¬due) → Ignored (.retrainPass stack failed) s) ∧
    (d.hbm.trained = true → d.objNat 0x4410 2 ≠ 0 → a.toNat < 0x4800000000 →
      (w ∉ d.badWords → (u.failed = false ∨ v.failed = false) →
        (w ∈ d.latent → Gives (.patrolRead a u v) s (d.correct [w])) ∧
        (w ∉ d.latent → u.corrected = 0 → u.failed = false → Ignored (.patrolRead a u v) s) ∧
        (w ∉ d.latent → (u.corrected ≠ 0 ∨ u.failed = true) → Gives (.patrolRead a u v) s (d.bump 0x3410 1 1))) ∧
      ((w ∈ d.badWords ∨ (u.failed = true ∧ v.failed = true)) → ∃ t, Gives (.patrolRead a u v) s t ∧ t.mem = d.mem ∧ t.rounds = d.rounds ∧ w ∈ t.badWords ∧
        t.count 0x3410 2 = (d.count 0x3410 2 + 1) % 2 ^ 64 ∧
        t.hbm.log.getLast? = some { addr := w * 16, pc := (d.hbmMap (w * 16)).1, source := 2, time := d.timestamp })) ∧
    ((d.hbm.trained = false ∨ d.objNat 0x4410 2 = 0 ∨ 0x4800000000 ≤ a.toNat) → Ignored (.patrolRead a u v) s)

/-- The cluster caches (R203 to R208): a line that a miss has asked for is filled once: it becomes the most recently used of its set, which keeps at most the ways
of the cache part; a removal takes the line out; neither changes memory. A line whose words HBM cannot deliver is not filled. A read of a resident line reads no
HBM; a read of lines that are not asks for them; what a read gives never depends on the cache where HBM is sound.
Completes: CACHE_LINE_FILL, CACHE_REMOVAL. -/
def Obligations.ClusterCaches : Prop :=
  ∀ (s : State) (c : ClusterId) (a : BitVec 52) (u : Upset), s.dev.pins.clocks = true →
    let d := s.dev; let n := c.toNat; let line := a.toNat / 256; let lines := tabGet [] (d.cluster n).cache (cacheSet line)
    let mayFill := d.hbm.trained = true ∧ line ∈ (d.cluster n).fills ∧ d.cacheWays n ≠ 0 ∧ (d.cluster n).state < 2
    let sound := (∀ w ∈ wordsOf (256 * line) 256, w ∉ d.badWords) ∧ d.hbmFailed (256 * line) 256 = false
    (mayFill → sound → ∃ t, Gives (.cacheLineFill c a u) s t ∧ t.mem = d.mem ∧
        t.count 0x3090 2 = (d.bump 0x3090 2 u.corrected).count 0x3090 2 ∧
        t.count 0x3090 3 = (if u.failed then (d.count 0x3090 3 + 1) % 2 ^ 64 else d.count 0x3090 3) ∧
        (t.cluster n).fills = (d.cluster n).fills.erase line ∧
        tabGet [] (t.cluster n).cache (cacheSet line) = (line :: lines.filter fun l => l ≠ line).take (d.cacheWays n) ∧
        (∀ q, q ≠ cacheSet line → tabGet [] (t.cluster n).cache q = tabGet [] (d.cluster n).cache q) ∧
        (∀ k, k ≠ n → t.cluster k = d.cluster k)) ∧
    (mayFill → ¬sound → Gives (.cacheLineFill c a u) s (d.updCluster n fun k => { k with fills := k.fills.erase line })) ∧
    (¬mayFill → Ignored (.cacheLineFill c a u) s) ∧
    (∃ t, Gives (.cacheRemoval c a) s t ∧ t.mem = d.mem ∧ (∀ e ∈ (t.cluster n).cache, line ∉ e.2) ∧ (∀ k, k ≠ n → t.cluster k = d.cluster k)) ∧
    (∀ core x m, MemoryReady d x m → (d.readCached core x m).1 = .done ∧ (d.readCached core x m).2.1 = memRead d.mem x m) ∧
    (∀ core x m, d.regionOfRange x m = .hbm → (∀ l ∈ linesOf x m, d.resident (core / 8) l = true) → (∀ e ∈ (d.cluster (core / 8)).cacheErrors, e.2 = false) →
      (d.readCached core x m).1 = .done ∧ (d.readCached core x m).2.1 = memRead d.mem x m ∧ (d.readCached core x m).2.2.hbm.log = d.hbm.log ∧
      (d.readCached core x m).2.2.badWords = d.badWords) ∧
    (∀ core x m l, d.regionOfRange x m = .hbm → l ∈ linesOf x m → d.resident (core / 8) l = false → d.cacheWays (core / 8) ≠ 0 →
      l ∈ ((d.readCached core x m).2.2.cluster (core / 8)).fills)

/-! ### Memory -/

/-- Memory stays a list of rising addresses that lists no zero, at every step. -/
def Obligations.MemoryKeepsItsForm : Prop :=
  ∀ s t : State, memWf s.dev.mem = true → step s = .next t → memWf t.dev.mem = true

/-- A byte reads as it was last written, and every other byte as before; equal contents are equal memories. -/
def Obligations.MemoryReadsWhatWasWritten : Prop :=
  (∀ (m : List Host.Cell) (a : Nat) (b : List Byte) (k : Nat),
    memGet (memWrite m a b) k = if a ≤ k ∧ k < a + b.length then b.getD (k - a) 0 else memGet m k) ∧
  (∀ m m' : List Host.Cell, memWf m = true → memWf m' = true → (∀ k, memGet m k = memGet m' k) → m = m')

/-! ### Saeri (R242 to R269, R285) -/

/-- What arrives from peers, in the order of R133 and R249 (R250, R251, R256, R285, R362): an access needs one export that covers it and lets the node in; a flag add needs a
node that the Topology in force lists; a response ends the request that waits for it, and LINK_LOST with the tag of a notice fails that notice's round (R289; the tags
are the model's choice, log entry 93); the slot of each packet is free again; a request that must follow one still open waits; routes switch once nothing that
was sent is outstanding.
Completes: SAERI_READ, SAERI_WRITE, SAERI_READ_DATA, SAERI_WRITE_ACK, SAERI_FLAG_ADD, SAERI_MANAGEMENT, QUIESCENCE_NOTICE, ROUTE_SWITCH. -/
def Obligations.SaeriRequests : Prop :=
  ∀ (s : State) (k : SaeriPkt),
    let d := s.dev; let a := k.addr.toNat; let len := k.lenm1.toNat + 1; let d1 := d.saeriTake k
    FreshIds d →
    (SaeriReaches s k 0x01 → d.mayPeer k TEntry.rd = true → MemoryReady d a len → ∃ t, Gives (.saeriRead k) s t ∧
      t.mem = d.mem ∧ t.accesses = d.accesses ∧ t.cores = d.cores ∧
      t.saeri = (d1.saeriAnswer k .done (memRead d.mem a len)).saeri ∧ t.ports = (d1.saeriAnswer k .done (memRead d.mem a len)).ports) ∧
    (SaeriReaches s k 0x02 → len ≤ k.data.length → d.mayPeer k TEntry.wr = true → MemoryWritable d a len → ∃ t, Gives (.saeriWrite k) s t ∧
      t.mem = memWrite d.mem a (slice k.data 0 len) ∧ t.accesses = d.accesses ∧ t.cores = d.cores ∧
      t.saeri = (d1.saeriAnswer k .done []).saeri ∧ t.ports = (d1.saeriAnswer k .done []).ports) ∧
    (SaeriReaches s k 0x01 → d.mayPeer k TEntry.rd = false → Gives (.saeriRead k) s (d1.saeriAnswer k .address (deadBytes a len))) ∧
    (SaeriReaches s k 0x02 → len ≤ k.data.length → d.mayPeer k TEntry.wr = false → Gives (.saeriWrite k) s (d1.saeriAnswer k .address [])) ∧
    (SaeriReaches s k 0x05 →
      ((topoOf (d.obj 0x4111 1)).pos? k.snode.toNat ≠ none → Gives (.saeriFlagAdd k) s
        ((d1.setFlag (a % 4096) (d.flag (a % 4096) + BitVec.ofNat 32 (field k.data 0 4))).saeriAnswer k .done [])) ∧
      ((topoOf (d.obj 0x4111 1)).pos? k.snode.toNat = none → Gives (.saeriFlagAdd k) s (d1.saeriAnswer k .address []))) ∧
    (SaeriReaches s k 0x03 →
      ((∀ q ∈ d.saeri.outstanding, q.tag ≠ k.tag ∨ q.node ≠ k.snode) →
        (Status.ofCode k.status.toNat ≠ .linkLost → Gives (.saeriReadData k) s d1) ∧
        (Status.ofCode k.status.toNat = .linkLost → k.tag = 0xFFE → Gives (.saeriReadData k) s (d1.lostNotice 0x07 a))) ∧
      (∀ q rest, d.saeri.outstanding = q :: rest → q.tag = k.tag → q.node = k.snode → q.isRead = true →
        Gives (.saeriReadData k) s (d1.saeriEnd q (Status.ofCode k.status.toNat) (slice k.data 0 q.len)))) ∧
    (SaeriReaches s k 0x04 → ∀ q rest, d.saeri.outstanding = q :: rest → q.tag = k.tag → q.node = k.snode → q.isRead = false →
        Gives (.saeriWriteAck k) s (d1.saeriEnd q (Status.ofCode k.status.toNat) (slice k.data 0 q.len))) ∧
    (SaeriReaches s k 0x08 → d.served (.saeri k.snode) = false → Gives (.saeriManagement k) s d1) ∧
    (SaeriReaches s k 0x08 → d.served (.saeri k.snode) = true →
      Gives (.saeriManagement k) s (frameIn s.fuses d1 (.saeri k.snode) (bytesFrame (slice k.data 0 len))).2) ∧
    (SaeriReaches s k 0x09 → ∃ t, Gives (.quiescenceNotice k) s t ∧ t.mem = d.mem ∧ t.flags = d.flags ∧ t.rounds = d.rounds ∧
      ∀ n m, (n, m) ∈ t.saeri.notices ↔
        (if n = BitVec.ofNat 32 a ∧ m = k.snode then a / 2 ^ 32 % 2 = 1 else (n, m) ∈ d.saeri.notices)) ∧
    ((∃ e ∈ d.saeriBefore k, saeriFollows k e = true) → Ignored (.saeriRead k) s ∧ Ignored (.saeriWrite k) s ∧ Ignored (.saeriFlagAdd k) s) ∧
    (k.dnode ≠ d.nodeId → Ignored (.saeriRead k) s ∧ Ignored (.saeriWrite k) s ∧ Ignored (.saeriFlagAdd k) s ∧ Ignored (.saeriReadData k) s ∧ Ignored (.saeriWriteAck k) s ∧
      Ignored (.saeriManagement k) s ∧ Ignored (.quiescenceNotice k) s) ∧
    (∀ p rest, d.saeri.inbox = (p, k) :: rest → d1.saeri.inbox = rest ∧ d1.mem = d.mem ∧
      tabGet 0 (d1.port p).inUse (saeriClass k.op) = tabGet 0 (d.port p).inUse (saeriClass k.op) - 1) ∧
    (d.pins.clocks = true → d.saeri.switching = true → d.saeri.outstanding = [] → d.saeri.heldOut = [] → ∃ t, Gives .routeSwitch s t ∧
      t.saeri.switching = false ∧ t.saeri.routeTopo = d.obj 0x4111 1 ∧ t.saeri.routeRole = d.obj 0x4111 2 ∧ t.ports = d.ports ∧ t.mem = d.mem) ∧
    (d.pins.clocks = true → d.saeri.switching = true → (∀ q ∈ d.saeri.outstanding, d.unsent q = true) → ∃ t, Gives .routeSwitch s t ∧
      t.saeri.switching = false ∧ t.saeri.routeTopo = d.obj 0x4111 1 ∧ t.saeri.routeRole = d.obj 0x4111 2 ∧ t.mem = d.mem) ∧
    ((d.saeri.switching = false ∨ ∃ q ∈ d.saeri.outstanding, d.unsent q = false) → Ignored .routeSwitch s)

/-! ### Lanes and ports (R270 to R293) -/

/-- Bring-up (R278 to R281, R291, R292): the lanes' signal and CDR bits are as the events say, each step ends on its event alone, a step that exceeds 20 µs takes the
port down with its cause, a lane that loses lock restarts or takes the port down with CAUSE 7, a FILL is deleted or repeated at the depths of R275, and test mode counts its errors up to
2^32 − 1. A block's payload is descrambled bit by bit (R272).
MARKs (R273, R279, R280, R283): a block that is none changes nothing; in step 4 a MARK of a new period is noted with its lane; eight lanes that
agree on node and port, numbered straight or crossed, end step 4, and any other eight end with CAUSE 2; one period on all lanes ends step 5; skew above 16 blocks ends with
CAUSE 3; link start is up with SEQ 0 where the peer is another node that PortRole allows, and down with CAUSE 5 or 6 where not.
Completes: SIGNAL_DETECT, CDR_LOCK, BLOCK_LOCK, BRINGUP_TIMEOUT, MARK_RECEIVE, LANE_LOCK_LOSS, FILL_RECEIVE, LANE_TEST_ERROR. -/
def Obligations.PortBringUp : Prop :=
  (∀ (s : State) (p : PortId) (l : LaneId) (lanes : Byte) (b : LineBlock) (ns headers depth : Nat) (cdr : Bool), s.dev.pins.clocks = true →
    let d := s.dev; let n := p.toNat; let q := d.port n; let m := l.toNat / 8; let x := d.lane l.toNat
    let steps (t : Dev) (k step : Nat) (f : Nat → Lane → Lane) : Prop :=
      t.port k = { d.port k with step := step, readyMarks := 0 } ∧ (∀ j, j ≠ k → t.port j = d.port j) ∧
      (∀ j, t.lane j = if j / 8 = k then f j { d.lane j with marks := 0, mark := none } else d.lane j) ∧ t.mem = d.mem ∧ t.saeri = d.saeri
    let stays (t : Dev) (k : Nat) (f : Nat → Lane → Lane) : Prop :=
      (∀ j, t.port j = d.port j) ∧ (∀ j, t.lane j = if j / 8 = k then f j (d.lane j) else d.lane j) ∧ t.mem = d.mem ∧ t.saeri = d.saeri
    let fallen (q : Port) (cause : Nat) : Port :=
      { q with step := 8, cause := cause, replay := [], nak := false, inUse := [], owed := [], rxWords := [] }
    let down (cause : Nat) : Dev := d.updPort n fun q => fallen q cause
    let energy (j : Nat) (y : Lane) : Lane := { y with signal := lanes.getLsbD (j % 8) }
    let locks (j : Nat) (y : Lane) : Lane := { y with cdr := y.cdr || lanes.getLsbD (j % 8) }
    let all := ∀ j, j / 8 = n → (d.lane j).cdr = true ∨ lanes.getLsbD (j % 8) = true
    (q.enabled = true → q.step = 1 → lanes = 0xFF → 1000 ≤ ns → ∃ t, Gives (.signalDetect p { lanes := lanes, ns := ns }) s t ∧ steps t n 2 energy) ∧
    (q.enabled = true → (q.step ≠ 1 ∨ lanes ≠ 0xFF ∨ ns < 1000) → ∃ t, Gives (.signalDetect p { lanes := lanes, ns := ns }) s t ∧ stays t n energy) ∧
    (q.enabled = false → Ignored (.signalDetect p { lanes := lanes, ns := ns }) s) ∧
    (q.step = 2 → all → ∃ t, Gives (.cdrLock { port := p, lanes := lanes }) s t ∧ steps t n 3 locks) ∧
    (2 ≤ q.step → q.step ≤ 7 → (q.step ≠ 2 ∨ ¬all) → ∃ t, Gives (.cdrLock { port := p, lanes := lanes }) s t ∧ stays t n locks) ∧
    ((q.step < 2 ∨ 7 < q.step) → Ignored (.cdrLock { port := p, lanes := lanes }) s) ∧
    ((d.port m).step = 3 → 64 ≤ headers → (∀ j, j / 8 = m → j ≠ l.toNat → (d.lane j).lock = true) →
      ∃ t, Gives (.blockLock l headers) s t ∧ steps t m 4 fun _ y => { y with lock := true }) ∧
    (3 ≤ (d.port m).step → (d.port m).step ≤ 7 → 64 ≤ headers → ((d.port m).step ≠ 3 ∨ ∃ j, j / 8 = m ∧ j ≠ l.toNat ∧ (d.lane j).lock = false) →
      Gives (.blockLock l headers) s (d.updLane l.toNat fun y => { y with lock := true })) ∧
    ((headers < 64 ∨ (d.port m).step < 3 ∨ 7 < (d.port m).step) → Ignored (.blockLock l headers) s) ∧
    (20000 < ns → (q.step = 2 → Gives (.bringupTimeout p ns) s (down 1)) ∧ (q.step = 4 → Gives (.bringupTimeout p ns) s (down 2)) ∧
      (q.step = 5 → Gives (.bringupTimeout p ns) s (down 3))) ∧
    ((ns ≤ 20000 ∨ (q.step ≠ 2 ∧ q.step ≠ 4 ∧ q.step ≠ 5)) → Ignored (.bringupTimeout p ns) s) ∧
    ((cdr = true ∨ 16 ≤ headers) → ((d.port m).step < 4 ∨ (d.port m).step = 8) →
      Gives (.laneLockLoss l cdr headers) s (d.updLane l.toNat fun y => { y with lock := false, cdr := y.cdr && !cdr })) ∧
    ((cdr = true ∨ 16 ≤ headers) → 4 ≤ (d.port m).step → (d.port m).step < 7 →
      Gives (.laneLockLoss l cdr headers) s
        ((d.updLane l.toNat fun y => { y with lock := false, cdr := y.cdr && !cdr }).updPort m fun q => fallen q 7)) ∧
    ((cdr = true ∨ 16 ≤ headers) → (d.port m).step = 7 →
      Gives (.laneLockLoss l cdr headers) s (((d.updLane l.toNat fun y => { y with lock := false, cdr := y.cdr && !cdr }).updPort m fun q =>
        fallen q 7).afterDown (d.port m).peerNode m (framePackets (d.port m).replay))) ∧
    (cdr = false → headers < 16 → Ignored (.laneLockLoss l cdr headers) s) ∧
    ((d.port m).enabled = true → (d.port m).inverted.getLsbD (l.toNat % 8) = false → descramble b = { header := 0b10, payload := 0x96 } →
      (5 < depth → Gives (.fillReceive l { line := b, depth := depth }) s (d.updLane l.toNat fun y => { y with deleted := y.deleted + 1 })) ∧
      (depth < 3 → Gives (.fillReceive l { line := b, depth := depth }) s (d.updLane l.toNat fun y => { y with repeated := y.repeated + 1 })) ∧
      (3 ≤ depth → depth ≤ 5 → Ignored (.fillReceive l { line := b, depth := depth }) s)) ∧
    ((d.port m).inverted.getLsbD (l.toNat % 8) = false → descramble b ≠ { header := 0b10, payload := 0x96 } → Ignored (.fillReceive l { line := b, depth := depth }) s) ∧
    (∀ i, i < 64 → (descramble b).payload.getLsbD i =
      (b.block.payload.getLsbD i ^^ (if i < 39 then b.before.getLsbD (i + 19) else b.block.payload.getLsbD (i - 39)) ^^
        (if i < 58 then b.before.getLsbD i else b.block.payload.getLsbD (i - 58)))) ∧
    (x.test = true → Gives (.laneTestError l) s (d.updLane l.toNat fun y => { y with testErrors := min (y.testErrors + 1) (2 ^ 32 - 1) })) ∧
    (x.test = false → ∃ t, Gives (.laneTestError l) s t ∧ (∀ j, t.lane j = d.lane j) ∧ t.ports = d.ports)) ∧
  (∀ (s : State) (l : LaneId) (line : LineBlock) (skew : Nat), s.dev.pins.clocks = true →
    let b := descramble line
    let fallen (q : Port) (cause : Nat) : Port :=
      { q with step := 8, cause := cause, replay := [], nak := false, inUse := [], owed := [], rxWords := [] }
    let d := s.dev; let p := l.toNat / 8; let q := d.port p; let v := b.payload.toNat; let upright := q.inverted.getLsbD (l.toNat % 8) = false
    let mark := (v / 2 ^ 16 % 2 ^ 12, v / 2 ^ 11 % 2 ^ 4, v / 2 ^ 8 % 2 ^ 3, v / 2 ^ 28 % 2 ^ 12, decide (v / 2 ^ 15 % 2 = 1), false)
    (q.step = 4 → b.header ≠ 0b10 → b.header ≠ 0b01 → Ignored (.markReceive l line skew) s) ∧
    (q.step < 4 → Ignored (.markReceive l line skew) s) ∧
    (q.step = 4 → b.header = 0b10 → v % 256 = 0xD2 → (d.lane l.toNat).mark.map (fun m => m.2.2.2.1) ≠ some mark.2.2.2.1 →
      Gives (.markReceive l line skew) s ((d.updLane l.toNat fun x => { x with mark := some mark, marks := x.marks + 1 }).resolveLanes p)) ∧
    (q.step = 5 ∨ q.step = 6 → upright → b.header = 0b10 → v % 256 = 0xD2 → 16 < skew →
      Gives (.markReceive l line skew) s (d.updPort p fun q => fallen q 3)) ∧
    (upright → b.header = 0b10 → v % 256 = 0xD2 → skew ≤ 16 → (d.lane l.toNat).mark.map (fun m => m.2.2.2.1) ≠ some mark.2.2.2.1 →
      let e := d.updLane l.toNat fun x => { x with mark := some mark, marks := x.marks + 1 }
      (q.step = 5 → Gives (.markReceive l line skew) s (if e.onePeriod p then e.portStep p 6 else e)) ∧
      (q.step = 6 → Gives (.markReceive l line skew) s (e.countReady p)) ∧
      (q.step = 7 → Gives (.markReceive l line skew) s e)) ∧
    (∀ (e : Dev) (k node port : Nat) (order : Bool) (lane : Nat → Nat) (period : Nat → Nat) (ready inv : Nat → Bool),
      (∀ i, i < 8 → (e.lane (8 * k + i)).mark = some (node, port, lane i, period i, ready i, inv i) ∧ 2 ≤ (e.lane (8 * k + i)).marks) →
      ((∀ i, i < 8 → lane i = if order then 7 - i else i) →
        ((e.resolveLanes k).port k).step = 5 ∧ ((e.resolveLanes k).port k).reversed = order ∧
        (∀ i, i < 8 → ((e.resolveLanes k).port k).inverted.getLsbD i = inv i) ∧ (e.resolveLanes k).mem = e.mem) ∧
      ((e.port k).step = 4 → ¬(∃ o : Bool, ∀ i, i < 8 → lane i = if o then 7 - i else i) →
        e.resolveLanes k = e.updPort k fun q => fallen q 2)) ∧
    (∀ (e : Dev) (k : Nat), (∃ i, i < 8 ∧ ((e.lane (8 * k + i)).mark = none ∨ (e.lane (8 * k + i)).marks < 2)) → e.resolveLanes k = e) ∧
    (∀ (e : Dev) (k : Nat) (node : NodeId) (port : Nat), e.nodeId ≠ 0xFFF → (e.port k).step = 6 →
      let role := roleOf (e.obj 0x4111 2) k; let t := e.linkStart k node port
      (node = e.nodeId → (t.port k).step = 8 ∧ (t.port k).cause = 5) ∧
      (node ≠ e.nodeId → role ≠ 0xFFFF → (topoOf (e.obj 0x4111 1)).nodeAt role ≠ node.toNat → (t.port k).step = 8 ∧ (t.port k).cause = 6) ∧
      (node ≠ e.nodeId → (role = 0xFFFF ∨ (topoOf (e.obj 0x4111 1)).nodeAt role = node.toNat) → e.saeri.heldOut = [] →
        (t.port k).step = 7 ∧ (t.port k).peerNode = node ∧ (t.port k).peerPort = port ∧ (t.port k).txSeq = 0 ∧ (t.port k).rxSeq = 0 ∧
        (∀ j, j ≠ k → t.port j = e.port j) ∧ t.mem = e.mem)))

/-- Link frames and retry (R282, R284 to R289): the fields of a frame's header word; packets packed end to end are found again; a good data frame in order advances the count, returns
credits and acknowledges; a bad one or one out of order asks for a replay, and the words that were corrected are counted either way; a replay sends
every frame that is not acknowledged again and counts each; one sent four times without acknowledgement takes the port down with CAUSE 9, silence of 1 µs with CAUSE 8, a
leave notice with CAUSE 10. No packet waits for a credit here, and no neighbour is sent frames again.
Completes: IDLE_FRAME, DATA_FRAME, LEAVE_NOTICE, DEPARTURE_NOTICE, NAK_REPLAY, REPLAY_TIMEOUT, PORT_TIMEOUT. -/
def Obligations.LinkFrames : Prop :=
  (∀ (s : State) (p : PortId) (raw : RawFrame), s.dev.pins.clocks = true → (s.dev.port p.toNat).step = 7 → raw.blocks.length = 72 →
    let d := s.dev; let n := p.toNat; let q := d.port n; let f := q.readFrame raw
    let counted := d.bump 0x3121 1 f.corrected
    let header (d : Dev) : Dev := d.updPort n fun q => q.takeHeader f
    let packets := parsePackets 32 (q.rxWords ++ f.words)
    let took : Dev := header (counted.updPort n fun q => { q with rxSeq := q.rxSeq + 1, rxWords := packets.2 })
    (f.bad = true → Gives (.dataFrame p raw) s (counted.updPort n fun q => { q with nak := true }) ∧ Gives (.idleFrame p raw) s counted ∧
      Gives (.leaveNotice p raw) s counted ∧ Gives (.departureNotice p raw) s counted) ∧
    (f.bad = false → f.type = 1 → f.seq ≠ q.rxSeq → Gives (.dataFrame p raw) s (counted.updPort n fun q => { q with nak := true })) ∧
    (f.bad = false → f.type ≠ 1 → Ignored (.dataFrame p raw) s) ∧ (f.bad = false → f.type ≠ 0 → Ignored (.idleFrame p raw) s) ∧
    (f.bad = false → f.type ≠ 2 → Ignored (.leaveNotice p raw) s) ∧ (f.bad = false → f.type ≠ 3 → Ignored (.departureNotice p raw) s) ∧
    (f.bad = false → f.nak = false → d.saeri.queue = [] → d.saeri.recovering = [] →
      (f.type = 0 → Gives (.idleFrame p raw) s (header counted)) ∧
      (f.type = 1 → f.seq = q.rxSeq → packets.1 = [] → Gives (.dataFrame p raw) s took) ∧
      (∀ k, f.type = 1 → f.seq = q.rxSeq → packets.1 = [k] → k.dnode = d.nodeId →
        tabGet 0 q.inUse (saeriClass k.op) + tabGet 0 q.owed (saeriClass k.op) < 16 →
        ∃ t, Gives (.dataFrame p raw) s t ∧ t.saeri = { d.saeri with inbox := d.saeri.inbox ++ [(n, k)] } ∧ (t.port n).rxSeq = q.rxSeq + 1 ∧
          (t.port n).rxWords = packets.2 ∧ tabGet 0 (t.port n).inUse (saeriClass k.op) = tabGet 0 q.inUse (saeriClass k.op) + 1 ∧ t.mem = d.mem) ∧
      (∀ k, f.type = 1 → f.seq = q.rxSeq → packets.1 = [k] →
        16 ≤ tabGet 0 q.inUse (saeriClass k.op) + tabGet 0 q.owed (saeriClass k.op) → Gives (.dataFrame p raw) s (took.portDown n 4)) ∧
      (f.type = 3 → (f.departed = d.nodeId ∨ f.departed ∈ d.saeri.departed) → Gives (.departureNotice p raw) s (header counted)) ∧
      (f.type = 3 → f.departed ≠ d.nodeId → f.departed ∉ d.saeri.departed →
        Gives (.departureNotice p raw) s ((header counted).depart f.departed (some n))) ∧
      (f.type = 2 → Gives (.leaveNotice p raw) s (((header counted).portDown n 10).depart q.peerNode (some n)))) ∧
    (raw.fixes = [] →
      let w := (q.frameBlock raw 0).payload.toNat + 2 ^ 64 * (q.frameBlock raw 1).payload.toNat
      f.type.toNat = w / 2 ^ 124 ∧ f.seq.toNat = w / 2 ^ 112 % 2 ^ 12 ∧ f.ack.toNat = w / 2 ^ 100 % 2 ^ 12 ∧ f.nak = decide (w / 2 ^ 99 % 2 = 1) ∧
      f.srcNode.toNat = w / 2 ^ 80 % 2 ^ 12 ∧ f.crMg.toNat = w / 2 ^ 76 % 16 ∧ f.crWt.toNat = w / 2 ^ 72 % 16 ∧ f.crRs.toNat = w / 2 ^ 68 % 16 ∧
      f.crRq.toNat = w / 2 ^ 64 % 16 ∧ f.departed.toNat = w / 2 ^ 52 % 2 ^ 12)) ∧
  (∀ ks : List SaeriPkt, ks.length ≤ 32 →
    (∀ k ∈ ks, k.op ≠ 0 ∧ k.data.length =
      if saeriDataWords k.op k.addr k.lenm1 = 0 then 0
      else k.lenm1.toNat + 1 + 16 * (saeriDataWords k.op k.addr k.lenm1 - (k.lenm1.toNat + 16) / 16)) →
    parsePackets 32 (ks.flatMap saeriWords) = (ks, [])) ∧
  (∀ (q : Port) (f : LinkFrame) (pre rest : List SentFrame) (e : SentFrame), q.replay = pre ++ e :: rest → e.seq = f.ack → (∀ g ∈ pre, g.seq ≠ f.ack) →
      q.takeHeader f = { q with
        replay := rest
        crMg := min 16 (q.crMg + f.crMg.toNat), crWt := min 16 (q.crWt + f.crWt.toNat), crRs := min 16 (q.crRs + f.crRs.toNat)
        crRq := min 16 (q.crRq + f.crRq.toNat) }) ∧
  (∀ (s : State) (p : PortId) (ack : BitVec 12) (ns : Nat), s.dev.pins.clocks = true → (s.dev.port p.toNat).step = 7 →
    let d := s.dev; let n := p.toNat; let q := d.port n
    let again (l : List SentFrame) (t : Dev) : Prop :=
      (t.port n).replay = l.map (fun e => { e with sends := e.sends + 1 }) ∧ (t.port n).txSeq = q.txSeq ∧ (t.port n).rxSeq = q.rxSeq ∧
      (t.port n).step = 7 ∧ (∀ m, m ≠ n → t.port m = d.port m) ∧ t.count 0x3121 2 = (d.count 0x3121 2 + l.length) % 2 ^ 64 ∧ t.mem = d.mem ∧ t.saeri = d.saeri
    (d.count 0x3121 2 < 2 ^ 64 →
      ((∀ e ∈ q.replay, e.seq ≠ ack) → (∀ e, q.replay.head? = some e → e.sends < 3) → ∃ t, Gives (.nakReplay p ack) s t ∧ again q.replay t) ∧
      (∀ e rest, q.replay = e :: rest → e.seq = ack → (∀ g, rest.head? = some g → g.sends < 3) → ∃ t, Gives (.nakReplay p ack) s t ∧ again rest t) ∧
      (∀ e rest, q.replay = e :: rest → e.sends < 3 → 500 ≤ ns → ∃ t, Gives (.replayTimeout p ns) s t ∧ again q.replay t)) ∧
    (∀ e rest, q.replay = e :: rest → 3 ≤ e.sends → 500 ≤ ns →
      ∃ t, Gives (.replayTimeout p ns) s t ∧ (t.port n).step = 8 ∧ (t.port n).cause = 9) ∧
    (ns < 500 → Ignored (.replayTimeout p ns) s) ∧ (ns < 1000 → Ignored (.portTimeout p ns) s) ∧
    (1000 ≤ ns → Gives (.portTimeout p ns) s
      ((d.updPort n fun q => { q with step := 8, cause := 8, replay := [], nak := false, inUse := [], owed := [], rxWords := [] }).afterDown q.peerNode n
        (framePackets q.replay))))

/-! ### What comes for the reductions and chains of a round (R258 to R262) -/

/-- A row request of a node above is noted (R259; its form is the model's choice, log entry 92). A carry partial from a peer that no row of this node awaits waits in its slot, and so does a
weight row that no descriptor takes. One that is due going up is added to this node's row, own value first, and counted at 0x3110.05; a row of a
tile enters the tile of its chain that is put together, which is offered to the first member with its last row (R262).
Completes: SAERI_CARRY_PARTIAL, SAERI_WEIGHT_ROW. -/
def Obligations.SaeriReductions : Prop :=
  ∀ (s : State) (k : SaeriPkt), s.dev.pins.clocks = true →
    let d := s.dev; let a := k.addr.toNat; let d1 := d.saeriTake k; let c := a / 2 ^ 32 % 2 ^ 6
    (SaeriReaches s k 0x06 → a / 2 ^ 46 % 2 = 1 → d.saeri.rows = [] →
      let ask : RoundNo × NodeId × Nat × Nat := (BitVec.ofNat 32 (field k.data 0 4), k.snode, c, a % 2 ^ 11)
      Gives (.saeriCarryPartial k) s (Dev.settle { d1 with saeri := { d1.saeri with rowAsks := d1.saeri.rowAsks ++ [ask] } })) ∧
    (a / 2 ^ 46 % 2 = 0 → d.rowFor k = none → Gives (.saeriCarryPartial k) s d.settle) ∧
    (∀ q j x r, SaeriReaches s k 0x06 → a / 2 ^ 46 % 2 = 0 → d.rowFor k = some (q, j, x, r) → a / 2 ^ 47 % 2 = 0 → q.isInt = false →
      q.levels + 1 < (d.nodeDues r x).length → q.sentUp = false →
      let sum (c : Nat) : Word := if j.width q.blk ≤ c then q.vals.getD c 0 else addFp32 (q.vals.getD c 0) (BitVec.ofNat 32 (field k.data (4 * c) 4))
      ∃ e : Dev, Gives (.saeriCarryPartial k) s e.settle ∧ e.count 0x3110 5 = (d.count 0x3110 5 + 1) % 2 ^ 64 ∧ e.mem = d.mem ∧
        ∃ w ∈ e.saeri.rows, w.round = q.round ∧ w.group = q.group ∧ w.blk = q.blk ∧ w.row = q.row ∧ w.tag = 0 ∧ w.vals = (List.range 64).map sum ∧
          w.levels = q.levels + 1 ∧ w.children = q.children ++ [k.snode]) ∧
    (a / 2 ^ 51 % 2 = 0 → d.chainTaker c k.snode = none → Gives (.saeriWeightRow k) s d.settle) ∧
    (∀ x p, SaeriReaches s k 0x07 → a / 2 ^ 51 % 2 = 0 → d.chainTaker c k.snode = some x →
      (∀ e ∈ (d.core x.core).chainIn, e.chain ≠ c) → (d.cluster (x.core / 8)).state = 0 →
      let mine (p : TilePart) : Bool := !p.net && p.tile.chain == c
      let rest := (d.core x.core).chainParts.filter fun p => !mine p
      ((d.core x.core).chainParts.find? mine = none →
        let tile : ChainTile := { hdr := headerOf k.data, chain := c, round := x.round, ordinal := x.chainOrd, tile := 0, codes := [] }
        Gives (.saeriWeightRow k) s (d1.updCore x.core fun q =>
          { q with chainParts := { net := false, tile := tile, bytes := k.data.drop 16, next := 1 } :: rest }).settle) ∧
      ((d.core x.core).chainParts.find? mine = some p → 0 < p.next →
        (p.next = 63 → Gives (.saeriWeightRow k) s
          (d1.updCore x.core fun q => { q with chainParts := rest, chainIn := q.chainIn ++ [tileOfImage p.tile (p.bytes ++ k.data)] }).settle) ∧
        (p.next ≠ 63 → Gives (.saeriWeightRow k) s
          (d1.updCore x.core fun q => { q with chainParts := { p with bytes := p.bytes ++ k.data, next := p.next + 1 } :: rest }).settle)))
end

