-- ==== Sys2Proof/Laws/State.lean ====
section
/-! SUPPORT. What each update of the device leaves: one law for each field that an update does not write, and the reads of the units
after an update of one. -/

namespace Sys2Proof.Machine

@[simp] theorem State.onDev_eq (s : State) (f : Dev → Dev) : s.onDev f = .next { s with dev := f s.dev } := rfl

/-! ### updCore -/

@[simp] theorem Dev.updCore_mem (d : Dev) (n : Nat) (f : Core → Core) : (d.updCore n f).mem = d.mem := rfl
@[simp] theorem Dev.updCore_badWords (d : Dev) (n : Nat) (f : Core → Core) : (d.updCore n f).badWords = d.badWords := rfl
@[simp] theorem Dev.updCore_latent (d : Dev) (n : Nat) (f : Core → Core) : (d.updCore n f).latent = d.latent := rfl
@[simp] theorem Dev.updCore_objs (d : Dev) (n : Nat) (f : Core → Core) : (d.updCore n f).objs = d.objs := rfl
@[simp] theorem Dev.updCore_staging (d : Dev) (n : Nat) (f : Core → Core) : (d.updCore n f).staging = d.staging := rfl
@[simp] theorem Dev.updCore_badObjs (d : Dev) (n : Nat) (f : Core → Core) : (d.updCore n f).badObjs = d.badObjs := rfl
@[simp] theorem Dev.updCore_counters (d : Dev) (n : Nat) (f : Core → Core) : (d.updCore n f).counters = d.counters := rfl
@[simp] theorem Dev.updCore_flags (d : Dev) (n : Nat) (f : Core → Core) : (d.updCore n f).flags = d.flags := rfl
@[simp] theorem Dev.updCore_streams (d : Dev) (n : Nat) (f : Core → Core) : (d.updCore n f).streams = d.streams := rfl
@[simp] theorem Dev.updCore_descs (d : Dev) (n : Nat) (f : Core → Core) : (d.updCore n f).descs = d.descs := rfl
@[simp] theorem Dev.updCore_rounds (d : Dev) (n : Nat) (f : Core → Core) : (d.updCore n f).rounds = d.rounds := rfl
@[simp] theorem Dev.updCore_restores (d : Dev) (n : Nat) (f : Core → Core) : (d.updCore n f).restores = d.restores := rfl
@[simp] theorem Dev.updCore_clusters (d : Dev) (n : Nat) (f : Core → Core) : (d.updCore n f).clusters = d.clusters := rfl
@[simp] theorem Dev.updCore_hbm (d : Dev) (n : Nat) (f : Core → Core) : (d.updCore n f).hbm = d.hbm := rfl
@[simp] theorem Dev.updCore_noc (d : Dev) (n : Nat) (f : Core → Core) : (d.updCore n f).noc = d.noc := rfl
@[simp] theorem Dev.updCore_saeri (d : Dev) (n : Nat) (f : Core → Core) : (d.updCore n f).saeri = d.saeri := rfl
@[simp] theorem Dev.updCore_ports (d : Dev) (n : Nat) (f : Core → Core) : (d.updCore n f).ports = d.ports := rfl
@[simp] theorem Dev.updCore_lanes (d : Dev) (n : Nat) (f : Core → Core) : (d.updCore n f).lanes = d.lanes := rfl
@[simp] theorem Dev.updCore_cfg (d : Dev) (n : Nat) (f : Core → Core) : (d.updCore n f).cfg = d.cfg := rfl
@[simp] theorem Dev.updCore_logic (d : Dev) (n : Nat) (f : Core → Core) : (d.updCore n f).logic = d.logic := rfl
@[simp] theorem Dev.updCore_bbramKey (d : Dev) (n : Nat) (f : Core → Core) : (d.updCore n f).bbramKey = d.bbramKey := rfl
@[simp] theorem Dev.updCore_dict (d : Dev) (n : Nat) (f : Core → Core) : (d.updCore n f).dict = d.dict := rfl
@[simp] theorem Dev.updCore_power (d : Dev) (n : Nat) (f : Core → Core) : (d.updCore n f).power = d.power := rfl
@[simp] theorem Dev.updCore_tally (d : Dev) (n : Nat) (f : Core → Core) : (d.updCore n f).tally = d.tally := rfl
@[simp] theorem Dev.updCore_pins (d : Dev) (n : Nat) (f : Core → Core) : (d.updCore n f).pins = d.pins := rfl
@[simp] theorem Dev.updCore_hostOut (d : Dev) (n : Nat) (f : Core → Core) : (d.updCore n f).hostOut = d.hostOut := rfl
@[simp] theorem Dev.updCore_accesses (d : Dev) (n : Nat) (f : Core → Core) : (d.updCore n f).accesses = d.accesses := rfl
@[simp] theorem Dev.updCore_nextAccess (d : Dev) (n : Nat) (f : Core → Core) : (d.updCore n f).nextAccess = d.nextAccess := rfl
@[simp] theorem Dev.updCore_faultLog (d : Dev) (n : Nat) (f : Core → Core) : (d.updCore n f).faultLog = d.faultLog := rfl
@[simp] theorem Dev.updCore_deadlockRecord (d : Dev) (n : Nat) (f : Core → Core) : (d.updCore n f).deadlockRecord = d.deadlockRecord := rfl
@[simp] theorem Dev.updCore_cycles (d : Dev) (n : Nat) (f : Core → Core) : (d.updCore n f).cycles = d.cycles := rfl
@[simp] theorem Dev.updCore_draws (d : Dev) (n : Nat) (f : Core → Core) : (d.updCore n f).draws = d.draws := rfl

/-! ### updStream -/

@[simp] theorem Dev.updStream_mem (d : Dev) (n : Nat) (f : Stream → Stream) : (d.updStream n f).mem = d.mem := rfl
@[simp] theorem Dev.updStream_badWords (d : Dev) (n : Nat) (f : Stream → Stream) : (d.updStream n f).badWords = d.badWords := rfl
@[simp] theorem Dev.updStream_latent (d : Dev) (n : Nat) (f : Stream → Stream) : (d.updStream n f).latent = d.latent := rfl
@[simp] theorem Dev.updStream_objs (d : Dev) (n : Nat) (f : Stream → Stream) : (d.updStream n f).objs = d.objs := rfl
@[simp] theorem Dev.updStream_staging (d : Dev) (n : Nat) (f : Stream → Stream) : (d.updStream n f).staging = d.staging := rfl
@[simp] theorem Dev.updStream_badObjs (d : Dev) (n : Nat) (f : Stream → Stream) : (d.updStream n f).badObjs = d.badObjs := rfl
@[simp] theorem Dev.updStream_counters (d : Dev) (n : Nat) (f : Stream → Stream) : (d.updStream n f).counters = d.counters := rfl
@[simp] theorem Dev.updStream_flags (d : Dev) (n : Nat) (f : Stream → Stream) : (d.updStream n f).flags = d.flags := rfl
@[simp] theorem Dev.updStream_descs (d : Dev) (n : Nat) (f : Stream → Stream) : (d.updStream n f).descs = d.descs := rfl
@[simp] theorem Dev.updStream_rounds (d : Dev) (n : Nat) (f : Stream → Stream) : (d.updStream n f).rounds = d.rounds := rfl
@[simp] theorem Dev.updStream_restores (d : Dev) (n : Nat) (f : Stream → Stream) : (d.updStream n f).restores = d.restores := rfl
@[simp] theorem Dev.updStream_cores (d : Dev) (n : Nat) (f : Stream → Stream) : (d.updStream n f).cores = d.cores := rfl
@[simp] theorem Dev.updStream_clusters (d : Dev) (n : Nat) (f : Stream → Stream) : (d.updStream n f).clusters = d.clusters := rfl
@[simp] theorem Dev.updStream_hbm (d : Dev) (n : Nat) (f : Stream → Stream) : (d.updStream n f).hbm = d.hbm := rfl
@[simp] theorem Dev.updStream_noc (d : Dev) (n : Nat) (f : Stream → Stream) : (d.updStream n f).noc = d.noc := rfl
@[simp] theorem Dev.updStream_saeri (d : Dev) (n : Nat) (f : Stream → Stream) : (d.updStream n f).saeri = d.saeri := rfl
@[simp] theorem Dev.updStream_ports (d : Dev) (n : Nat) (f : Stream → Stream) : (d.updStream n f).ports = d.ports := rfl
@[simp] theorem Dev.updStream_lanes (d : Dev) (n : Nat) (f : Stream → Stream) : (d.updStream n f).lanes = d.lanes := rfl
@[simp] theorem Dev.updStream_cfg (d : Dev) (n : Nat) (f : Stream → Stream) : (d.updStream n f).cfg = d.cfg := rfl
@[simp] theorem Dev.updStream_logic (d : Dev) (n : Nat) (f : Stream → Stream) : (d.updStream n f).logic = d.logic := rfl
@[simp] theorem Dev.updStream_bbramKey (d : Dev) (n : Nat) (f : Stream → Stream) : (d.updStream n f).bbramKey = d.bbramKey := rfl
@[simp] theorem Dev.updStream_dict (d : Dev) (n : Nat) (f : Stream → Stream) : (d.updStream n f).dict = d.dict := rfl
@[simp] theorem Dev.updStream_power (d : Dev) (n : Nat) (f : Stream → Stream) : (d.updStream n f).power = d.power := rfl
@[simp] theorem Dev.updStream_tally (d : Dev) (n : Nat) (f : Stream → Stream) : (d.updStream n f).tally = d.tally := rfl
@[simp] theorem Dev.updStream_pins (d : Dev) (n : Nat) (f : Stream → Stream) : (d.updStream n f).pins = d.pins := rfl
@[simp] theorem Dev.updStream_hostOut (d : Dev) (n : Nat) (f : Stream → Stream) : (d.updStream n f).hostOut = d.hostOut := rfl
@[simp] theorem Dev.updStream_accesses (d : Dev) (n : Nat) (f : Stream → Stream) : (d.updStream n f).accesses = d.accesses := rfl
@[simp] theorem Dev.updStream_nextAccess (d : Dev) (n : Nat) (f : Stream → Stream) : (d.updStream n f).nextAccess = d.nextAccess := rfl
@[simp] theorem Dev.updStream_faultLog (d : Dev) (n : Nat) (f : Stream → Stream) : (d.updStream n f).faultLog = d.faultLog := rfl
@[simp] theorem Dev.updStream_deadlockRecord (d : Dev) (n : Nat) (f : Stream → Stream) : (d.updStream n f).deadlockRecord = d.deadlockRecord := rfl
@[simp] theorem Dev.updStream_cycles (d : Dev) (n : Nat) (f : Stream → Stream) : (d.updStream n f).cycles = d.cycles := rfl
@[simp] theorem Dev.updStream_draws (d : Dev) (n : Nat) (f : Stream → Stream) : (d.updStream n f).draws = d.draws := rfl

/-! ### updCluster -/

@[simp] theorem Dev.updCluster_mem (d : Dev) (n : Nat) (f : Cluster → Cluster) : (d.updCluster n f).mem = d.mem := rfl
@[simp] theorem Dev.updCluster_badWords (d : Dev) (n : Nat) (f : Cluster → Cluster) : (d.updCluster n f).badWords = d.badWords := rfl
@[simp] theorem Dev.updCluster_latent (d : Dev) (n : Nat) (f : Cluster → Cluster) : (d.updCluster n f).latent = d.latent := rfl
@[simp] theorem Dev.updCluster_objs (d : Dev) (n : Nat) (f : Cluster → Cluster) : (d.updCluster n f).objs = d.objs := rfl
@[simp] theorem Dev.updCluster_staging (d : Dev) (n : Nat) (f : Cluster → Cluster) : (d.updCluster n f).staging = d.staging := rfl
@[simp] theorem Dev.updCluster_badObjs (d : Dev) (n : Nat) (f : Cluster → Cluster) : (d.updCluster n f).badObjs = d.badObjs := rfl
@[simp] theorem Dev.updCluster_counters (d : Dev) (n : Nat) (f : Cluster → Cluster) : (d.updCluster n f).counters = d.counters := rfl
@[simp] theorem Dev.updCluster_flags (d : Dev) (n : Nat) (f : Cluster → Cluster) : (d.updCluster n f).flags = d.flags := rfl
@[simp] theorem Dev.updCluster_streams (d : Dev) (n : Nat) (f : Cluster → Cluster) : (d.updCluster n f).streams = d.streams := rfl
@[simp] theorem Dev.updCluster_descs (d : Dev) (n : Nat) (f : Cluster → Cluster) : (d.updCluster n f).descs = d.descs := rfl
@[simp] theorem Dev.updCluster_rounds (d : Dev) (n : Nat) (f : Cluster → Cluster) : (d.updCluster n f).rounds = d.rounds := rfl
@[simp] theorem Dev.updCluster_restores (d : Dev) (n : Nat) (f : Cluster → Cluster) : (d.updCluster n f).restores = d.restores := rfl
@[simp] theorem Dev.updCluster_cores (d : Dev) (n : Nat) (f : Cluster → Cluster) : (d.updCluster n f).cores = d.cores := rfl
@[simp] theorem Dev.updCluster_hbm (d : Dev) (n : Nat) (f : Cluster → Cluster) : (d.updCluster n f).hbm = d.hbm := rfl
@[simp] theorem Dev.updCluster_noc (d : Dev) (n : Nat) (f : Cluster → Cluster) : (d.updCluster n f).noc = d.noc := rfl
@[simp] theorem Dev.updCluster_saeri (d : Dev) (n : Nat) (f : Cluster → Cluster) : (d.updCluster n f).saeri = d.saeri := rfl
@[simp] theorem Dev.updCluster_ports (d : Dev) (n : Nat) (f : Cluster → Cluster) : (d.updCluster n f).ports = d.ports := rfl
@[simp] theorem Dev.updCluster_lanes (d : Dev) (n : Nat) (f : Cluster → Cluster) : (d.updCluster n f).lanes = d.lanes := rfl
@[simp] theorem Dev.updCluster_cfg (d : Dev) (n : Nat) (f : Cluster → Cluster) : (d.updCluster n f).cfg = d.cfg := rfl
@[simp] theorem Dev.updCluster_logic (d : Dev) (n : Nat) (f : Cluster → Cluster) : (d.updCluster n f).logic = d.logic := rfl
@[simp] theorem Dev.updCluster_bbramKey (d : Dev) (n : Nat) (f : Cluster → Cluster) : (d.updCluster n f).bbramKey = d.bbramKey := rfl
@[simp] theorem Dev.updCluster_dict (d : Dev) (n : Nat) (f : Cluster → Cluster) : (d.updCluster n f).dict = d.dict := rfl
@[simp] theorem Dev.updCluster_power (d : Dev) (n : Nat) (f : Cluster → Cluster) : (d.updCluster n f).power = d.power := rfl
@[simp] theorem Dev.updCluster_tally (d : Dev) (n : Nat) (f : Cluster → Cluster) : (d.updCluster n f).tally = d.tally := rfl
@[simp] theorem Dev.updCluster_pins (d : Dev) (n : Nat) (f : Cluster → Cluster) : (d.updCluster n f).pins = d.pins := rfl
@[simp] theorem Dev.updCluster_hostOut (d : Dev) (n : Nat) (f : Cluster → Cluster) : (d.updCluster n f).hostOut = d.hostOut := rfl
@[simp] theorem Dev.updCluster_accesses (d : Dev) (n : Nat) (f : Cluster → Cluster) : (d.updCluster n f).accesses = d.accesses := rfl
@[simp] theorem Dev.updCluster_nextAccess (d : Dev) (n : Nat) (f : Cluster → Cluster) : (d.updCluster n f).nextAccess = d.nextAccess := rfl
@[simp] theorem Dev.updCluster_faultLog (d : Dev) (n : Nat) (f : Cluster → Cluster) : (d.updCluster n f).faultLog = d.faultLog := rfl
@[simp] theorem Dev.updCluster_deadlockRecord (d : Dev) (n : Nat) (f : Cluster → Cluster) : (d.updCluster n f).deadlockRecord = d.deadlockRecord := rfl
@[simp] theorem Dev.updCluster_cycles (d : Dev) (n : Nat) (f : Cluster → Cluster) : (d.updCluster n f).cycles = d.cycles := rfl
@[simp] theorem Dev.updCluster_draws (d : Dev) (n : Nat) (f : Cluster → Cluster) : (d.updCluster n f).draws = d.draws := rfl

/-! ### updPort -/

@[simp] theorem Dev.updPort_mem (d : Dev) (n : Nat) (f : Port → Port) : (d.updPort n f).mem = d.mem := rfl
@[simp] theorem Dev.updPort_badWords (d : Dev) (n : Nat) (f : Port → Port) : (d.updPort n f).badWords = d.badWords := rfl
@[simp] theorem Dev.updPort_latent (d : Dev) (n : Nat) (f : Port → Port) : (d.updPort n f).latent = d.latent := rfl
@[simp] theorem Dev.updPort_objs (d : Dev) (n : Nat) (f : Port → Port) : (d.updPort n f).objs = d.objs := rfl
@[simp] theorem Dev.updPort_staging (d : Dev) (n : Nat) (f : Port → Port) : (d.updPort n f).staging = d.staging := rfl
@[simp] theorem Dev.updPort_badObjs (d : Dev) (n : Nat) (f : Port → Port) : (d.updPort n f).badObjs = d.badObjs := rfl
@[simp] theorem Dev.updPort_counters (d : Dev) (n : Nat) (f : Port → Port) : (d.updPort n f).counters = d.counters := rfl
@[simp] theorem Dev.updPort_flags (d : Dev) (n : Nat) (f : Port → Port) : (d.updPort n f).flags = d.flags := rfl
@[simp] theorem Dev.updPort_streams (d : Dev) (n : Nat) (f : Port → Port) : (d.updPort n f).streams = d.streams := rfl
@[simp] theorem Dev.updPort_descs (d : Dev) (n : Nat) (f : Port → Port) : (d.updPort n f).descs = d.descs := rfl
@[simp] theorem Dev.updPort_rounds (d : Dev) (n : Nat) (f : Port → Port) : (d.updPort n f).rounds = d.rounds := rfl
@[simp] theorem Dev.updPort_restores (d : Dev) (n : Nat) (f : Port → Port) : (d.updPort n f).restores = d.restores := rfl
@[simp] theorem Dev.updPort_cores (d : Dev) (n : Nat) (f : Port → Port) : (d.updPort n f).cores = d.cores := rfl
@[simp] theorem Dev.updPort_clusters (d : Dev) (n : Nat) (f : Port → Port) : (d.updPort n f).clusters = d.clusters := rfl
@[simp] theorem Dev.updPort_hbm (d : Dev) (n : Nat) (f : Port → Port) : (d.updPort n f).hbm = d.hbm := rfl
@[simp] theorem Dev.updPort_noc (d : Dev) (n : Nat) (f : Port → Port) : (d.updPort n f).noc = d.noc := rfl
@[simp] theorem Dev.updPort_saeri (d : Dev) (n : Nat) (f : Port → Port) : (d.updPort n f).saeri = d.saeri := rfl
@[simp] theorem Dev.updPort_lanes (d : Dev) (n : Nat) (f : Port → Port) : (d.updPort n f).lanes = d.lanes := rfl
@[simp] theorem Dev.updPort_cfg (d : Dev) (n : Nat) (f : Port → Port) : (d.updPort n f).cfg = d.cfg := rfl
@[simp] theorem Dev.updPort_logic (d : Dev) (n : Nat) (f : Port → Port) : (d.updPort n f).logic = d.logic := rfl
@[simp] theorem Dev.updPort_bbramKey (d : Dev) (n : Nat) (f : Port → Port) : (d.updPort n f).bbramKey = d.bbramKey := rfl
@[simp] theorem Dev.updPort_dict (d : Dev) (n : Nat) (f : Port → Port) : (d.updPort n f).dict = d.dict := rfl
@[simp] theorem Dev.updPort_power (d : Dev) (n : Nat) (f : Port → Port) : (d.updPort n f).power = d.power := rfl
@[simp] theorem Dev.updPort_tally (d : Dev) (n : Nat) (f : Port → Port) : (d.updPort n f).tally = d.tally := rfl
@[simp] theorem Dev.updPort_pins (d : Dev) (n : Nat) (f : Port → Port) : (d.updPort n f).pins = d.pins := rfl
@[simp] theorem Dev.updPort_hostOut (d : Dev) (n : Nat) (f : Port → Port) : (d.updPort n f).hostOut = d.hostOut := rfl
@[simp] theorem Dev.updPort_accesses (d : Dev) (n : Nat) (f : Port → Port) : (d.updPort n f).accesses = d.accesses := rfl
@[simp] theorem Dev.updPort_nextAccess (d : Dev) (n : Nat) (f : Port → Port) : (d.updPort n f).nextAccess = d.nextAccess := rfl
@[simp] theorem Dev.updPort_faultLog (d : Dev) (n : Nat) (f : Port → Port) : (d.updPort n f).faultLog = d.faultLog := rfl
@[simp] theorem Dev.updPort_deadlockRecord (d : Dev) (n : Nat) (f : Port → Port) : (d.updPort n f).deadlockRecord = d.deadlockRecord := rfl
@[simp] theorem Dev.updPort_cycles (d : Dev) (n : Nat) (f : Port → Port) : (d.updPort n f).cycles = d.cycles := rfl
@[simp] theorem Dev.updPort_draws (d : Dev) (n : Nat) (f : Port → Port) : (d.updPort n f).draws = d.draws := rfl

/-! ### updLane -/

@[simp] theorem Dev.updLane_mem (d : Dev) (n : Nat) (f : Lane → Lane) : (d.updLane n f).mem = d.mem := rfl
@[simp] theorem Dev.updLane_badWords (d : Dev) (n : Nat) (f : Lane → Lane) : (d.updLane n f).badWords = d.badWords := rfl
@[simp] theorem Dev.updLane_latent (d : Dev) (n : Nat) (f : Lane → Lane) : (d.updLane n f).latent = d.latent := rfl
@[simp] theorem Dev.updLane_objs (d : Dev) (n : Nat) (f : Lane → Lane) : (d.updLane n f).objs = d.objs := rfl
@[simp] theorem Dev.updLane_staging (d : Dev) (n : Nat) (f : Lane → Lane) : (d.updLane n f).staging = d.staging := rfl
@[simp] theorem Dev.updLane_badObjs (d : Dev) (n : Nat) (f : Lane → Lane) : (d.updLane n f).badObjs = d.badObjs := rfl
@[simp] theorem Dev.updLane_counters (d : Dev) (n : Nat) (f : Lane → Lane) : (d.updLane n f).counters = d.counters := rfl
@[simp] theorem Dev.updLane_flags (d : Dev) (n : Nat) (f : Lane → Lane) : (d.updLane n f).flags = d.flags := rfl
@[simp] theorem Dev.updLane_streams (d : Dev) (n : Nat) (f : Lane → Lane) : (d.updLane n f).streams = d.streams := rfl
@[simp] theorem Dev.updLane_descs (d : Dev) (n : Nat) (f : Lane → Lane) : (d.updLane n f).descs = d.descs := rfl
@[simp] theorem Dev.updLane_rounds (d : Dev) (n : Nat) (f : Lane → Lane) : (d.updLane n f).rounds = d.rounds := rfl
@[simp] theorem Dev.updLane_restores (d : Dev) (n : Nat) (f : Lane → Lane) : (d.updLane n f).restores = d.restores := rfl
@[simp] theorem Dev.updLane_cores (d : Dev) (n : Nat) (f : Lane → Lane) : (d.updLane n f).cores = d.cores := rfl
@[simp] theorem Dev.updLane_clusters (d : Dev) (n : Nat) (f : Lane → Lane) : (d.updLane n f).clusters = d.clusters := rfl
@[simp] theorem Dev.updLane_hbm (d : Dev) (n : Nat) (f : Lane → Lane) : (d.updLane n f).hbm = d.hbm := rfl
@[simp] theorem Dev.updLane_noc (d : Dev) (n : Nat) (f : Lane → Lane) : (d.updLane n f).noc = d.noc := rfl
@[simp] theorem Dev.updLane_saeri (d : Dev) (n : Nat) (f : Lane → Lane) : (d.updLane n f).saeri = d.saeri := rfl
@[simp] theorem Dev.updLane_ports (d : Dev) (n : Nat) (f : Lane → Lane) : (d.updLane n f).ports = d.ports := rfl
@[simp] theorem Dev.updLane_cfg (d : Dev) (n : Nat) (f : Lane → Lane) : (d.updLane n f).cfg = d.cfg := rfl
@[simp] theorem Dev.updLane_logic (d : Dev) (n : Nat) (f : Lane → Lane) : (d.updLane n f).logic = d.logic := rfl
@[simp] theorem Dev.updLane_bbramKey (d : Dev) (n : Nat) (f : Lane → Lane) : (d.updLane n f).bbramKey = d.bbramKey := rfl
@[simp] theorem Dev.updLane_dict (d : Dev) (n : Nat) (f : Lane → Lane) : (d.updLane n f).dict = d.dict := rfl
@[simp] theorem Dev.updLane_power (d : Dev) (n : Nat) (f : Lane → Lane) : (d.updLane n f).power = d.power := rfl
@[simp] theorem Dev.updLane_tally (d : Dev) (n : Nat) (f : Lane → Lane) : (d.updLane n f).tally = d.tally := rfl
@[simp] theorem Dev.updLane_pins (d : Dev) (n : Nat) (f : Lane → Lane) : (d.updLane n f).pins = d.pins := rfl
@[simp] theorem Dev.updLane_hostOut (d : Dev) (n : Nat) (f : Lane → Lane) : (d.updLane n f).hostOut = d.hostOut := rfl
@[simp] theorem Dev.updLane_accesses (d : Dev) (n : Nat) (f : Lane → Lane) : (d.updLane n f).accesses = d.accesses := rfl
@[simp] theorem Dev.updLane_nextAccess (d : Dev) (n : Nat) (f : Lane → Lane) : (d.updLane n f).nextAccess = d.nextAccess := rfl
@[simp] theorem Dev.updLane_faultLog (d : Dev) (n : Nat) (f : Lane → Lane) : (d.updLane n f).faultLog = d.faultLog := rfl
@[simp] theorem Dev.updLane_deadlockRecord (d : Dev) (n : Nat) (f : Lane → Lane) : (d.updLane n f).deadlockRecord = d.deadlockRecord := rfl
@[simp] theorem Dev.updLane_cycles (d : Dev) (n : Nat) (f : Lane → Lane) : (d.updLane n f).cycles = d.cycles := rfl
@[simp] theorem Dev.updLane_draws (d : Dev) (n : Nat) (f : Lane → Lane) : (d.updLane n f).draws = d.draws := rfl

/-! ### updRk -/

@[simp] theorem Dev.updRk_mem (d : Dev) (n : Nat) (f : Reckoner → Reckoner) : (d.updRk n f).mem = d.mem := rfl
@[simp] theorem Dev.updRk_badWords (d : Dev) (n : Nat) (f : Reckoner → Reckoner) : (d.updRk n f).badWords = d.badWords := rfl
@[simp] theorem Dev.updRk_latent (d : Dev) (n : Nat) (f : Reckoner → Reckoner) : (d.updRk n f).latent = d.latent := rfl
@[simp] theorem Dev.updRk_objs (d : Dev) (n : Nat) (f : Reckoner → Reckoner) : (d.updRk n f).objs = d.objs := rfl
@[simp] theorem Dev.updRk_staging (d : Dev) (n : Nat) (f : Reckoner → Reckoner) : (d.updRk n f).staging = d.staging := rfl
@[simp] theorem Dev.updRk_badObjs (d : Dev) (n : Nat) (f : Reckoner → Reckoner) : (d.updRk n f).badObjs = d.badObjs := rfl
@[simp] theorem Dev.updRk_counters (d : Dev) (n : Nat) (f : Reckoner → Reckoner) : (d.updRk n f).counters = d.counters := rfl
@[simp] theorem Dev.updRk_flags (d : Dev) (n : Nat) (f : Reckoner → Reckoner) : (d.updRk n f).flags = d.flags := rfl
@[simp] theorem Dev.updRk_streams (d : Dev) (n : Nat) (f : Reckoner → Reckoner) : (d.updRk n f).streams = d.streams := rfl
@[simp] theorem Dev.updRk_descs (d : Dev) (n : Nat) (f : Reckoner → Reckoner) : (d.updRk n f).descs = d.descs := rfl
@[simp] theorem Dev.updRk_rounds (d : Dev) (n : Nat) (f : Reckoner → Reckoner) : (d.updRk n f).rounds = d.rounds := rfl
@[simp] theorem Dev.updRk_restores (d : Dev) (n : Nat) (f : Reckoner → Reckoner) : (d.updRk n f).restores = d.restores := rfl
@[simp] theorem Dev.updRk_clusters (d : Dev) (n : Nat) (f : Reckoner → Reckoner) : (d.updRk n f).clusters = d.clusters := rfl
@[simp] theorem Dev.updRk_hbm (d : Dev) (n : Nat) (f : Reckoner → Reckoner) : (d.updRk n f).hbm = d.hbm := rfl
@[simp] theorem Dev.updRk_noc (d : Dev) (n : Nat) (f : Reckoner → Reckoner) : (d.updRk n f).noc = d.noc := rfl
@[simp] theorem Dev.updRk_saeri (d : Dev) (n : Nat) (f : Reckoner → Reckoner) : (d.updRk n f).saeri = d.saeri := rfl
@[simp] theorem Dev.updRk_ports (d : Dev) (n : Nat) (f : Reckoner → Reckoner) : (d.updRk n f).ports = d.ports := rfl
@[simp] theorem Dev.updRk_lanes (d : Dev) (n : Nat) (f : Reckoner → Reckoner) : (d.updRk n f).lanes = d.lanes := rfl
@[simp] theorem Dev.updRk_cfg (d : Dev) (n : Nat) (f : Reckoner → Reckoner) : (d.updRk n f).cfg = d.cfg := rfl
@[simp] theorem Dev.updRk_logic (d : Dev) (n : Nat) (f : Reckoner → Reckoner) : (d.updRk n f).logic = d.logic := rfl
@[simp] theorem Dev.updRk_bbramKey (d : Dev) (n : Nat) (f : Reckoner → Reckoner) : (d.updRk n f).bbramKey = d.bbramKey := rfl
@[simp] theorem Dev.updRk_dict (d : Dev) (n : Nat) (f : Reckoner → Reckoner) : (d.updRk n f).dict = d.dict := rfl
@[simp] theorem Dev.updRk_power (d : Dev) (n : Nat) (f : Reckoner → Reckoner) : (d.updRk n f).power = d.power := rfl
@[simp] theorem Dev.updRk_tally (d : Dev) (n : Nat) (f : Reckoner → Reckoner) : (d.updRk n f).tally = d.tally := rfl
@[simp] theorem Dev.updRk_pins (d : Dev) (n : Nat) (f : Reckoner → Reckoner) : (d.updRk n f).pins = d.pins := rfl
@[simp] theorem Dev.updRk_hostOut (d : Dev) (n : Nat) (f : Reckoner → Reckoner) : (d.updRk n f).hostOut = d.hostOut := rfl
@[simp] theorem Dev.updRk_accesses (d : Dev) (n : Nat) (f : Reckoner → Reckoner) : (d.updRk n f).accesses = d.accesses := rfl
@[simp] theorem Dev.updRk_nextAccess (d : Dev) (n : Nat) (f : Reckoner → Reckoner) : (d.updRk n f).nextAccess = d.nextAccess := rfl
@[simp] theorem Dev.updRk_faultLog (d : Dev) (n : Nat) (f : Reckoner → Reckoner) : (d.updRk n f).faultLog = d.faultLog := rfl
@[simp] theorem Dev.updRk_deadlockRecord (d : Dev) (n : Nat) (f : Reckoner → Reckoner) : (d.updRk n f).deadlockRecord = d.deadlockRecord := rfl
@[simp] theorem Dev.updRk_cycles (d : Dev) (n : Nat) (f : Reckoner → Reckoner) : (d.updRk n f).cycles = d.cycles := rfl
@[simp] theorem Dev.updRk_draws (d : Dev) (n : Nat) (f : Reckoner → Reckoner) : (d.updRk n f).draws = d.draws := rfl

/-! ### updArray -/

@[simp] theorem Dev.updArray_mem (d : Dev) (n : Nat) (f : ArrayEngine → ArrayEngine) : (d.updArray n f).mem = d.mem := rfl
@[simp] theorem Dev.updArray_badWords (d : Dev) (n : Nat) (f : ArrayEngine → ArrayEngine) : (d.updArray n f).badWords = d.badWords := rfl
@[simp] theorem Dev.updArray_latent (d : Dev) (n : Nat) (f : ArrayEngine → ArrayEngine) : (d.updArray n f).latent = d.latent := rfl
@[simp] theorem Dev.updArray_objs (d : Dev) (n : Nat) (f : ArrayEngine → ArrayEngine) : (d.updArray n f).objs = d.objs := rfl
@[simp] theorem Dev.updArray_staging (d : Dev) (n : Nat) (f : ArrayEngine → ArrayEngine) : (d.updArray n f).staging = d.staging := rfl
@[simp] theorem Dev.updArray_badObjs (d : Dev) (n : Nat) (f : ArrayEngine → ArrayEngine) : (d.updArray n f).badObjs = d.badObjs := rfl
@[simp] theorem Dev.updArray_counters (d : Dev) (n : Nat) (f : ArrayEngine → ArrayEngine) : (d.updArray n f).counters = d.counters := rfl
@[simp] theorem Dev.updArray_flags (d : Dev) (n : Nat) (f : ArrayEngine → ArrayEngine) : (d.updArray n f).flags = d.flags := rfl
@[simp] theorem Dev.updArray_streams (d : Dev) (n : Nat) (f : ArrayEngine → ArrayEngine) : (d.updArray n f).streams = d.streams := rfl
@[simp] theorem Dev.updArray_descs (d : Dev) (n : Nat) (f : ArrayEngine → ArrayEngine) : (d.updArray n f).descs = d.descs := rfl
@[simp] theorem Dev.updArray_rounds (d : Dev) (n : Nat) (f : ArrayEngine → ArrayEngine) : (d.updArray n f).rounds = d.rounds := rfl
@[simp] theorem Dev.updArray_restores (d : Dev) (n : Nat) (f : ArrayEngine → ArrayEngine) : (d.updArray n f).restores = d.restores := rfl
@[simp] theorem Dev.updArray_clusters (d : Dev) (n : Nat) (f : ArrayEngine → ArrayEngine) : (d.updArray n f).clusters = d.clusters := rfl
@[simp] theorem Dev.updArray_hbm (d : Dev) (n : Nat) (f : ArrayEngine → ArrayEngine) : (d.updArray n f).hbm = d.hbm := rfl
@[simp] theorem Dev.updArray_noc (d : Dev) (n : Nat) (f : ArrayEngine → ArrayEngine) : (d.updArray n f).noc = d.noc := rfl
@[simp] theorem Dev.updArray_saeri (d : Dev) (n : Nat) (f : ArrayEngine → ArrayEngine) : (d.updArray n f).saeri = d.saeri := rfl
@[simp] theorem Dev.updArray_ports (d : Dev) (n : Nat) (f : ArrayEngine → ArrayEngine) : (d.updArray n f).ports = d.ports := rfl
@[simp] theorem Dev.updArray_lanes (d : Dev) (n : Nat) (f : ArrayEngine → ArrayEngine) : (d.updArray n f).lanes = d.lanes := rfl
@[simp] theorem Dev.updArray_cfg (d : Dev) (n : Nat) (f : ArrayEngine → ArrayEngine) : (d.updArray n f).cfg = d.cfg := rfl
@[simp] theorem Dev.updArray_logic (d : Dev) (n : Nat) (f : ArrayEngine → ArrayEngine) : (d.updArray n f).logic = d.logic := rfl
@[simp] theorem Dev.updArray_bbramKey (d : Dev) (n : Nat) (f : ArrayEngine → ArrayEngine) : (d.updArray n f).bbramKey = d.bbramKey := rfl
@[simp] theorem Dev.updArray_dict (d : Dev) (n : Nat) (f : ArrayEngine → ArrayEngine) : (d.updArray n f).dict = d.dict := rfl
@[simp] theorem Dev.updArray_power (d : Dev) (n : Nat) (f : ArrayEngine → ArrayEngine) : (d.updArray n f).power = d.power := rfl
@[simp] theorem Dev.updArray_tally (d : Dev) (n : Nat) (f : ArrayEngine → ArrayEngine) : (d.updArray n f).tally = d.tally := rfl
@[simp] theorem Dev.updArray_pins (d : Dev) (n : Nat) (f : ArrayEngine → ArrayEngine) : (d.updArray n f).pins = d.pins := rfl
@[simp] theorem Dev.updArray_hostOut (d : Dev) (n : Nat) (f : ArrayEngine → ArrayEngine) : (d.updArray n f).hostOut = d.hostOut := rfl
@[simp] theorem Dev.updArray_accesses (d : Dev) (n : Nat) (f : ArrayEngine → ArrayEngine) : (d.updArray n f).accesses = d.accesses := rfl
@[simp] theorem Dev.updArray_nextAccess (d : Dev) (n : Nat) (f : ArrayEngine → ArrayEngine) : (d.updArray n f).nextAccess = d.nextAccess := rfl
@[simp] theorem Dev.updArray_faultLog (d : Dev) (n : Nat) (f : ArrayEngine → ArrayEngine) : (d.updArray n f).faultLog = d.faultLog := rfl
@[simp] theorem Dev.updArray_deadlockRecord (d : Dev) (n : Nat) (f : ArrayEngine → ArrayEngine) : (d.updArray n f).deadlockRecord = d.deadlockRecord := rfl
@[simp] theorem Dev.updArray_cycles (d : Dev) (n : Nat) (f : ArrayEngine → ArrayEngine) : (d.updArray n f).cycles = d.cycles := rfl
@[simp] theorem Dev.updArray_draws (d : Dev) (n : Nat) (f : ArrayEngine → ArrayEngine) : (d.updArray n f).draws = d.draws := rfl

/-! ### updSlate -/

@[simp] theorem Dev.updSlate_mem (d : Dev) (n : Nat) (f : SlateEngine → SlateEngine) : (d.updSlate n f).mem = d.mem := rfl
@[simp] theorem Dev.updSlate_badWords (d : Dev) (n : Nat) (f : SlateEngine → SlateEngine) : (d.updSlate n f).badWords = d.badWords := rfl
@[simp] theorem Dev.updSlate_latent (d : Dev) (n : Nat) (f : SlateEngine → SlateEngine) : (d.updSlate n f).latent = d.latent := rfl
@[simp] theorem Dev.updSlate_objs (d : Dev) (n : Nat) (f : SlateEngine → SlateEngine) : (d.updSlate n f).objs = d.objs := rfl
@[simp] theorem Dev.updSlate_staging (d : Dev) (n : Nat) (f : SlateEngine → SlateEngine) : (d.updSlate n f).staging = d.staging := rfl
@[simp] theorem Dev.updSlate_badObjs (d : Dev) (n : Nat) (f : SlateEngine → SlateEngine) : (d.updSlate n f).badObjs = d.badObjs := rfl
@[simp] theorem Dev.updSlate_counters (d : Dev) (n : Nat) (f : SlateEngine → SlateEngine) : (d.updSlate n f).counters = d.counters := rfl
@[simp] theorem Dev.updSlate_flags (d : Dev) (n : Nat) (f : SlateEngine → SlateEngine) : (d.updSlate n f).flags = d.flags := rfl
@[simp] theorem Dev.updSlate_streams (d : Dev) (n : Nat) (f : SlateEngine → SlateEngine) : (d.updSlate n f).streams = d.streams := rfl
@[simp] theorem Dev.updSlate_descs (d : Dev) (n : Nat) (f : SlateEngine → SlateEngine) : (d.updSlate n f).descs = d.descs := rfl
@[simp] theorem Dev.updSlate_rounds (d : Dev) (n : Nat) (f : SlateEngine → SlateEngine) : (d.updSlate n f).rounds = d.rounds := rfl
@[simp] theorem Dev.updSlate_restores (d : Dev) (n : Nat) (f : SlateEngine → SlateEngine) : (d.updSlate n f).restores = d.restores := rfl
@[simp] theorem Dev.updSlate_clusters (d : Dev) (n : Nat) (f : SlateEngine → SlateEngine) : (d.updSlate n f).clusters = d.clusters := rfl
@[simp] theorem Dev.updSlate_hbm (d : Dev) (n : Nat) (f : SlateEngine → SlateEngine) : (d.updSlate n f).hbm = d.hbm := rfl
@[simp] theorem Dev.updSlate_noc (d : Dev) (n : Nat) (f : SlateEngine → SlateEngine) : (d.updSlate n f).noc = d.noc := rfl
@[simp] theorem Dev.updSlate_saeri (d : Dev) (n : Nat) (f : SlateEngine → SlateEngine) : (d.updSlate n f).saeri = d.saeri := rfl
@[simp] theorem Dev.updSlate_ports (d : Dev) (n : Nat) (f : SlateEngine → SlateEngine) : (d.updSlate n f).ports = d.ports := rfl
@[simp] theorem Dev.updSlate_lanes (d : Dev) (n : Nat) (f : SlateEngine → SlateEngine) : (d.updSlate n f).lanes = d.lanes := rfl
@[simp] theorem Dev.updSlate_cfg (d : Dev) (n : Nat) (f : SlateEngine → SlateEngine) : (d.updSlate n f).cfg = d.cfg := rfl
@[simp] theorem Dev.updSlate_logic (d : Dev) (n : Nat) (f : SlateEngine → SlateEngine) : (d.updSlate n f).logic = d.logic := rfl
@[simp] theorem Dev.updSlate_bbramKey (d : Dev) (n : Nat) (f : SlateEngine → SlateEngine) : (d.updSlate n f).bbramKey = d.bbramKey := rfl
@[simp] theorem Dev.updSlate_dict (d : Dev) (n : Nat) (f : SlateEngine → SlateEngine) : (d.updSlate n f).dict = d.dict := rfl
@[simp] theorem Dev.updSlate_power (d : Dev) (n : Nat) (f : SlateEngine → SlateEngine) : (d.updSlate n f).power = d.power := rfl
@[simp] theorem Dev.updSlate_tally (d : Dev) (n : Nat) (f : SlateEngine → SlateEngine) : (d.updSlate n f).tally = d.tally := rfl
@[simp] theorem Dev.updSlate_pins (d : Dev) (n : Nat) (f : SlateEngine → SlateEngine) : (d.updSlate n f).pins = d.pins := rfl
@[simp] theorem Dev.updSlate_hostOut (d : Dev) (n : Nat) (f : SlateEngine → SlateEngine) : (d.updSlate n f).hostOut = d.hostOut := rfl
@[simp] theorem Dev.updSlate_accesses (d : Dev) (n : Nat) (f : SlateEngine → SlateEngine) : (d.updSlate n f).accesses = d.accesses := rfl
@[simp] theorem Dev.updSlate_nextAccess (d : Dev) (n : Nat) (f : SlateEngine → SlateEngine) : (d.updSlate n f).nextAccess = d.nextAccess := rfl
@[simp] theorem Dev.updSlate_faultLog (d : Dev) (n : Nat) (f : SlateEngine → SlateEngine) : (d.updSlate n f).faultLog = d.faultLog := rfl
@[simp] theorem Dev.updSlate_deadlockRecord (d : Dev) (n : Nat) (f : SlateEngine → SlateEngine) : (d.updSlate n f).deadlockRecord = d.deadlockRecord := rfl
@[simp] theorem Dev.updSlate_cycles (d : Dev) (n : Nat) (f : SlateEngine → SlateEngine) : (d.updSlate n f).cycles = d.cycles := rfl
@[simp] theorem Dev.updSlate_draws (d : Dev) (n : Nat) (f : SlateEngine → SlateEngine) : (d.updSlate n f).draws = d.draws := rfl

/-! ### updFab -/

@[simp] theorem Dev.updFab_mem (d : Dev) (n : Nat) (f : FabricPort → FabricPort) : (d.updFab n f).mem = d.mem := rfl
@[simp] theorem Dev.updFab_badWords (d : Dev) (n : Nat) (f : FabricPort → FabricPort) : (d.updFab n f).badWords = d.badWords := rfl
@[simp] theorem Dev.updFab_latent (d : Dev) (n : Nat) (f : FabricPort → FabricPort) : (d.updFab n f).latent = d.latent := rfl
@[simp] theorem Dev.updFab_objs (d : Dev) (n : Nat) (f : FabricPort → FabricPort) : (d.updFab n f).objs = d.objs := rfl
@[simp] theorem Dev.updFab_staging (d : Dev) (n : Nat) (f : FabricPort → FabricPort) : (d.updFab n f).staging = d.staging := rfl
@[simp] theorem Dev.updFab_badObjs (d : Dev) (n : Nat) (f : FabricPort → FabricPort) : (d.updFab n f).badObjs = d.badObjs := rfl
@[simp] theorem Dev.updFab_counters (d : Dev) (n : Nat) (f : FabricPort → FabricPort) : (d.updFab n f).counters = d.counters := rfl
@[simp] theorem Dev.updFab_flags (d : Dev) (n : Nat) (f : FabricPort → FabricPort) : (d.updFab n f).flags = d.flags := rfl
@[simp] theorem Dev.updFab_streams (d : Dev) (n : Nat) (f : FabricPort → FabricPort) : (d.updFab n f).streams = d.streams := rfl
@[simp] theorem Dev.updFab_descs (d : Dev) (n : Nat) (f : FabricPort → FabricPort) : (d.updFab n f).descs = d.descs := rfl
@[simp] theorem Dev.updFab_rounds (d : Dev) (n : Nat) (f : FabricPort → FabricPort) : (d.updFab n f).rounds = d.rounds := rfl
@[simp] theorem Dev.updFab_restores (d : Dev) (n : Nat) (f : FabricPort → FabricPort) : (d.updFab n f).restores = d.restores := rfl
@[simp] theorem Dev.updFab_clusters (d : Dev) (n : Nat) (f : FabricPort → FabricPort) : (d.updFab n f).clusters = d.clusters := rfl
@[simp] theorem Dev.updFab_hbm (d : Dev) (n : Nat) (f : FabricPort → FabricPort) : (d.updFab n f).hbm = d.hbm := rfl
@[simp] theorem Dev.updFab_noc (d : Dev) (n : Nat) (f : FabricPort → FabricPort) : (d.updFab n f).noc = d.noc := rfl
@[simp] theorem Dev.updFab_saeri (d : Dev) (n : Nat) (f : FabricPort → FabricPort) : (d.updFab n f).saeri = d.saeri := rfl
@[simp] theorem Dev.updFab_ports (d : Dev) (n : Nat) (f : FabricPort → FabricPort) : (d.updFab n f).ports = d.ports := rfl
@[simp] theorem Dev.updFab_lanes (d : Dev) (n : Nat) (f : FabricPort → FabricPort) : (d.updFab n f).lanes = d.lanes := rfl
@[simp] theorem Dev.updFab_cfg (d : Dev) (n : Nat) (f : FabricPort → FabricPort) : (d.updFab n f).cfg = d.cfg := rfl
@[simp] theorem Dev.updFab_logic (d : Dev) (n : Nat) (f : FabricPort → FabricPort) : (d.updFab n f).logic = d.logic := rfl
@[simp] theorem Dev.updFab_bbramKey (d : Dev) (n : Nat) (f : FabricPort → FabricPort) : (d.updFab n f).bbramKey = d.bbramKey := rfl
@[simp] theorem Dev.updFab_dict (d : Dev) (n : Nat) (f : FabricPort → FabricPort) : (d.updFab n f).dict = d.dict := rfl
@[simp] theorem Dev.updFab_power (d : Dev) (n : Nat) (f : FabricPort → FabricPort) : (d.updFab n f).power = d.power := rfl
@[simp] theorem Dev.updFab_tally (d : Dev) (n : Nat) (f : FabricPort → FabricPort) : (d.updFab n f).tally = d.tally := rfl
@[simp] theorem Dev.updFab_pins (d : Dev) (n : Nat) (f : FabricPort → FabricPort) : (d.updFab n f).pins = d.pins := rfl
@[simp] theorem Dev.updFab_hostOut (d : Dev) (n : Nat) (f : FabricPort → FabricPort) : (d.updFab n f).hostOut = d.hostOut := rfl
@[simp] theorem Dev.updFab_accesses (d : Dev) (n : Nat) (f : FabricPort → FabricPort) : (d.updFab n f).accesses = d.accesses := rfl
@[simp] theorem Dev.updFab_nextAccess (d : Dev) (n : Nat) (f : FabricPort → FabricPort) : (d.updFab n f).nextAccess = d.nextAccess := rfl
@[simp] theorem Dev.updFab_faultLog (d : Dev) (n : Nat) (f : FabricPort → FabricPort) : (d.updFab n f).faultLog = d.faultLog := rfl
@[simp] theorem Dev.updFab_deadlockRecord (d : Dev) (n : Nat) (f : FabricPort → FabricPort) : (d.updFab n f).deadlockRecord = d.deadlockRecord := rfl
@[simp] theorem Dev.updFab_cycles (d : Dev) (n : Nat) (f : FabricPort → FabricPort) : (d.updFab n f).cycles = d.cycles := rfl
@[simp] theorem Dev.updFab_draws (d : Dev) (n : Nat) (f : FabricPort → FabricPort) : (d.updFab n f).draws = d.draws := rfl

/-! ### updRing -/

@[simp] theorem Dev.updRing_mem (d : Dev) (n r : Nat) (f : Ring → Ring) : (d.updRing n r f).mem = d.mem := rfl
@[simp] theorem Dev.updRing_badWords (d : Dev) (n r : Nat) (f : Ring → Ring) : (d.updRing n r f).badWords = d.badWords := rfl
@[simp] theorem Dev.updRing_latent (d : Dev) (n r : Nat) (f : Ring → Ring) : (d.updRing n r f).latent = d.latent := rfl
@[simp] theorem Dev.updRing_objs (d : Dev) (n r : Nat) (f : Ring → Ring) : (d.updRing n r f).objs = d.objs := rfl
@[simp] theorem Dev.updRing_staging (d : Dev) (n r : Nat) (f : Ring → Ring) : (d.updRing n r f).staging = d.staging := rfl
@[simp] theorem Dev.updRing_badObjs (d : Dev) (n r : Nat) (f : Ring → Ring) : (d.updRing n r f).badObjs = d.badObjs := rfl
@[simp] theorem Dev.updRing_counters (d : Dev) (n r : Nat) (f : Ring → Ring) : (d.updRing n r f).counters = d.counters := rfl
@[simp] theorem Dev.updRing_flags (d : Dev) (n r : Nat) (f : Ring → Ring) : (d.updRing n r f).flags = d.flags := rfl
@[simp] theorem Dev.updRing_streams (d : Dev) (n r : Nat) (f : Ring → Ring) : (d.updRing n r f).streams = d.streams := rfl
@[simp] theorem Dev.updRing_descs (d : Dev) (n r : Nat) (f : Ring → Ring) : (d.updRing n r f).descs = d.descs := rfl
@[simp] theorem Dev.updRing_rounds (d : Dev) (n r : Nat) (f : Ring → Ring) : (d.updRing n r f).rounds = d.rounds := rfl
@[simp] theorem Dev.updRing_restores (d : Dev) (n r : Nat) (f : Ring → Ring) : (d.updRing n r f).restores = d.restores := rfl
@[simp] theorem Dev.updRing_clusters (d : Dev) (n r : Nat) (f : Ring → Ring) : (d.updRing n r f).clusters = d.clusters := rfl
@[simp] theorem Dev.updRing_hbm (d : Dev) (n r : Nat) (f : Ring → Ring) : (d.updRing n r f).hbm = d.hbm := rfl
@[simp] theorem Dev.updRing_noc (d : Dev) (n r : Nat) (f : Ring → Ring) : (d.updRing n r f).noc = d.noc := rfl
@[simp] theorem Dev.updRing_saeri (d : Dev) (n r : Nat) (f : Ring → Ring) : (d.updRing n r f).saeri = d.saeri := rfl
@[simp] theorem Dev.updRing_ports (d : Dev) (n r : Nat) (f : Ring → Ring) : (d.updRing n r f).ports = d.ports := rfl
@[simp] theorem Dev.updRing_lanes (d : Dev) (n r : Nat) (f : Ring → Ring) : (d.updRing n r f).lanes = d.lanes := rfl
@[simp] theorem Dev.updRing_cfg (d : Dev) (n r : Nat) (f : Ring → Ring) : (d.updRing n r f).cfg = d.cfg := rfl
@[simp] theorem Dev.updRing_logic (d : Dev) (n r : Nat) (f : Ring → Ring) : (d.updRing n r f).logic = d.logic := rfl
@[simp] theorem Dev.updRing_bbramKey (d : Dev) (n r : Nat) (f : Ring → Ring) : (d.updRing n r f).bbramKey = d.bbramKey := rfl
@[simp] theorem Dev.updRing_dict (d : Dev) (n r : Nat) (f : Ring → Ring) : (d.updRing n r f).dict = d.dict := rfl
@[simp] theorem Dev.updRing_power (d : Dev) (n r : Nat) (f : Ring → Ring) : (d.updRing n r f).power = d.power := rfl
@[simp] theorem Dev.updRing_tally (d : Dev) (n r : Nat) (f : Ring → Ring) : (d.updRing n r f).tally = d.tally := rfl
@[simp] theorem Dev.updRing_pins (d : Dev) (n r : Nat) (f : Ring → Ring) : (d.updRing n r f).pins = d.pins := rfl
@[simp] theorem Dev.updRing_hostOut (d : Dev) (n r : Nat) (f : Ring → Ring) : (d.updRing n r f).hostOut = d.hostOut := rfl
@[simp] theorem Dev.updRing_accesses (d : Dev) (n r : Nat) (f : Ring → Ring) : (d.updRing n r f).accesses = d.accesses := rfl
@[simp] theorem Dev.updRing_nextAccess (d : Dev) (n r : Nat) (f : Ring → Ring) : (d.updRing n r f).nextAccess = d.nextAccess := rfl
@[simp] theorem Dev.updRing_faultLog (d : Dev) (n r : Nat) (f : Ring → Ring) : (d.updRing n r f).faultLog = d.faultLog := rfl
@[simp] theorem Dev.updRing_deadlockRecord (d : Dev) (n r : Nat) (f : Ring → Ring) : (d.updRing n r f).deadlockRecord = d.deadlockRecord := rfl
@[simp] theorem Dev.updRing_cycles (d : Dev) (n r : Nat) (f : Ring → Ring) : (d.updRing n r f).cycles = d.cycles := rfl
@[simp] theorem Dev.updRing_draws (d : Dev) (n r : Nat) (f : Ring → Ring) : (d.updRing n r f).draws = d.draws := rfl

/-! ### updDesc -/

@[simp] theorem Dev.updDesc_mem (d : Dev) (k : DescKey) (f : Desc → Desc) : (d.updDesc k f).mem = d.mem := rfl
@[simp] theorem Dev.updDesc_badWords (d : Dev) (k : DescKey) (f : Desc → Desc) : (d.updDesc k f).badWords = d.badWords := rfl
@[simp] theorem Dev.updDesc_latent (d : Dev) (k : DescKey) (f : Desc → Desc) : (d.updDesc k f).latent = d.latent := rfl
@[simp] theorem Dev.updDesc_objs (d : Dev) (k : DescKey) (f : Desc → Desc) : (d.updDesc k f).objs = d.objs := rfl
@[simp] theorem Dev.updDesc_staging (d : Dev) (k : DescKey) (f : Desc → Desc) : (d.updDesc k f).staging = d.staging := rfl
@[simp] theorem Dev.updDesc_badObjs (d : Dev) (k : DescKey) (f : Desc → Desc) : (d.updDesc k f).badObjs = d.badObjs := rfl
@[simp] theorem Dev.updDesc_counters (d : Dev) (k : DescKey) (f : Desc → Desc) : (d.updDesc k f).counters = d.counters := rfl
@[simp] theorem Dev.updDesc_flags (d : Dev) (k : DescKey) (f : Desc → Desc) : (d.updDesc k f).flags = d.flags := rfl
@[simp] theorem Dev.updDesc_streams (d : Dev) (k : DescKey) (f : Desc → Desc) : (d.updDesc k f).streams = d.streams := rfl
@[simp] theorem Dev.updDesc_rounds (d : Dev) (k : DescKey) (f : Desc → Desc) : (d.updDesc k f).rounds = d.rounds := rfl
@[simp] theorem Dev.updDesc_restores (d : Dev) (k : DescKey) (f : Desc → Desc) : (d.updDesc k f).restores = d.restores := rfl
@[simp] theorem Dev.updDesc_cores (d : Dev) (k : DescKey) (f : Desc → Desc) : (d.updDesc k f).cores = d.cores := rfl
@[simp] theorem Dev.updDesc_clusters (d : Dev) (k : DescKey) (f : Desc → Desc) : (d.updDesc k f).clusters = d.clusters := rfl
@[simp] theorem Dev.updDesc_hbm (d : Dev) (k : DescKey) (f : Desc → Desc) : (d.updDesc k f).hbm = d.hbm := rfl
@[simp] theorem Dev.updDesc_noc (d : Dev) (k : DescKey) (f : Desc → Desc) : (d.updDesc k f).noc = d.noc := rfl
@[simp] theorem Dev.updDesc_saeri (d : Dev) (k : DescKey) (f : Desc → Desc) : (d.updDesc k f).saeri = d.saeri := rfl
@[simp] theorem Dev.updDesc_ports (d : Dev) (k : DescKey) (f : Desc → Desc) : (d.updDesc k f).ports = d.ports := rfl
@[simp] theorem Dev.updDesc_lanes (d : Dev) (k : DescKey) (f : Desc → Desc) : (d.updDesc k f).lanes = d.lanes := rfl
@[simp] theorem Dev.updDesc_cfg (d : Dev) (k : DescKey) (f : Desc → Desc) : (d.updDesc k f).cfg = d.cfg := rfl
@[simp] theorem Dev.updDesc_logic (d : Dev) (k : DescKey) (f : Desc → Desc) : (d.updDesc k f).logic = d.logic := rfl
@[simp] theorem Dev.updDesc_bbramKey (d : Dev) (k : DescKey) (f : Desc → Desc) : (d.updDesc k f).bbramKey = d.bbramKey := rfl
@[simp] theorem Dev.updDesc_dict (d : Dev) (k : DescKey) (f : Desc → Desc) : (d.updDesc k f).dict = d.dict := rfl
@[simp] theorem Dev.updDesc_power (d : Dev) (k : DescKey) (f : Desc → Desc) : (d.updDesc k f).power = d.power := rfl
@[simp] theorem Dev.updDesc_tally (d : Dev) (k : DescKey) (f : Desc → Desc) : (d.updDesc k f).tally = d.tally := rfl
@[simp] theorem Dev.updDesc_pins (d : Dev) (k : DescKey) (f : Desc → Desc) : (d.updDesc k f).pins = d.pins := rfl
@[simp] theorem Dev.updDesc_hostOut (d : Dev) (k : DescKey) (f : Desc → Desc) : (d.updDesc k f).hostOut = d.hostOut := rfl
@[simp] theorem Dev.updDesc_accesses (d : Dev) (k : DescKey) (f : Desc → Desc) : (d.updDesc k f).accesses = d.accesses := rfl
@[simp] theorem Dev.updDesc_nextAccess (d : Dev) (k : DescKey) (f : Desc → Desc) : (d.updDesc k f).nextAccess = d.nextAccess := rfl
@[simp] theorem Dev.updDesc_faultLog (d : Dev) (k : DescKey) (f : Desc → Desc) : (d.updDesc k f).faultLog = d.faultLog := rfl
@[simp] theorem Dev.updDesc_deadlockRecord (d : Dev) (k : DescKey) (f : Desc → Desc) : (d.updDesc k f).deadlockRecord = d.deadlockRecord := rfl
@[simp] theorem Dev.updDesc_cycles (d : Dev) (k : DescKey) (f : Desc → Desc) : (d.updDesc k f).cycles = d.cycles := rfl
@[simp] theorem Dev.updDesc_draws (d : Dev) (k : DescKey) (f : Desc → Desc) : (d.updDesc k f).draws = d.draws := rfl

/-! ### updRound -/

@[simp] theorem Dev.updRound_mem (d : Dev) (n : RoundNo) (f : Round → Round) : (d.updRound n f).mem = d.mem := rfl
@[simp] theorem Dev.updRound_badWords (d : Dev) (n : RoundNo) (f : Round → Round) : (d.updRound n f).badWords = d.badWords := rfl
@[simp] theorem Dev.updRound_latent (d : Dev) (n : RoundNo) (f : Round → Round) : (d.updRound n f).latent = d.latent := rfl
@[simp] theorem Dev.updRound_objs (d : Dev) (n : RoundNo) (f : Round → Round) : (d.updRound n f).objs = d.objs := rfl
@[simp] theorem Dev.updRound_staging (d : Dev) (n : RoundNo) (f : Round → Round) : (d.updRound n f).staging = d.staging := rfl
@[simp] theorem Dev.updRound_badObjs (d : Dev) (n : RoundNo) (f : Round → Round) : (d.updRound n f).badObjs = d.badObjs := rfl
@[simp] theorem Dev.updRound_counters (d : Dev) (n : RoundNo) (f : Round → Round) : (d.updRound n f).counters = d.counters := rfl
@[simp] theorem Dev.updRound_flags (d : Dev) (n : RoundNo) (f : Round → Round) : (d.updRound n f).flags = d.flags := rfl
@[simp] theorem Dev.updRound_streams (d : Dev) (n : RoundNo) (f : Round → Round) : (d.updRound n f).streams = d.streams := rfl
@[simp] theorem Dev.updRound_descs (d : Dev) (n : RoundNo) (f : Round → Round) : (d.updRound n f).descs = d.descs := rfl
@[simp] theorem Dev.updRound_restores (d : Dev) (n : RoundNo) (f : Round → Round) : (d.updRound n f).restores = d.restores := rfl
@[simp] theorem Dev.updRound_cores (d : Dev) (n : RoundNo) (f : Round → Round) : (d.updRound n f).cores = d.cores := rfl
@[simp] theorem Dev.updRound_clusters (d : Dev) (n : RoundNo) (f : Round → Round) : (d.updRound n f).clusters = d.clusters := rfl
@[simp] theorem Dev.updRound_hbm (d : Dev) (n : RoundNo) (f : Round → Round) : (d.updRound n f).hbm = d.hbm := rfl
@[simp] theorem Dev.updRound_noc (d : Dev) (n : RoundNo) (f : Round → Round) : (d.updRound n f).noc = d.noc := rfl
@[simp] theorem Dev.updRound_saeri (d : Dev) (n : RoundNo) (f : Round → Round) : (d.updRound n f).saeri = d.saeri := rfl
@[simp] theorem Dev.updRound_ports (d : Dev) (n : RoundNo) (f : Round → Round) : (d.updRound n f).ports = d.ports := rfl
@[simp] theorem Dev.updRound_lanes (d : Dev) (n : RoundNo) (f : Round → Round) : (d.updRound n f).lanes = d.lanes := rfl
@[simp] theorem Dev.updRound_cfg (d : Dev) (n : RoundNo) (f : Round → Round) : (d.updRound n f).cfg = d.cfg := rfl
@[simp] theorem Dev.updRound_logic (d : Dev) (n : RoundNo) (f : Round → Round) : (d.updRound n f).logic = d.logic := rfl
@[simp] theorem Dev.updRound_bbramKey (d : Dev) (n : RoundNo) (f : Round → Round) : (d.updRound n f).bbramKey = d.bbramKey := rfl
@[simp] theorem Dev.updRound_dict (d : Dev) (n : RoundNo) (f : Round → Round) : (d.updRound n f).dict = d.dict := rfl
@[simp] theorem Dev.updRound_power (d : Dev) (n : RoundNo) (f : Round → Round) : (d.updRound n f).power = d.power := rfl
@[simp] theorem Dev.updRound_tally (d : Dev) (n : RoundNo) (f : Round → Round) : (d.updRound n f).tally = d.tally := rfl
@[simp] theorem Dev.updRound_pins (d : Dev) (n : RoundNo) (f : Round → Round) : (d.updRound n f).pins = d.pins := rfl
@[simp] theorem Dev.updRound_hostOut (d : Dev) (n : RoundNo) (f : Round → Round) : (d.updRound n f).hostOut = d.hostOut := rfl
@[simp] theorem Dev.updRound_accesses (d : Dev) (n : RoundNo) (f : Round → Round) : (d.updRound n f).accesses = d.accesses := rfl
@[simp] theorem Dev.updRound_nextAccess (d : Dev) (n : RoundNo) (f : Round → Round) : (d.updRound n f).nextAccess = d.nextAccess := rfl
@[simp] theorem Dev.updRound_faultLog (d : Dev) (n : RoundNo) (f : Round → Round) : (d.updRound n f).faultLog = d.faultLog := rfl
@[simp] theorem Dev.updRound_deadlockRecord (d : Dev) (n : RoundNo) (f : Round → Round) : (d.updRound n f).deadlockRecord = d.deadlockRecord := rfl
@[simp] theorem Dev.updRound_cycles (d : Dev) (n : RoundNo) (f : Round → Round) : (d.updRound n f).cycles = d.cycles := rfl
@[simp] theorem Dev.updRound_draws (d : Dev) (n : RoundNo) (f : Round → Round) : (d.updRound n f).draws = d.draws := rfl

/-! ### setObj -/

@[simp] theorem Dev.setObj_mem (d : Dev) (i s : Nat) (v : List Byte) : (d.setObj i s v).mem = d.mem := rfl
@[simp] theorem Dev.setObj_badWords (d : Dev) (i s : Nat) (v : List Byte) : (d.setObj i s v).badWords = d.badWords := rfl
@[simp] theorem Dev.setObj_latent (d : Dev) (i s : Nat) (v : List Byte) : (d.setObj i s v).latent = d.latent := rfl
@[simp] theorem Dev.setObj_staging (d : Dev) (i s : Nat) (v : List Byte) : (d.setObj i s v).staging = d.staging := rfl
@[simp] theorem Dev.setObj_counters (d : Dev) (i s : Nat) (v : List Byte) : (d.setObj i s v).counters = d.counters := rfl
@[simp] theorem Dev.setObj_flags (d : Dev) (i s : Nat) (v : List Byte) : (d.setObj i s v).flags = d.flags := rfl
@[simp] theorem Dev.setObj_streams (d : Dev) (i s : Nat) (v : List Byte) : (d.setObj i s v).streams = d.streams := rfl
@[simp] theorem Dev.setObj_descs (d : Dev) (i s : Nat) (v : List Byte) : (d.setObj i s v).descs = d.descs := rfl
@[simp] theorem Dev.setObj_rounds (d : Dev) (i s : Nat) (v : List Byte) : (d.setObj i s v).rounds = d.rounds := rfl
@[simp] theorem Dev.setObj_restores (d : Dev) (i s : Nat) (v : List Byte) : (d.setObj i s v).restores = d.restores := rfl
@[simp] theorem Dev.setObj_cores (d : Dev) (i s : Nat) (v : List Byte) : (d.setObj i s v).cores = d.cores := rfl
@[simp] theorem Dev.setObj_clusters (d : Dev) (i s : Nat) (v : List Byte) : (d.setObj i s v).clusters = d.clusters := rfl
@[simp] theorem Dev.setObj_hbm (d : Dev) (i s : Nat) (v : List Byte) : (d.setObj i s v).hbm = d.hbm := rfl
@[simp] theorem Dev.setObj_noc (d : Dev) (i s : Nat) (v : List Byte) : (d.setObj i s v).noc = d.noc := rfl
@[simp] theorem Dev.setObj_saeri (d : Dev) (i s : Nat) (v : List Byte) : (d.setObj i s v).saeri = d.saeri := rfl
@[simp] theorem Dev.setObj_ports (d : Dev) (i s : Nat) (v : List Byte) : (d.setObj i s v).ports = d.ports := rfl
@[simp] theorem Dev.setObj_lanes (d : Dev) (i s : Nat) (v : List Byte) : (d.setObj i s v).lanes = d.lanes := rfl
@[simp] theorem Dev.setObj_cfg (d : Dev) (i s : Nat) (v : List Byte) : (d.setObj i s v).cfg = d.cfg := rfl
@[simp] theorem Dev.setObj_logic (d : Dev) (i s : Nat) (v : List Byte) : (d.setObj i s v).logic = d.logic := rfl
@[simp] theorem Dev.setObj_bbramKey (d : Dev) (i s : Nat) (v : List Byte) : (d.setObj i s v).bbramKey = d.bbramKey := rfl
@[simp] theorem Dev.setObj_dict (d : Dev) (i s : Nat) (v : List Byte) : (d.setObj i s v).dict = d.dict := rfl
@[simp] theorem Dev.setObj_power (d : Dev) (i s : Nat) (v : List Byte) : (d.setObj i s v).power = d.power := rfl
@[simp] theorem Dev.setObj_tally (d : Dev) (i s : Nat) (v : List Byte) : (d.setObj i s v).tally = d.tally := rfl
@[simp] theorem Dev.setObj_pins (d : Dev) (i s : Nat) (v : List Byte) : (d.setObj i s v).pins = d.pins := rfl
@[simp] theorem Dev.setObj_hostOut (d : Dev) (i s : Nat) (v : List Byte) : (d.setObj i s v).hostOut = d.hostOut := rfl
@[simp] theorem Dev.setObj_accesses (d : Dev) (i s : Nat) (v : List Byte) : (d.setObj i s v).accesses = d.accesses := rfl
@[simp] theorem Dev.setObj_nextAccess (d : Dev) (i s : Nat) (v : List Byte) : (d.setObj i s v).nextAccess = d.nextAccess := rfl
@[simp] theorem Dev.setObj_faultLog (d : Dev) (i s : Nat) (v : List Byte) : (d.setObj i s v).faultLog = d.faultLog := rfl
@[simp] theorem Dev.setObj_deadlockRecord (d : Dev) (i s : Nat) (v : List Byte) : (d.setObj i s v).deadlockRecord = d.deadlockRecord := rfl
@[simp] theorem Dev.setObj_cycles (d : Dev) (i s : Nat) (v : List Byte) : (d.setObj i s v).cycles = d.cycles := rfl
@[simp] theorem Dev.setObj_draws (d : Dev) (i s : Nat) (v : List Byte) : (d.setObj i s v).draws = d.draws := rfl

/-! ### bump -/

@[simp] theorem Dev.bump_mem (d : Dev) (i s n : Nat) : (d.bump i s n).mem = d.mem := by unfold Dev.bump; split <;> rfl
@[simp] theorem Dev.bump_badWords (d : Dev) (i s n : Nat) : (d.bump i s n).badWords = d.badWords := by unfold Dev.bump; split <;> rfl
@[simp] theorem Dev.bump_latent (d : Dev) (i s n : Nat) : (d.bump i s n).latent = d.latent := by unfold Dev.bump; split <;> rfl
@[simp] theorem Dev.bump_objs (d : Dev) (i s n : Nat) : (d.bump i s n).objs = d.objs := by unfold Dev.bump; split <;> rfl
@[simp] theorem Dev.bump_staging (d : Dev) (i s n : Nat) : (d.bump i s n).staging = d.staging := by unfold Dev.bump; split <;> rfl
@[simp] theorem Dev.bump_badObjs (d : Dev) (i s n : Nat) : (d.bump i s n).badObjs = d.badObjs := by unfold Dev.bump; split <;> rfl
@[simp] theorem Dev.bump_flags (d : Dev) (i s n : Nat) : (d.bump i s n).flags = d.flags := by unfold Dev.bump; split <;> rfl
@[simp] theorem Dev.bump_streams (d : Dev) (i s n : Nat) : (d.bump i s n).streams = d.streams := by unfold Dev.bump; split <;> rfl
@[simp] theorem Dev.bump_descs (d : Dev) (i s n : Nat) : (d.bump i s n).descs = d.descs := by unfold Dev.bump; split <;> rfl
@[simp] theorem Dev.bump_rounds (d : Dev) (i s n : Nat) : (d.bump i s n).rounds = d.rounds := by unfold Dev.bump; split <;> rfl
@[simp] theorem Dev.bump_restores (d : Dev) (i s n : Nat) : (d.bump i s n).restores = d.restores := by unfold Dev.bump; split <;> rfl
@[simp] theorem Dev.bump_cores (d : Dev) (i s n : Nat) : (d.bump i s n).cores = d.cores := by unfold Dev.bump; split <;> rfl
@[simp] theorem Dev.bump_clusters (d : Dev) (i s n : Nat) : (d.bump i s n).clusters = d.clusters := by unfold Dev.bump; split <;> rfl
@[simp] theorem Dev.bump_hbm (d : Dev) (i s n : Nat) : (d.bump i s n).hbm = d.hbm := by unfold Dev.bump; split <;> rfl
@[simp] theorem Dev.bump_noc (d : Dev) (i s n : Nat) : (d.bump i s n).noc = d.noc := by unfold Dev.bump; split <;> rfl
@[simp] theorem Dev.bump_saeri (d : Dev) (i s n : Nat) : (d.bump i s n).saeri = d.saeri := by unfold Dev.bump; split <;> rfl
@[simp] theorem Dev.bump_ports (d : Dev) (i s n : Nat) : (d.bump i s n).ports = d.ports := by unfold Dev.bump; split <;> rfl
@[simp] theorem Dev.bump_lanes (d : Dev) (i s n : Nat) : (d.bump i s n).lanes = d.lanes := by unfold Dev.bump; split <;> rfl
@[simp] theorem Dev.bump_cfg (d : Dev) (i s n : Nat) : (d.bump i s n).cfg = d.cfg := by unfold Dev.bump; split <;> rfl
@[simp] theorem Dev.bump_logic (d : Dev) (i s n : Nat) : (d.bump i s n).logic = d.logic := by unfold Dev.bump; split <;> rfl
@[simp] theorem Dev.bump_bbramKey (d : Dev) (i s n : Nat) : (d.bump i s n).bbramKey = d.bbramKey := by unfold Dev.bump; split <;> rfl
@[simp] theorem Dev.bump_dict (d : Dev) (i s n : Nat) : (d.bump i s n).dict = d.dict := by unfold Dev.bump; split <;> rfl
@[simp] theorem Dev.bump_power (d : Dev) (i s n : Nat) : (d.bump i s n).power = d.power := by unfold Dev.bump; split <;> rfl
@[simp] theorem Dev.bump_tally (d : Dev) (i s n : Nat) : (d.bump i s n).tally = d.tally := by unfold Dev.bump; split <;> rfl
@[simp] theorem Dev.bump_pins (d : Dev) (i s n : Nat) : (d.bump i s n).pins = d.pins := by unfold Dev.bump; split <;> rfl
@[simp] theorem Dev.bump_hostOut (d : Dev) (i s n : Nat) : (d.bump i s n).hostOut = d.hostOut := by unfold Dev.bump; split <;> rfl
@[simp] theorem Dev.bump_accesses (d : Dev) (i s n : Nat) : (d.bump i s n).accesses = d.accesses := by unfold Dev.bump; split <;> rfl
@[simp] theorem Dev.bump_nextAccess (d : Dev) (i s n : Nat) : (d.bump i s n).nextAccess = d.nextAccess := by unfold Dev.bump; split <;> rfl
@[simp] theorem Dev.bump_faultLog (d : Dev) (i s n : Nat) : (d.bump i s n).faultLog = d.faultLog := by unfold Dev.bump; split <;> rfl
@[simp] theorem Dev.bump_deadlockRecord (d : Dev) (i s n : Nat) : (d.bump i s n).deadlockRecord = d.deadlockRecord := by unfold Dev.bump; split <;> rfl
@[simp] theorem Dev.bump_cycles (d : Dev) (i s n : Nat) : (d.bump i s n).cycles = d.cycles := by unfold Dev.bump; split <;> rfl
@[simp] theorem Dev.bump_draws (d : Dev) (i s n : Nat) : (d.bump i s n).draws = d.draws := by unfold Dev.bump; split <;> rfl

/-! ### bumpSat32 -/

@[simp] theorem Dev.bumpSat32_mem (d : Dev) (i s : Nat) : (d.bumpSat32 i s).mem = d.mem := rfl
@[simp] theorem Dev.bumpSat32_badWords (d : Dev) (i s : Nat) : (d.bumpSat32 i s).badWords = d.badWords := rfl
@[simp] theorem Dev.bumpSat32_latent (d : Dev) (i s : Nat) : (d.bumpSat32 i s).latent = d.latent := rfl
@[simp] theorem Dev.bumpSat32_objs (d : Dev) (i s : Nat) : (d.bumpSat32 i s).objs = d.objs := rfl
@[simp] theorem Dev.bumpSat32_staging (d : Dev) (i s : Nat) : (d.bumpSat32 i s).staging = d.staging := rfl
@[simp] theorem Dev.bumpSat32_badObjs (d : Dev) (i s : Nat) : (d.bumpSat32 i s).badObjs = d.badObjs := rfl
@[simp] theorem Dev.bumpSat32_flags (d : Dev) (i s : Nat) : (d.bumpSat32 i s).flags = d.flags := rfl
@[simp] theorem Dev.bumpSat32_streams (d : Dev) (i s : Nat) : (d.bumpSat32 i s).streams = d.streams := rfl
@[simp] theorem Dev.bumpSat32_descs (d : Dev) (i s : Nat) : (d.bumpSat32 i s).descs = d.descs := rfl
@[simp] theorem Dev.bumpSat32_rounds (d : Dev) (i s : Nat) : (d.bumpSat32 i s).rounds = d.rounds := rfl
@[simp] theorem Dev.bumpSat32_restores (d : Dev) (i s : Nat) : (d.bumpSat32 i s).restores = d.restores := rfl
@[simp] theorem Dev.bumpSat32_cores (d : Dev) (i s : Nat) : (d.bumpSat32 i s).cores = d.cores := rfl
@[simp] theorem Dev.bumpSat32_clusters (d : Dev) (i s : Nat) : (d.bumpSat32 i s).clusters = d.clusters := rfl
@[simp] theorem Dev.bumpSat32_hbm (d : Dev) (i s : Nat) : (d.bumpSat32 i s).hbm = d.hbm := rfl
@[simp] theorem Dev.bumpSat32_noc (d : Dev) (i s : Nat) : (d.bumpSat32 i s).noc = d.noc := rfl
@[simp] theorem Dev.bumpSat32_saeri (d : Dev) (i s : Nat) : (d.bumpSat32 i s).saeri = d.saeri := rfl
@[simp] theorem Dev.bumpSat32_ports (d : Dev) (i s : Nat) : (d.bumpSat32 i s).ports = d.ports := rfl
@[simp] theorem Dev.bumpSat32_lanes (d : Dev) (i s : Nat) : (d.bumpSat32 i s).lanes = d.lanes := rfl
@[simp] theorem Dev.bumpSat32_cfg (d : Dev) (i s : Nat) : (d.bumpSat32 i s).cfg = d.cfg := rfl
@[simp] theorem Dev.bumpSat32_logic (d : Dev) (i s : Nat) : (d.bumpSat32 i s).logic = d.logic := rfl
@[simp] theorem Dev.bumpSat32_bbramKey (d : Dev) (i s : Nat) : (d.bumpSat32 i s).bbramKey = d.bbramKey := rfl
@[simp] theorem Dev.bumpSat32_dict (d : Dev) (i s : Nat) : (d.bumpSat32 i s).dict = d.dict := rfl
@[simp] theorem Dev.bumpSat32_power (d : Dev) (i s : Nat) : (d.bumpSat32 i s).power = d.power := rfl
@[simp] theorem Dev.bumpSat32_tally (d : Dev) (i s : Nat) : (d.bumpSat32 i s).tally = d.tally := rfl
@[simp] theorem Dev.bumpSat32_pins (d : Dev) (i s : Nat) : (d.bumpSat32 i s).pins = d.pins := rfl
@[simp] theorem Dev.bumpSat32_hostOut (d : Dev) (i s : Nat) : (d.bumpSat32 i s).hostOut = d.hostOut := rfl
@[simp] theorem Dev.bumpSat32_accesses (d : Dev) (i s : Nat) : (d.bumpSat32 i s).accesses = d.accesses := rfl
@[simp] theorem Dev.bumpSat32_nextAccess (d : Dev) (i s : Nat) : (d.bumpSat32 i s).nextAccess = d.nextAccess := rfl
@[simp] theorem Dev.bumpSat32_faultLog (d : Dev) (i s : Nat) : (d.bumpSat32 i s).faultLog = d.faultLog := rfl
@[simp] theorem Dev.bumpSat32_deadlockRecord (d : Dev) (i s : Nat) : (d.bumpSat32 i s).deadlockRecord = d.deadlockRecord := rfl
@[simp] theorem Dev.bumpSat32_cycles (d : Dev) (i s : Nat) : (d.bumpSat32 i s).cycles = d.cycles := rfl
@[simp] theorem Dev.bumpSat32_draws (d : Dev) (i s : Nat) : (d.bumpSat32 i s).draws = d.draws := rfl

/-! ### setFlag -/

@[simp] theorem Dev.setFlag_mem (d : Dev) (i : Nat) (v : Word) : (d.setFlag i v).mem = d.mem := rfl
@[simp] theorem Dev.setFlag_badWords (d : Dev) (i : Nat) (v : Word) : (d.setFlag i v).badWords = d.badWords := rfl
@[simp] theorem Dev.setFlag_latent (d : Dev) (i : Nat) (v : Word) : (d.setFlag i v).latent = d.latent := rfl
@[simp] theorem Dev.setFlag_objs (d : Dev) (i : Nat) (v : Word) : (d.setFlag i v).objs = d.objs := rfl
@[simp] theorem Dev.setFlag_staging (d : Dev) (i : Nat) (v : Word) : (d.setFlag i v).staging = d.staging := rfl
@[simp] theorem Dev.setFlag_badObjs (d : Dev) (i : Nat) (v : Word) : (d.setFlag i v).badObjs = d.badObjs := rfl
@[simp] theorem Dev.setFlag_counters (d : Dev) (i : Nat) (v : Word) : (d.setFlag i v).counters = d.counters := rfl
@[simp] theorem Dev.setFlag_streams (d : Dev) (i : Nat) (v : Word) : (d.setFlag i v).streams = d.streams := rfl
@[simp] theorem Dev.setFlag_descs (d : Dev) (i : Nat) (v : Word) : (d.setFlag i v).descs = d.descs := rfl
@[simp] theorem Dev.setFlag_rounds (d : Dev) (i : Nat) (v : Word) : (d.setFlag i v).rounds = d.rounds := rfl
@[simp] theorem Dev.setFlag_restores (d : Dev) (i : Nat) (v : Word) : (d.setFlag i v).restores = d.restores := rfl
@[simp] theorem Dev.setFlag_cores (d : Dev) (i : Nat) (v : Word) : (d.setFlag i v).cores = d.cores := rfl
@[simp] theorem Dev.setFlag_clusters (d : Dev) (i : Nat) (v : Word) : (d.setFlag i v).clusters = d.clusters := rfl
@[simp] theorem Dev.setFlag_hbm (d : Dev) (i : Nat) (v : Word) : (d.setFlag i v).hbm = d.hbm := rfl
@[simp] theorem Dev.setFlag_noc (d : Dev) (i : Nat) (v : Word) : (d.setFlag i v).noc = d.noc := rfl
@[simp] theorem Dev.setFlag_saeri (d : Dev) (i : Nat) (v : Word) : (d.setFlag i v).saeri = d.saeri := rfl
@[simp] theorem Dev.setFlag_ports (d : Dev) (i : Nat) (v : Word) : (d.setFlag i v).ports = d.ports := rfl
@[simp] theorem Dev.setFlag_lanes (d : Dev) (i : Nat) (v : Word) : (d.setFlag i v).lanes = d.lanes := rfl
@[simp] theorem Dev.setFlag_cfg (d : Dev) (i : Nat) (v : Word) : (d.setFlag i v).cfg = d.cfg := rfl
@[simp] theorem Dev.setFlag_logic (d : Dev) (i : Nat) (v : Word) : (d.setFlag i v).logic = d.logic := rfl
@[simp] theorem Dev.setFlag_bbramKey (d : Dev) (i : Nat) (v : Word) : (d.setFlag i v).bbramKey = d.bbramKey := rfl
@[simp] theorem Dev.setFlag_dict (d : Dev) (i : Nat) (v : Word) : (d.setFlag i v).dict = d.dict := rfl
@[simp] theorem Dev.setFlag_power (d : Dev) (i : Nat) (v : Word) : (d.setFlag i v).power = d.power := rfl
@[simp] theorem Dev.setFlag_tally (d : Dev) (i : Nat) (v : Word) : (d.setFlag i v).tally = d.tally := rfl
@[simp] theorem Dev.setFlag_pins (d : Dev) (i : Nat) (v : Word) : (d.setFlag i v).pins = d.pins := rfl
@[simp] theorem Dev.setFlag_hostOut (d : Dev) (i : Nat) (v : Word) : (d.setFlag i v).hostOut = d.hostOut := rfl
@[simp] theorem Dev.setFlag_accesses (d : Dev) (i : Nat) (v : Word) : (d.setFlag i v).accesses = d.accesses := rfl
@[simp] theorem Dev.setFlag_nextAccess (d : Dev) (i : Nat) (v : Word) : (d.setFlag i v).nextAccess = d.nextAccess := rfl
@[simp] theorem Dev.setFlag_faultLog (d : Dev) (i : Nat) (v : Word) : (d.setFlag i v).faultLog = d.faultLog := rfl
@[simp] theorem Dev.setFlag_deadlockRecord (d : Dev) (i : Nat) (v : Word) : (d.setFlag i v).deadlockRecord = d.deadlockRecord := rfl
@[simp] theorem Dev.setFlag_cycles (d : Dev) (i : Nat) (v : Word) : (d.setFlag i v).cycles = d.cycles := rfl
@[simp] theorem Dev.setFlag_draws (d : Dev) (i : Nat) (v : Word) : (d.setFlag i v).draws = d.draws := rfl

end Sys2Proof.Machine
end

