-- ==== Sys2Proof/Laws/Tables.lean ====
section
/-! SUPPORT. What the sparse tables and the memory do: a read after a write, and the canonical form of memory. -/

namespace Sys2Proof.Machine

/-! ### Sparse tables -/

theorem tabFind_tabErase {α : Type} (k k' : Nat) (t : Table α) : tabFind (tabErase t k) k' = if k' = k then none else tabFind t k' := by
  induction t with
  | nil => simp [tabErase, tabFind]
  | cons e t ih =>
    obtain ⟨a, b⟩ := e
    simp only [tabErase, ne_eq, decide_not] at ih ⊢
    by_cases h : a = k
    · subst h
      simp only [decide_true, Bool.not_true, Bool.false_eq_true, not_false_eq_true, List.filter_cons_of_neg, ih, tabFind]
      by_cases h2 : k' = a
      · simp [h2]
      · simp [h2, Ne.symm h2]
    · simp only [h, decide_false, Bool.not_false, List.filter_cons_of_pos, tabFind, ih]
      by_cases h2 : a = k'
      · subst h2; simp [h]
      · simp [h2]

theorem tabFind_tabInsert {α : Type} (k k' : Nat) (v : α) (t : Table α) (h : tabFind t k = none) :
    tabFind (tabInsert k v t) k' = if k' = k then some v else tabFind t k' := by
  induction t with
  | nil => simp [tabInsert, tabFind, eq_comm]
  | cons e t ih =>
    obtain ⟨a, b⟩ := e
    simp only [tabFind] at h
    split at h
    · simp at h
    · rename_i ha
      simp only [tabInsert]
      split
      · simp [tabFind, eq_comm]
      · simp only [tabFind, ih h]
        by_cases h2 : k' = k
        · subst h2; simp [ha]
        · simp [h2]

theorem tabFind_tabSet {α : Type} (k k' : Nat) (v : α) (t : Table α) : tabFind (tabSet t k v) k' = if k' = k then some v else tabFind t k' := by
  unfold tabSet
  rw [tabFind_tabInsert _ _ _ _ (by simp [tabFind_tabErase]), tabFind_tabErase]
  by_cases h : k' = k <;> simp [h]

/-- A read after a write. -/
theorem tabGet_tabSet {α : Type} (d : α) (k k' : Nat) (v : α) (t : Table α) :
    tabGet d (tabSet t k v) k' = if k' = k then v else tabGet d t k' := by
  unfold tabGet
  rw [tabFind_tabSet]
  by_cases h : k' = k <;> simp [h]

theorem tabGet_tabErase {α : Type} (d : α) (k k' : Nat) (t : Table α) :
    tabGet d (tabErase t k) k' = if k' = k then d else tabGet d t k' := by
  unfold tabGet
  rw [tabFind_tabErase]
  by_cases h : k' = k <;> simp [h]

theorem tabErase_of_not_listed {α : Type} (k : Nat) (t : Table α) (h : ∀ e ∈ t, e.1 ≠ k) : tabErase t k = t := by
  unfold tabErase
  exact List.filter_eq_self.2 fun e he => by simpa using h e he

theorem tabErase_tabInsert {α : Type} (k : Nat) (v : α) (t : Table α) (h : ∀ e ∈ t, e.1 ≠ k) : tabErase (tabInsert k v t) k = t := by
  induction t with
  | nil => simp [tabInsert, tabErase]
  | cons e t ih =>
    obtain ⟨a, b⟩ := e
    have ha : a ≠ k := h (a, b) List.mem_cons_self
    have ht : ∀ e ∈ t, e.1 ≠ k := fun e he => h e (List.mem_cons_of_mem _ he)
    have hu := tabErase_of_not_listed k t ht
    have hi := ih ht
    unfold tabErase at hi hu ⊢
    simp only [tabInsert]
    split
    · simp [ha]; intro x y hxy; exact ht (x, y) hxy
    · simp only [ne_eq, ha, not_false_eq_true, decide_true, List.filter_cons_of_pos, hi]

theorem not_listed_tabErase {α : Type} (k : Nat) (t : Table α) : ∀ e ∈ tabErase t k, e.1 ≠ k := by
  intro e he
  simpa using (List.mem_filter.1 he).2

/-- A second write of a key replaces the first. -/
theorem tabSet_tabSet {α : Type} (k : Nat) (v w : α) (t : Table α) : tabSet (tabSet t k v) k w = tabSet t k w := by
  unfold tabSet
  rw [tabErase_tabInsert _ _ _ (not_listed_tabErase k t)]

/-! ### Memory cells -/

/-- A read of a byte after a write of one. -/
theorem memGet_memPut (m : List Host.Cell) (a x : Nat) (b : Byte) : memGet (memPut m a b) x = if x = a then b else memGet m x := by
  unfold memGet memPut
  split
  · rename_i h; rw [tabGet_tabErase]; by_cases hx : x = a <;> simp [hx, h]
  · rw [tabGet_tabSet]

/-! ### The canonical form -/

theorem mem_tabInsert {α : Type} (k : Nat) (v : α) (t : Table α) (e : Nat × α) : e ∈ tabInsert k v t ↔ e = (k, v) ∨ e ∈ t := by
  induction t with
  | nil => simp [tabInsert]
  | cons x t ih =>
    obtain ⟨a, b⟩ := x
    simp only [tabInsert]
    split
    · simp
    · simp only [List.mem_cons, ih]; tauto

theorem pairwise_tabInsert {α : Type} (k : Nat) (v : α) (t : Table α) (h : t.Pairwise fun x y => x.1 < y.1) (hk : ∀ e ∈ t, e.1 ≠ k) :
    (tabInsert k v t).Pairwise fun x y => x.1 < y.1 := by
  induction t with
  | nil => simp [tabInsert]
  | cons x t ih =>
    obtain ⟨a, b⟩ := x
    rw [List.pairwise_cons] at h
    have ha : a ≠ k := hk (a, b) List.mem_cons_self
    simp only [tabInsert]
    split
    · rename_i hlt
      rw [List.pairwise_cons]
      refine ⟨?_, List.pairwise_cons.2 h⟩
      intro e he
      rcases List.mem_cons.1 he with rfl | he
      · exact hlt
      · exact hlt.trans (h.1 e he)
    · rename_i hlt
      rw [List.pairwise_cons]
      refine ⟨?_, ih h.2 fun e he => hk e (List.mem_cons_of_mem _ he)⟩
      intro e he
      rcases (mem_tabInsert k v t e).1 he with rfl | he
      · simp only; omega
      · exact h.1 e he

theorem memWf_iff (m : List Host.Cell) : memWf m = true ↔ (m.Pairwise fun x y => x.1 < y.1) ∧ ∀ e ∈ m, e.2 ≠ 0 := by
  simp [memWf]

theorem memWf_filter (m : List Host.Cell) (p : Host.Cell → Bool) (h : memWf m = true) : memWf (m.filter p) = true := by
  rw [memWf_iff] at h ⊢
  exact ⟨h.1.sublist List.filter_sublist, fun e he => h.2 e (List.mem_filter.1 he).1⟩

/-- A write of one byte keeps the canonical form. -/
theorem memWf_memPut (m : List Host.Cell) (a : Nat) (b : Byte) (h : memWf m = true) : memWf (memPut m a b) = true := by
  unfold memPut
  split
  · exact memWf_filter m _ h
  · rename_i hb
    have hf := memWf_filter m (fun e => decide (e.1 ≠ a)) h
    rw [memWf_iff] at hf ⊢
    refine ⟨pairwise_tabInsert a b _ hf.1 (not_listed_tabErase a m), fun e he => ?_⟩
    rcases (mem_tabInsert a b _ e).1 he with rfl | he
    · exact hb
    · exact hf.2 e he

/-- A write keeps the canonical form. -/
theorem memWf_memWrite (m : List Host.Cell) (a : Nat) (l : List Byte) (h : memWf m = true) : memWf (memWrite m a l) = true := by
  induction l generalizing m a with
  | nil => exact h
  | cons b t ih => exact ih _ _ (memWf_memPut m a b h)

/-- A range that is cleared keeps the canonical form. -/
theorem memWf_memClear (m : List Host.Cell) (lo hi : Nat) (h : memWf m = true) : memWf (memClear m lo hi) = true :=
  memWf_filter m _ h

/-- The memory after reset is in canonical form. -/
theorem memWf_reset : memWf State.reset.dev.mem = true := by decide

/-! ### What the checks of a read leave -/

/-- A counter that grows leaves the memory as it is. -/
theorem bump_mem (d : Dev) (i s n : Nat) : (d.bump i s n).mem = d.mem := by unfold Dev.bump; split <;> rfl

/-- Events of a controller leave the memory as it is. -/
theorem hbmEvents_mem (l : List Nat) (source : Nat) (d : Dev) : (l.foldl (fun d w => d.hbmEvent w source) d).mem = d.mem := by
  induction l generalizing d with
  | nil => rfl
  | cons x l ih => exact ih _

/-- A check of words leaves the memory as it is. -/
theorem correct_mem (d : Dev) (ws : List Nat) : (d.correct ws).mem = d.mem := by
  have fold : ∀ (l : List Nat) (d : Dev),
      (l.foldl (fun d w => let o := (d.regionOf (w * 16)).correctedObj; d.bump o.1 o.2 1) d).mem = d.mem := by
    intro l
    induction l with
    | nil => exact fun d => rfl
    | cons x l ih => exact fun d => (ih _).trans (bump_mem _ _ _ _)
  exact fold _ _

/-- A check of words leaves every core as it is. -/
theorem correct_cores (d : Dev) (ws : List Nat) : (d.correct ws).cores = d.cores := by
  have fold : ∀ (l : List Nat) (d : Dev),
      (l.foldl (fun d w => let o := (d.regionOf (w * 16)).correctedObj; d.bump o.1 o.2 1) d).cores = d.cores := by
    intro l
    induction l with
    | nil => exact fun d => rfl
    | cons x l ih => exact fun d => (ih _).trans (by simp only [Dev.bump]; split <;> rfl)
  exact fold _ _

/-- A controller's read leaves the memory as it is. -/
theorem readHbm_mem (d : Dev) (ws : List Nat) : (d.readHbm ws).2.mem = d.mem :=
  (hbmEvents_mem _ _ _).trans (correct_mem _ _)

/-- A piece that is written, or is not, keeps the canonical form. -/
theorem memWf_writePiece (hbm : Bool) (d : Dev) (a : Nat) (b : List Byte) (h : memWf d.mem = true) : memWf (d.writePiece hbm a b).2.mem = true := by
  simp only [Dev.writePiece]
  split
  · exact h
  · split
    · split
      · rw [hbmEvents_mem, correct_mem]; exact h
      · rw [correct_mem]; exact h
    · exact memWf_memWrite _ _ _ (by rw [correct_mem]; exact h)

/-- A write of memory keeps the canonical form. -/
theorem memWf_writeMem (d : Dev) (a : Nat) (b : List Byte) (h : memWf d.mem = true) : memWf (d.writeMem a b).2.mem = true := by
  have pieces : ∀ (hbm : Bool) (l : List (Nat × Nat)) (acc : Status × Dev), memWf acc.2.mem = true →
      memWf (l.foldl (fun (acc : Status × Dev) p =>
        let w := acc.2.writePiece hbm p.1 (slice b (p.1 - a) p.2)
        (if w.1 then acc.1 else .hwUncorrectable, w.2)) acc).2.mem = true := by
    intro hbm l
    induction l with
    | nil => exact fun acc h => h
    | cons p l ih => exact fun acc h => ih _ (memWf_writePiece hbm acc.2 p.1 _ h)
  have lines : ∀ (l : List Nat) (d : Dev), memWf d.mem = true → memWf (l.foldl (fun d i => d.dropLine (a / 256 + i)) d).mem = true := by
    intro l
    induction l with
    | nil => exact fun d h => h
    | cons x l ih => exact fun d h => ih _ h
  simp only [Dev.writeMem]
  split
  · split
    · exact pieces true _ _ h
    · exact lines _ _ (pieces true _ _ h)
  · exact pieces false _ _ h
  · exact pieces false _ _ h
  · exact pieces false _ _ h
  · exact h

/-- A range that reads 0 keeps the canonical form. -/
theorem memWf_zeroRange (d : Dev) (lo hi : Nat) (h : memWf d.mem = true) : memWf (d.zeroRange lo hi).mem = true :=
  memWf_memClear d.mem lo hi h

/-- A read leaves the memory as it is. -/
theorem readMem_mem (d : Dev) (a n : Nat) : (d.readMem a n).2.2.mem = d.mem := by
  simp only [Dev.readMem]
  split
  · split <;> exact readHbm_mem _ _
  · split <;> exact correct_mem _ _
  · split <;> exact correct_mem _ _
  · split <;> exact correct_mem _ _
  · rfl

end Sys2Proof.Machine
end

