-- ==== Sys2Proof/Laws/Units.lean ====
section
/-! SUPPORT. Reads of the units, objects, counters and flags after an update, and what the forms of a command do. -/

namespace Sys2Proof.Machine

/-! ### The forms of a command -/

/-- With the clocks running a command acts on the device and on nothing else. -/
theorem State.onClock_running {s : State} (f : Dev → Dev) (h : s.dev.pins.clocks = true) : s.onClock f = .next { s with dev := f s.dev } := by
  simp [State.onClock, Dev.when, h]

/-- Without clocks it changes nothing. -/
theorem State.onClock_stopped {s : State} (f : Dev → Dev) (h : s.dev.pins.clocks = false) : s.onClock f = .next s := by
  simp [State.onClock, Dev.when, h]

/-! ### Units -/

theorem Dev.core_updCore (d : Dev) (n m : Nat) (f : Core → Core) : (d.updCore n f).core m = if m = n then f (d.core n) else d.core m := by
  simp only [Dev.core, Dev.updCore, tabGet_tabSet]
theorem Dev.stream_updStream (d : Dev) (n m : Nat) (f : Stream → Stream) :
    (d.updStream n f).stream m = if m = n then f (d.stream n) else d.stream m := by
  simp only [Dev.stream, Dev.updStream, tabGet_tabSet]
theorem Dev.cluster_updCluster (d : Dev) (n m : Nat) (f : Cluster → Cluster) :
    (d.updCluster n f).cluster m = if m = n then f (d.cluster n) else d.cluster m := by
  simp only [Dev.cluster, Dev.updCluster, tabGet_tabSet]
theorem Dev.port_updPort (d : Dev) (n m : Nat) (f : Port → Port) : (d.updPort n f).port m = if m = n then f (d.port n) else d.port m := by
  simp only [Dev.port, Dev.updPort, tabGet_tabSet]
theorem Dev.lane_updLane (d : Dev) (n m : Nat) (f : Lane → Lane) : (d.updLane n f).lane m = if m = n then f (d.lane n) else d.lane m := by
  simp only [Dev.lane, Dev.updLane, tabGet_tabSet]

/-- Two updates of one core are one. -/
theorem Dev.updCore_updCore (d : Dev) (n : Nat) (f g : Core → Core) : (d.updCore n f).updCore n g = d.updCore n fun c => g (f c) := by
  simp only [Dev.updCore, Dev.core, tabGet_tabSet, if_true, tabSet_tabSet]

/-! ### Objects, counters, flags -/

/-- A counter that grows by nothing is the same device. -/
@[simp] theorem Dev.bump_zero (d : Dev) (i s : Nat) : d.bump i s 0 = d := by simp [Dev.bump]
theorem Dev.count_bump (d : Dev) (i s n : Nat) (k : Nat × Nat) (h : n ≠ 0) :
    (d.bump i s n).count k.1 k.2 = if okey k.1 k.2 = okey i s then (d.count i s + n) % 2 ^ 64 else d.count k.1 k.2 := by
  simp only [Dev.count, Dev.bump, h, if_false, tabGet_tabSet]
theorem Dev.flag_setFlag (d : Dev) (a f : Nat) (v : Word) : (d.setFlag a v).flag f = if f = a then v else d.flag f := by
  simp only [Dev.flag, Dev.setFlag, tabGet_tabSet]
/-- An object reads as it was set. -/
theorem Dev.obj_setObj (d : Dev) (i s : Nat) (v : List Byte) : (d.setObj i s v).obj i s = v := by
  simp only [Dev.obj, Dev.setObj, objIn]
  split
  · rename_i h; simp [tabFind_tabErase, h]
  · simp [tabFind_tabSet]
/-- Every other object reads as before. -/
theorem Dev.obj_setObj_of_ne (d : Dev) (i s j t : Nat) (v : List Byte) (h : okey j t ≠ okey i s) : (d.setObj i s v).obj j t = d.obj j t := by
  simp only [Dev.obj, Dev.setObj, objIn]
  split
  · simp [tabFind_tabErase, h]
  · simp [tabFind_tabSet, h]

/-! ### Descriptors and rounds -/

/-- A descriptor after an update of one, whose key the update keeps. -/
theorem Dev.desc?_updDesc (d : Dev) (k q : DescKey) (f : Desc → Desc) (h : ∀ x, (f x).key = x.key) :
    (d.updDesc k f).desc? q = (d.desc? q).map fun x => if x.key = k then f x else x := by
  simp only [Dev.desc?, Dev.updDesc, List.find?_map]
  congr 2
  funext x
  simp only [Function.comp]
  split <;> simp [h]

end Sys2Proof.Machine
end

