-- ==== Sys2Proof/Laws/Access.lean ====
section
/-! SUPPORT. Accesses of memory: a read that memory serves at once is answered with its bytes, a write changes its bytes, and neither
touches anything else that a program sees. -/

namespace Sys2Proof.Machine

/-- What an access that memory serves at once leaves as it is: all but the map lock, the caches, the words it corrects and counts, the
initiator records and the next id. -/
structure Served (d e : Dev) : Prop where
  badWords : e.badWords = d.badWords
  objs : e.objs = d.objs
  staging : e.staging = d.staging
  flags : e.flags = d.flags
  streams : e.streams = d.streams
  descs : e.descs = d.descs
  rounds : e.rounds = d.rounds
  cores : e.cores = d.cores
  saeri : e.saeri = d.saeri
  ports : e.ports = d.ports
  cfg : e.cfg = d.cfg
  pins : e.pins = d.pins
  hostOut : e.hostOut = d.hostOut
  accesses : e.accesses = d.accesses
  flight : e.noc.flight = d.noc.flight
  failed : e.hbm.failed = d.hbm.failed
  health : e.noc.health = d.noc.health

theorem Served.refl (d : Dev) : Served d d := ⟨rfl, rfl, rfl, rfl, rfl, rfl, rfl, rfl, rfl, rfl, rfl, rfl, rfl, rfl, rfl, rfl, rfl⟩
theorem Served.trans {d e f : Dev} (h : Served d e) (k : Served e f) : Served d f :=
  ⟨k.1.trans h.1, k.2.trans h.2, k.3.trans h.3, k.4.trans h.4, k.5.trans h.5, k.6.trans h.6, k.7.trans h.7, k.8.trans h.8, k.9.trans h.9,
   k.10.trans h.10, k.11.trans h.11, k.12.trans h.12, k.13.trans h.13, k.14.trans h.14, k.15.trans h.15, k.16.trans h.16, k.17.trans h.17⟩

theorem served_bump (d : Dev) (i s n : Nat) : Served d (d.bump i s n) := by
  unfold Dev.bump
  split
  · exact Served.refl d
  · constructor <;> rfl

theorem served_lockMap (d : Dev) : Served d d.lockMap := by constructor <;> rfl

/-- A check of words counts what it corrects, and changes nothing else that a program sees. -/
theorem served_correct (d : Dev) (ws : List Nat) : Served d (d.correct ws) := by
  have fold : ∀ (l : List Nat) (d : Dev), Served d (l.foldl (fun d w => let o := (d.regionOf (w * 16)).correctedObj; d.bump o.1 o.2 1) d) := by
    intro l
    induction l with
    | nil => exact fun d => Served.refl d
    | cons x l ih => exact fun d => (served_bump d _ _ 1).trans (ih _)
  refine Served.trans ?_ (fold _ _)
  constructor <;> rfl

theorem served_updCluster (d : Dev) (c : Nat) (f : Cluster → Cluster) : Served d (d.updCluster c f) := by constructor <;> rfl

theorem served_cacheTouch (d : Dev) (c : Nat) (ws : List Nat) (l : Nat) : Served d (d.cacheTouch c ws l) := by
  unfold Dev.cacheTouch
  dsimp only
  split
  · exact served_updCluster d c _
  · split <;> exact (served_bump d _ _ _).trans (served_updCluster _ c _)

theorem served_cacheTouches (ls : List Nat) (c : Nat) (ws : List Nat) (d : Dev) : Served d (ls.foldl (fun d l => d.cacheTouch c ws l) d) := by
  induction ls generalizing d with
  | nil => exact Served.refl d
  | cons l ls ih => exact (served_cacheTouch d c ws l).trans (ih _)

theorem cacheTouch_mem (d : Dev) (c : Nat) (ws : List Nat) (l : Nat) : (d.cacheTouch c ws l).mem = d.mem := by
  unfold Dev.cacheTouch
  dsimp only
  split
  · rfl
  · split <;> exact bump_mem _ _ _ _

theorem cacheTouches_mem (ls : List Nat) (c : Nat) (ws : List Nat) (d : Dev) : (ls.foldl (fun d l => d.cacheTouch c ws l) d).mem = d.mem := by
  induction ls generalizing d with
  | nil => rfl
  | cons l ls ih => exact (ih _).trans (cacheTouch_mem _ _ _ _)

/-- The pseudo-channel of an address depends on the mapping in force alone. -/
theorem hbmMap_of_objs {d e : Dev} (h : e.objs = d.objs) (a : Nat) : e.hbmMap a = d.hbmMap a := by
  unfold Dev.hbmMap Dev.objNat Dev.obj
  rw [h]

/-- A controller delivers words that are sound, on channels that work. -/
theorem readHbm_of_sound {d : Dev} {ws : List Nat} (hb : ∀ w ∈ ws, d.badWords.contains w = false)
    (hf : ∀ w ∈ ws, d.hbm.failed.contains (d.hbmMap (w * 16)).1 = false) : (d.readHbm ws).1 = true ∧ Served d (d.readHbm ws).2 := by
  have h1 : ws.filter (fun w => d.badWords.contains w) = [] := by
    rw [List.filter_eq_nil_iff]; intro w hw; simpa using hb w hw
  have h2 : (ws.any fun w => d.hbm.failed.contains (d.hbmMap (w * 16)).1) = false := by
    rw [List.any_eq_false]; intro w hw; simpa using hf w hw
  unfold Dev.readHbm
  simp only [h1, h2, List.foldl_nil]
  exact ⟨rfl, (served_lockMap d).trans (served_correct _ _)⟩

/-- A read of memory that is ready: its bytes, and nothing else changes but the lock of the HBM map and the words it corrects. -/
theorem readMem_of_ready {d : Dev} {a n : Nat} (h : MemoryReady d a n) :
    (d.readMem a n).1 = .done ∧ (d.readMem a n).2.1 = memRead d.mem a n ∧ Served d (d.readMem a n).2.2 ∧ (d.readMem a n).2.2.mem = d.mem := by
  obtain ⟨_, _, _, _, hb, hr⟩ := h
  have hb' : ((wordsOf a n).any fun w => d.badWords.contains w) = false := by
    rw [List.any_eq_false]; intro w hw; have := hb w hw; simpa using this
  refine ⟨?_, ?_, ?_, readMem_mem d a n⟩
  all_goals
    unfold Dev.readMem
    rcases hr with ⟨h1, _, h3⟩ | ⟨c, _, h1⟩ | ⟨c, _, h1 | h1⟩
    · have h4 : ∀ w ∈ wordsOf a n, d.hbm.failed.contains (d.hbmMap (w * 16)).1 = false := by
        unfold Dev.hbmFailed at h3; rw [List.any_eq_false] at h3; intro w hw; simpa using h3 w hw
      obtain ⟨k1, k2⟩ := readHbm_of_sound hb h4
      simp only [h1, k1, if_true]
      try exact k2
    all_goals
      simp only [h1, hb', Bool.false_eq_true, if_false]
      try exact served_correct _ _

/-- A read through a cluster cache delivers the same bytes (R203, R204). -/
theorem readCached_of_ready {d : Dev} {core a n : Nat} (h : MemoryReady d a n) :
    (d.readCached core a n).1 = .done ∧ (d.readCached core a n).2.1 = memRead d.mem a n ∧ Served d (d.readCached core a n).2.2 ∧
      (d.readCached core a n).2.2.mem = d.mem := by
  unfold Dev.readCached
  split
  · rename_i hh
    obtain ⟨_, _, _, _, hb, hr⟩ := h
    have h3 : d.hbmFailed a n = false := by
      rcases hr with ⟨_, _, h3⟩ | ⟨c, _, h1⟩ | ⟨c, _, h1 | h1⟩
      · exact h3
      all_goals rw [hh] at h1; cases h1
    unfold Dev.hbmFailed at h3
    rw [List.any_eq_false] at h3
    have k := served_cacheTouches (linesOf a n) (clusterOf core) (wordsOf a n) d
    generalize hd : ((linesOf a n).foldl (fun d l => d.cacheTouch (clusterOf core) (wordsOf a n) l) d) = e at k
    have hm : e.mem = d.mem := by subst hd; exact cacheTouches_mem _ _ _ _
    obtain ⟨k1, k2⟩ := readHbm_of_sound (d := e) (ws := (wordsOf a n).filter fun w => !e.resident (clusterOf core) (w / 16))
      (by intro w hw; rw [k.badWords]; exact hb w (List.mem_filter.1 hw).1)
      (by intro w hw; rw [k.failed, hbmMap_of_objs k.objs]; simpa using h3 w (List.mem_filter.1 hw).1)
    dsimp only
    rw [hd, k1]
    exact ⟨rfl, rfl, k.trans k2, (readHbm_mem _ _).trans hm⟩
  · exact readMem_of_ready h

theorem readFor_of_ready {d : Dev} {o : Origin} {a n : Nat} (h : MemoryReady d a n) :
    (d.readFor o a n).1 = .done ∧ (d.readFor o a n).2.1 = memRead d.mem a n ∧ Served d (d.readFor o a n).2.2 ∧ (d.readFor o a n).2.2.mem = d.mem := by
  unfold Dev.readFor
  split
  · exact readCached_of_ready h
  · exact readMem_of_ready h

/-! ### The way over the network (R14, R233, R240) -/

/-- With no link removed no route is dead. -/
theorem pathDead_of_whole {d : Dev} (h : NetworkWhole d) (k : NocPacket) : d.pathDead k = false := by simp [Dev.pathDead, h.1]
theorem probes_of_whole {d : Dev} (h : NetworkWhole d) (k : NocPacket) : d.probes k = d := by simp [Dev.probes, Dev.probesAt, h.2]
/-- Packets cross a whole network unseen, and all of them get there. -/
theorem crossAll_of_whole {d : Dev} (h : NetworkWhole d) (ks : List NocPacket) : d.crossAll ks = (true, d) := by
  unfold Dev.crossAll
  induction ks with
  | nil => rfl
  | cons k ks ih => simp only [List.foldl_cons, Dev.cross, pathDead_of_whole h, probes_of_whole h]; exact ih

theorem whole_of_served {d e : Dev} (h : NetworkWhole d) (k : Served d e) : NetworkWhole e := by
  refine ⟨k.health.trans h.1, ?_⟩
  have := h.2
  unfold Dev.objNat Dev.obj at this ⊢
  rw [k.objs]; exact this

/-- Without imports an access is one stretch. -/
theorem stretches_of_no_imports {d : Dev} (h : d.imports = []) (a n : Nat) (hn : 0 < n) : d.stretches a n = [{ addr := a, len := n, goes := none }] := by
  unfold Dev.stretches
  simp only [h]
  simp [cutImports, cutRequests, Nat.ne_of_gt hn]

theorem cutUser_of_ready {d : Dev} {a n : Nat} (h : MemoryReady d a n) :
    d.cutUser { addr := a, len := n, goes := none } = [{ addr := a, len := n, goes := none }] := by
  unfold Dev.cutUser
  rw [if_neg]
  rintro ⟨-, h1, -⟩
  obtain ⟨_, _, _, _, _, hr⟩ := h
  rcases hr with ⟨h2, _⟩ | ⟨c, _, h2⟩ | ⟨c, _, h2 | h2⟩ <;> rw [h2] at h1 <;> cases h1

/-- An access of memory that is ready is one part. -/
theorem cuts_of_ready {d : Dev} {out : Bool} {acc : Access} (h : MemoryReady d acc.addr acc.len) :
    d.cuts out acc = [{ addr := acc.addr, len := acc.len, goes := none }] := by
  have hr : d.regionOfRange acc.addr acc.len ≠ .reserved := by
    obtain ⟨_, _, _, _, _, hr⟩ := h
    rcases hr with ⟨h2, _⟩ | ⟨c, _, h2⟩ | ⟨c, _, h2 | h2⟩ <;> rw [h2] <;> simp
  have hd : d.cutDead acc { addr := acc.addr, len := acc.len, goes := none } = [{ addr := acc.addr, len := acc.len, goes := none }] := by
    unfold Dev.cutDead
    rw [if_neg]
    rintro ⟨-, h1⟩
    rw [List.any_eq_true] at h1
    obtain ⟨k, _, hk⟩ := h1
    rw [pathDead_of_whole h.2.2.1] at hk
    cases hk
  unfold Dev.cuts
  simp only [hr, if_false]
  cases out <;> simp [stretches_of_no_imports h.1 acc.addr acc.len h.2.1, cutUser_of_ready h, hd]

/-! ### Whole accesses -/

theorem netCount_eq (d : Dev) (a : Access) : ∃ k, d.netCount a = { d with noc := { d.noc with stats := k } } := by
  unfold Dev.netCount
  dsimp only
  split
  · exact ⟨d.noc.stats, rfl⟩
  · exact ⟨_, rfl⟩

theorem memRead_length (m : List Host.Cell) (a n : Nat) : (memRead m a n).length = n := by simp [memRead]

theorem patchBytes_whole (n : Nat) (z b : List Byte) (hz : z.length = n) (hb : b.length = n) : patchBytes z 0 b = b := by
  apply List.ext_getElem
  · simp [patchBytes, hz, hb]
  · intro i h1 h2
    simp [patchBytes, h2]

/-- The open access of a new id is the one that its part answers. -/
theorem partDone_of_fresh {e : Dev} {l : List OpenAccess} {a : Access} {id : Nat} {z : List Byte} {p : Part} {b : List Byte}
    (he : e.accesses = l ++ [{ id := id, access := a, parts := 1, status := .done, data := z }]) (hf : ∀ o ∈ l, o.id ≠ id) (hp : p.id = id)
    (hd : p.data = none → p.off = 0 ∧ z.length = b.length) :
    e.partDone p .done b = Dev.reply { e with accesses := l } a .done (if p.data = none then b else z) := by
  unfold Dev.partDone
  have h1 : (e.accesses.find? fun o => o.id == p.id) = some { id := id, access := a, parts := 1, status := .done, data := z } := by
    rw [he, List.find?_append]
    have : (l.find? fun o => o.id == p.id) = none := by
      rw [List.find?_eq_none]; intro o ho; simp [hp, hf o ho]
    rw [this]; simp [hp]
  have h2 : (e.accesses.filter fun x => !decide (x.id = p.id)) = l := by
    rw [he, List.filter_append]
    have : (l.filter fun x => !decide (x.id = p.id)) = l := by
      rw [List.filter_eq_self]; intro o ho; simp [hp, hf o ho]
    rw [this]; simp [hp]
  simp only [h1, if_true]
  cases hq : p.data with
  | none =>
    obtain ⟨h3, h4⟩ := hd hq
    simp [h2, h3, patchBytes_whole _ z b h4 rfl]
  | some v => simp [h2]

/-- A part that is answered over a whole network. -/
theorem answerPart_of_whole {d : Dev} (h : NetworkWhole d) (ks : List NocPacket) (p : Part) (st : Status) (b : List Byte) :
    d.answerPart ks p st b = d.partDone p st b := by
  unfold Dev.answerPart
  simp only [crossAll_of_whole h, if_true]

/-- A part that reads memory that is ready is answered at once. -/
theorem servePart_read {fz : Fuses} {d : Dev} {o : Origin} {p : Part} (h : MemoryReady d p.addr p.len) (hp : p.data = none) :
    d.servePart fz o p = (d.readFor o p.addr p.len).2.2.partDone p .done (memRead d.mem p.addr p.len) := by
  obtain ⟨r1, r2, r3, _⟩ := readFor_of_ready (o := o) h
  have hw := whole_of_served h.2.2.1 r3
  unfold Dev.servePart
  simp only [crossAll_of_whole h.2.2.1, if_true]
  have key : d.serve fz o p = d.perform fz o p := by
    obtain ⟨_, _, _, hs, _, hr⟩ := h
    unfold Dev.serve
    rcases hr with ⟨h1, h2, _⟩ | ⟨c, _, h1⟩ | ⟨c, _, h1 | h1⟩
    · simp [h1, h2]
    all_goals simp [h1, hs]
  rw [key]
  unfold Dev.perform
  obtain ⟨_, _, _, _, _, hr⟩ := h
  simp only [hp]
  rcases hr with ⟨h1, h2, _⟩ | ⟨c, _, h1⟩ | ⟨c, _, h1 | h1⟩ <;> simp only [h1] <;> rw [answerPart_of_whole hw, r1, r2]

/-- A read that memory serves at once is answered with its bytes. -/
theorem issueAs_read {fz : Fuses} {d : Dev} {out : Bool} {o : Origin} {a n : Nat} (h : MemoryReady d a n) (hf : FreshIds d) :
    ∃ e, Served d e ∧ e.mem = d.mem ∧
      d.issueAs fz out { origin := o, addr := a, len := n, data := none } =
        e.reply { origin := o, addr := a, len := n, data := none } .done (memRead d.mem a n) := by
  obtain ⟨k, hk⟩ := netCount_eq d { origin := o, addr := a, len := n, data := none }
  have hn : n ≠ 0 := Nat.ne_of_gt h.2.1
  have hx := cuts_of_ready (out := out) (acc := { origin := o, addr := a, len := n, data := none }) h
  unfold Dev.issueAs
  simp only [hn, if_false, hx, hk, List.length_singleton, List.foldl_cons, List.foldl_nil, Nat.sub_self, Option.map_none]
  generalize hd1 : Dev.mk _ _ _ _ _ _ _ _ _ _ _ _ _ _ _ _ _ _ _ _ _ _ _ _ _ _ _ _ _ _ _ _ _ = d1
  have hr : MemoryReady d1 a n := by subst hd1; exact h
  have e1 : Served { d with accesses := d1.accesses } d1 := by subst hd1; constructor <;> rfl
  have e2 : d1.mem = d.mem := by subst hd1; rfl
  have e3 : d1.accesses = d.accesses ++ [{ id := d.nextAccess, access := { origin := o, addr := a, len := n, data := none }, parts := 1, status := .done, data := List.replicate n 0 }] :=
    by subst hd1; rfl
  obtain ⟨_, _, r3, r4⟩ := readFor_of_ready (o := o) hr
  rw [servePart_read hr rfl]
  have r5 := e1.trans r3
  let e : Dev := { (d1.readFor o a n).2.2 with accesses := d.accesses }
  refine ⟨e, ?_, ?_, (partDone_of_fresh (r3.accesses.trans e3) (fun q hq => Nat.ne_of_lt (hf q hq)) rfl (by simp [memRead_length])).trans ?_⟩
  · exact ⟨r5.1, r5.2, r5.3, r5.4, r5.5, r5.6, r5.7, r5.8, r5.9, r5.10, r5.11, r5.12, r5.13, rfl, r5.15, r5.16, r5.17⟩
  · exact r4.trans e2
  · simp [e2, e]

end Sys2Proof.Machine
end

