-- ==== Sys2Proof/Laws/Dict.lean ====
section
/-! SUPPORT. Little-endian numbers, and what a write of the dictionary answers. -/

namespace Sys2Proof.Machine

theorem leBytes_length (n v : Nat) : (leBytes n v).length = n := by
  induction n generalizing v with
  | zero => rfl
  | succ n ih => simp [leBytes, ih]
/-- The number that was laid out is read again (R3). -/
theorem leNat_leBytes (n v : Nat) : leNat (leBytes n v) = v % 256 ^ n := by
  induction n generalizing v with
  | zero => simp [leBytes, leNat, Nat.mod_one]
  | succ n ih =>
    simp only [leBytes, leNat, ih, BitVec.toNat_ofNat]
    rw [show (256 : Nat) ^ (n + 1) = 2 ^ 8 * 256 ^ n by rw [pow_succ]; omega, Nat.mod_mul]
    rfl

/-- An accepted write of an object. -/
theorem dict_of_ok {s : State} {via : Transport} {i j : Nat} {b : List Byte} {fz : Fuses} {d : Dev} (hr : s.dev.dictRuns via = true)
    (h : dictWrite s.fuses s.dev via i j b = .ok (fz, d)) : s.dict via i j b = .next { s with fuses := fz, dev := d } := by
  simp [State.dict, hr, h]

/-- A refused write of an object of a fixed size: its code is kept over the mirror (R359). -/
theorem dict_of_error {s : State} {via : Transport} {i j : Nat} {b : List Byte} {c : Nat} (hr : s.dev.dictRuns via = true)
    (h : dictWrite s.fuses s.dev via i j b = .error c)
    (hd : ∀ o, objInfo i j = some o → o.type.size.isSome = true) :
    s.dict via i j b = .next (s.withDev (if via = .pcie then s.dev.mirrorAbort i j c else s.dev)) := by
  simp only [State.dict, hr, h, if_true]
  by_cases hv : via = .pcie
  · cases ho : objInfo i j with
    | none => simp [hv, State.withDev]
    | some o => simp [hv, State.withDev, hd o ho]
  · simp [hv, State.withDev]

end Sys2Proof.Machine
end

