-- ==== Sys2Proof/Laws/Reckoner.lean ====
section
/-! SUPPORT. The Reckoner: what an instruction that issues does, the operands that its word names, and reads of a bank after a write. -/

namespace Sys2Proof.Machine

/-- With the clocks running a command answers the device after it. -/
theorem onClock_gives {s : State} {f : Dev → Dev} (h : s.dev.pins.clocks = true) : s.onClock f = .next (s.withDev (f s.dev)) := by
  simp [State.onClock, State.onDev, Dev.when, h, State.withDev]

/-! ### Issue -/

theorem rkFetched_mem (s : State) (c : CoreId) : (rkFetched s c).mem = s.dev.mem := correct_mem _ _
theorem rkFetched_core (s : State) (c : CoreId) (n : Nat) : (rkFetched s c).core n = s.dev.core n := by
  unfold Dev.core; rw [show (rkFetched s c).cores = s.dev.cores from correct_cores _ _]
/-- The fetch changes neither the bank in use nor the word in it. -/
theorem rkBankOf_fetched (s : State) (c : CoreId) : rkBankOf (rkFetched s c) c = rkBankOf s.dev c := by
  unfold rkBankOf; rw [rkFetched_core]
theorem rkWordOf_fetched (s : State) (c : CoreId) : rkWordOf (rkFetched s c) c = rkWordOf s.dev c := by
  unfold rkWordOf Dev.rkWordAt; rw [rkFetched_core, rkFetched_mem]

/-- The shared front of every instruction, where its word issues: the operands are handed to the instruction's own effect. -/
theorem rkIssue_of_issues {s : State} {c : CoreId} {op : RkOp} (h : RkIssues s c op) (f : RkArgs → Dev → Dev) :
    s.dev.rkIssue c.toNat (some op) f = f (rkArgs (rkBankOf (rkFetched s c) c) (rkWordOf (rkFetched s c) c)) (rkFetched s c) := by
  rw [rkBankOf_fetched, rkWordOf_fetched]
  obtain ⟨⟨_, h2, h3, h4, h5, h6⟩, h7⟩ := h
  have hi : s.dev.rkIssues c.toNat = true := by
    have h2' : s.dev.awake c.toNat = true := by simp [Dev.awake, clusterOf, h2]
    simp only [Dev.rkIssues, h2', Core.rkIssues, h3]
    rcases h4 with h4 | ⟨h4, h4'⟩
    · simp [h4]
    · simp [h4, h4']
  have hp : badPc (rkBankOf s.dev c).pc = false := by simp [badPc]; omega
  unfold Dev.rkIssue
  simp only [rkBankOf, rkWordOf, rkFetched] at *
  simp [hi, hp, h6, h7]

theorem rk_gives {s : State} {c : CoreId} {op : RkOp} (h : RkIssues s c op) (f : RkArgs → Dev → Dev) (e : Dev)
    (he : f (rkArgs (rkBankOf (rkFetched s c) c) (rkWordOf (rkFetched s c) c)) (rkFetched s c) = e) :
    (s.onClock fun d => d.rkIssue c.toNat (some op) f) = .next (s.withDev e) := by
  rw [onClock_gives h.1.1, rkIssue_of_issues h, he]

/-! ### Operands -/

theorem rkArgs_d (d : Dev) (c : CoreId) : (rkArgs (rkBankOf d c) (rkWordOf d c)).d = rkD d c := by simp [rkArgs, rkD, rkFirst, rkField, bits]
theorem rkArgs_a (d : Dev) (c : CoreId) : (rkArgs (rkBankOf d c) (rkWordOf d c)).a = rkA d c := by simp [rkArgs, rkA, rkField, bits]
theorem rkArgs_b (d : Dev) (c : CoreId) : (rkArgs (rkBankOf d c) (rkWordOf d c)).b = rkX d c := by simp [rkArgs, rkX, rkField, bits]
theorem rkArgs_rd (d : Dev) (c : CoreId) : (rkArgs (rkBankOf d c) (rkWordOf d c)).rd = rkFirst d c := by simp [rkArgs, rkFirst, rkField, bits]
theorem rkArgs_imm (d : Dev) (c : CoreId) : (rkArgs (rkBankOf d c) (rkWordOf d c)).imm = rkSext d c := by
  simp only [rkArgs, rkSext, rkField, bits, signed]
  generalize rkWordOf d c = w
  apply BitVec.eq_of_toInt_eq
  rw [BitVec.toInt_signExtend]
  simp [BitVec.toInt_ofInt, BitVec.toInt_eq_toNat_cond (x := BitVec.truncate 16 w)]
  have : w.toNat % 65536 < 65536 := Nat.mod_lt _ (by decide)
  split <;> split <;> first | omega | (simp only [Int.bmod]; omega)
theorem rkArgs_uimm (d : Dev) (c : CoreId) : (rkArgs (rkBankOf d c) (rkWordOf d c)).uimm = rkZext d c := by
  simp only [rkArgs, rkZext, rkField, bits]
  apply BitVec.eq_of_toNat_eq
  simp
theorem rkFirst_lt (d : Dev) (c : CoreId) : rkFirst d c < 32 := Nat.mod_lt _ (by decide)

/-- A three-register or immediate instruction writes its result and goes on. -/
theorem rkAlu_gives {s : State} {c : CoreId} {op : RkOp} (h : RkIssues s c op) (f : RkArgs → Word) (v : Word)
    (he : f (rkArgs (rkBankOf (rkFetched s c) c) (rkWordOf (rkFetched s c) c)) = v) :
    (s.onClock fun d => d.rkIssue c.toNat (some op) (rkAlu c.toNat f)) = .next (s.withDev (rkWrites (rkFetched s c) c v)) := by
  apply rk_gives h
  simp only [rkAlu, he, rkWrites, rkThen, rkArgs_rd, Bank.next, Bank.set]
  congr 1; funext b; split <;> rfl

/-! ### A bank -/

theorem Bank.set_pc (b : Bank) (r : Nat) (v : Word) : (b.set r v).pc = b.pc := by unfold Bank.set; split <;> rfl
theorem Bank.set_with_pc (b : Bank) (r : Nat) (v pc : Word) :
    (let t : Bank := { b.set r v with pc := pc }; t) = (let t : Bank := { b with pc := pc }; t).set r v := by unfold Bank.set; split <;> rfl
/-- No two names of a bank share a physical register (R176). -/
theorem Bank.phys_inj (b : Bank) (r r' : Nat) (h : r < 32) (h' : r' < 32) (e : b.phys r = b.phys r') : r = r' := by
  unfold Bank.phys at e
  have := b.rot.isLt
  split at e <;> split at e <;> omega
/-- A register reads as it was written, g0 as 0, every other as before. -/
theorem Bank.get_set (b : Bank) (r r' : Nat) (v : Word) (h : r < 32) (h' : r' < 32) :
    (b.set r v).get r' = if r' = r then (if r = 0 then 0 else v) else b.get r' := by
  unfold Bank.set Bank.get
  by_cases h0 : r = 0
  · subst h0; simp only [if_true]; by_cases h1 : r' = 0 <;> simp [h1]
  · simp only [h0, if_false]
    by_cases h1 : r' = 0
    · subst h1; simp [Ne.symm h0]
    · have hp : Bank.phys (let t : Bank := { b with regs := tabSet b.regs (b.phys r) v }; t) r' = b.phys r' := rfl
      simp only [h1, if_false, tabGet_tabSet] at hp ⊢
      simp only [hp]
      by_cases h2 : r' = r
      · simp [h2]
      · simp only [h2, if_false]
        rw [if_neg]
        intro e
        exact h2 (Bank.phys_inj b r' r h' h e)

/-! ### Addresses and targets -/

theorem badPc_of_target {p : Word} (h : RkTarget p) : badPc p = false := by
  obtain ⟨h1, h2⟩ := h
  simp only [badPc, h2]; simp; omega
theorem rkTarget_eq (d : Dev) (c : CoreId) : rkTarget d c.toNat (rkArgs (rkBankOf d c) (rkWordOf d c)) = rkOffset d c := by
  unfold rkTarget rkOffset; rw [rkArgs_imm]; rfl
theorem badDataAddr_of_data {d : Dev} {c : CoreId} {z : Nat} (h : RkData d c z) : badDataAddr (rkA d c + rkSext d c) z = false := by
  obtain ⟨h1, h2⟩ := h
  unfold rkAddr at *
  simp only [badDataAddr]
  simp only [h2, Bool.or_eq_false_iff]
  exact ⟨by rw [decide_eq_false_iff_not]; omega, by decide⟩

end Sys2Proof.Machine
end

