-- ==== Sys2Proof/Laws/Engines.lean ====
section
/-! SUPPORT. The forms of an engine command, the job in the array of a core, and what a slate step does. -/

namespace Sys2Proof.Machine

theorem onEngine_gives {s : State} {f : Dev → Dev} {e : Dev} (h : s.dev.pins.clocks = true) (he : f s.dev = e) :
    s.onEngine f = .next (s.withDev e.settle) := by
  subst he
  unfold State.onEngine
  exact onClock_gives h

/-- A MATMUL that its engines may work on is acted on with its descriptor and round. -/
theorem onJob_of_runs {s : State} {j : MatJob} {x : Desc} {r : Round} (h : JobRuns s j x r) (f : MatJob → Desc → Round → Dev) :
    s.dev.onJob (some j) f = f j x r := by
  obtain ⟨_, h2, h3, h4, h5⟩ := h
  simp [Dev.onJob, Dev.jobCtx, h2, h3, h4, h5]

/-- A command of the array acts on the job in it; one of the load side, and a release, on the job behind it where there is one. -/
theorem withJob_of_array {s : State} {c : CoreId} {j : MatJob} {x : Desc} {r : Round} (h : ArrayAt s c j x r) (f : MatJob → Desc → Round → Dev) :
    s.dev.withJob c.toNat f = f j x r := by unfold Dev.withJob; rw [h.2, onJob_of_runs h.1]
theorem withLoad_of_load {s : State} {c : CoreId} {j : MatJob} {x : Desc} {r : Round} (h : LoadAt s c j x r) (f : MatJob → Desc → Round → Dev) :
    s.dev.withLoad c.toNat f = f j x r := by unfold Dev.withLoad; rw [h.2, onJob_of_runs h.1]
theorem withRelease_of_release {s : State} {c : CoreId} {j : MatJob} {x : Desc} {r : Round} (h : ReleaseAt s c j x r)
    (f : MatJob → Desc → Round → Dev) : s.dev.withRelease c.toNat f = f j x r := by
  have h2 := h.2
  unfold Dev.withRelease
  dsimp only at h2 ⊢
  rw [h2, onJob_of_runs h.1]

/-- A descriptor after an update of itself. -/
theorem desc?_updDesc_self (d : Dev) (k : DescKey) (x : Desc) (f : Desc → Desc) (h : d.desc? k = some x) (hf : ∀ y, (f y).key = y.key) :
    (d.updDesc k f).desc? k = some (f x) := by
  rw [Dev.desc?_updDesc _ _ _ _ hf, h]
  have : x.key = k := by have := List.find?_some h; simpa using this
  simp [this]

/-- The end of a step that is not the last of its list. -/
theorem stepDone_putStep {s : State} {c : CoreId} {op : Nat} {j : SlateJob} {x : Desc} {r : Round} (h : SlateAt s c op j x r) (o : StepOut) :
    (s.dev.putStep c.toNat j (x.stepAt j.pc) o).stepDone c.toNat j x = slateThen s.dev c j (x.stepAt j.pc).dst o.writes o.sat o.lane := by
  obtain ⟨_, h2, h3, _, _, _, h7, _, h9⟩ := h
  have hk : ((s.dev.putStep c.toNat j (x.stepAt j.pc) o).descOk j.key) = true := by
    have : (s.dev.putStep c.toNat j (x.stepAt j.pc) o).desc? j.key = some
        { x with sat := x.sat || 0 < o.sat, nSat := x.nSat + o.sat, lane := x.lane || 0 < o.lane, nLane := x.nLane + o.lane } := by
      unfold Dev.putStep Dev.countSat
      have e1 := desc?_updDesc_self (s.dev.updSlate c.toNat fun e => e.put (x.stepAt j.pc).dst o.writes) j.key x
        (fun x => { x with sat := x.sat || 0 < o.sat, nSat := x.nSat + o.sat }) h3 (fun _ => rfl)
      exact desc?_updDesc_self _ j.key _ (fun x => { x with lane := x.lane || 0 < o.lane, nLane := x.nLane + o.lane }) e1 (fun _ => rfl)
    unfold Dev.descOk at h7 ⊢
    rw [this]; rw [h3] at h7; exact h7
  unfold Dev.stepDone
  simp only [hk, h9, if_true, Bool.not_true, Bool.false_eq_true, if_false]
  unfold Dev.putStep Dev.countSat slateThen Dev.updSlateJob Dev.updSlate Dev.updDesc Dev.updCore
  simp only [List.map_map, Dev.core, tabGet_tabSet, if_true, tabSet_tabSet]
  simp only [Dev.core] at h2
  simp only [Dev.mk.injEq, true_and, and_true]
  constructor
  · congr 1; funext y; simp only [Function.comp]; by_cases hy : y.key = j.key <;> simp [hy]
  · congr 1; simp [SlateEngine.put, h2]

/-- Corrected words change nothing that a step looks at. -/
theorem slateAt_checked {s : State} {c : CoreId} {op : Nat} {j : SlateJob} {x : Desc} {r : Round} (h : SlateAt s c op j x r) (u : Upset) :
    SlateAt (s.withDev (slateChecked s.dev u)) c op j x r := by
  have e : ∃ k, slateChecked s.dev u = { s.dev with counters := k } := by
    unfold slateChecked Dev.bump
    split
    · exact ⟨s.dev.counters, rfl⟩
    · exact ⟨_, rfl⟩
  obtain ⟨k, e⟩ := e
  unfold State.withDev
  rw [e]
  exact h

/-- Every step but BEAMREAD and STORE whose reads meet no uncorrectable word: what `stepOut` computes of the slates is written, the step
counter and the events advance. -/
theorem slateStep_gives {s : State} {c : CoreId} {op : Nat} {j : SlateJob} {x : Desc} {r : Round} (h : SlateAt s c op j x r) (h1 : op ≠ 0x3C)
    (h2 : op ≠ 0x3D) (u : Upset) (hu : u.failed = false) :
    s.onEngine (slateStep s.fuses op c.toNat u) =
      .next (s.withDev (slateThen (slateChecked s.dev u) c j (x.stepAt j.pc).dst
        (stepOut ((slateChecked s.dev u).core c.toNat).slateAt (x.stepAt j.pc) x.vl).writes
        (stepOut ((slateChecked s.dev u).core c.toNat).slateAt (x.stepAt j.pc) x.vl).sat
        (stepOut ((slateChecked s.dev u).core c.toNat).slateAt (x.stepAt j.pc) x.vl).lane).settle) := by
  have hc := slateAt_checked h u
  unfold State.onEngine
  rw [onClock_gives h.1]
  congr 2
  have e := stepDone_putStep hc (stepOut ((slateChecked s.dev u).core c.toNat).slateAt (x.stepAt j.pc) x.vl)
  simp only [State.withDev] at e
  rw [← e]
  obtain ⟨_, _, _, _, _, _, b7, _, _⟩ := hc
  obtain ⟨_, a2, a3, a4, a5, a6, a7, a8, _⟩ := h
  unfold slateStep Dev.slateJob
  simp only [a2, a3, a4, a5]
  have hl : s.dev.loadSides s.fuses c.toNat j x = .ok () s.dev := by
    unfold Dev.loadSides; rw [if_pos]; rcases a8 with h | h <;> simp [h]
  have hx : s.dev.slateUpset j.key op u = slateChecked s.dev u := by simp [Dev.slateUpset, h1, hu, slateChecked]
  have b7' : (slateChecked s.dev u).descOk j.key = true := b7
  simp only [a6, hl, hx, b7']
  simp [h1, h2]

/-- An INT32 limit of R109 as the vocabulary writes it. -/
theorem sat32_eq (v : Int) : Sys2Proof.Machine.sat32 v = intResult v := by
  unfold Sys2Proof.Machine.sat32 intResult clampInt
  split
  · have : limit32 v = -2 ^ 31 := by unfold limit32; omega
    rw [this]; refine Prod.ext rfl ?_; simp; omega
  · split
    · have : limit32 v = 2 ^ 31 - 1 := by unfold limit32; omega
      rw [this]; refine Prod.ext rfl ?_; simp; omega
    · have : limit32 v = v := by unfold limit32; omega
      rw [this]; simp

end Sys2Proof.Machine
end

