-- ==== Sys2Proof/Tests/Slice0.lean ====
section
/-! SUPPORT. Tests: a command that each check of `Instr.wf` refuses, Reckoner words written out from R180 and R181, one step on small states with
results worked out by hand from the manual, and for every statement with hypotheses a state that meets them. -/

namespace Sys2Proof.Tests

open Sys2Proof Sys2Proof.Machine

set_option Elab.async false

/-! ### Small states -/

/-- A device in user mode with its clocks and its HBM running. -/
def up : Dev :=
  { Dev.reset with pins := { Pins.reset with clocks := true, pllLocked := true, straps := { Pins.reset.straps with mgtAddr := 5 } }, cfg := { Cfg.reset with state := 5, phase := 5 },
                   hbm := { Hbm.reset with trained := true } }
/-- A state with an empty queue and unblown fuses. -/
def on (d : Dev) : State := { State.reset with dev := d }

/-- What holds in a state. -/
abbrev In (s : State) (p : State → Bool) : Prop := p s = true

/-- Where a Reckoner instruction of core 0 stands: instruction bank 0 at offset 0 (R18, R19). -/
def rkCode : Nat := 0x300000010000
/-- Core 0's Reckoner runs, its main bank holds `regs`, and `w` stands at its PC. -/
def rkAt (regs : Table Word) (w : Word) : State :=
  on { up.updRk 0 fun k => { k with mode := .running, main := { k.main with regs := regs } } with mem := memWrite [] rkCode (leBytes 4 w.toNat) }
/-- The same in the shadow bank. -/
def rkShadowAt (regs : Table Word) (w : Word) : State :=
  on { up.updRk 0 fun k => { k with mode := .running, inShadow := true, shadow := { k.shadow with regs := regs } } with
    mem := memWrite [] rkCode (leBytes 4 w.toNat) }

/-- A descriptor of round 5 in slot 0 of stream 0, with an image of 448 bytes. -/
def desc (op : Nat) (stage : Stage) : Desc :=
  { newDesc { stream := 0, slot := 0 } 5 0 true [] with image := BitVec.ofNat 8 op :: List.replicate 447 0, stage := stage }
/-- Round 5, running, of one device. -/
def round : Round :=
  { number := 5, rslot := 0, rrec := 0, peerGroup := 0, inputs := [], streams := 1, runs := [], attempt := 0, settings := [], phase := .running,
    cause := none, nodesUsed := [], causeAt := 0, later := none, lastStatus := none, endings := [], undelivered := [], recorded := [],
    hold := .none, increments := [], deps := [], waitRegions := [] }

/-! ### Well-formedness -/

def packet (op : BitVec 6) : NocPacket :=
  { vc := 0, dest := 0, src := 0, op := op, tag := 0, status := 0, lenm1 := 0, rslot := 0x7F, addr := 0, body := .none }
def peerPacket (op : BitVec 6) : SaeriPkt := { dnode := 0xFFF, addr := 0, snode := 1, tag := 0, lenm1 := 0, status := 0, op := op, data := [] }
def fabCmd (beats : List Byte) : FabCmd :=
  { rvalid := false, attempt := 0, round := 0, tag := 0, lenm1 := 0, rsvd := 0, addr := 0, beats := beats }
def frame (cmd : Byte) : TFrame := { cmd := cmd, tid := 0, index := 0x2060, sub := 1, flags := 1, seq := 0, data := [] }
def scrub (bad : Option (BitVec 6)) : ScrubObs := { voteMismatch := false, corrected := 0, badWord := bad, crcBad := false }

theorem test_wf_refuses_configuration_units :
    Instr.wf (.streamHeader .flash []) = false ∧ Instr.wf (.frameRecord [0]) = false ∧ Instr.wf (.streamTag [0]) = false ∧
    Instr.wf (.bbramKey .mgmt []) = false ∧ Instr.wf (.efuseKey .mgmt []) = false ∧
    Instr.wf (.scrubFrame 0x1FFFF (scrub none)) = false ∧ Instr.wf (.scrubFrame 0 (scrub (some 36))) = false := by decide +kernel

theorem test_wf_refuses_frames :
    Instr.wf (.transferRead .mgmt (frame 2)) = false ∧ Instr.wf (.writeSegment .mgmt (frame 1)) = false ∧
    Instr.wf (.readAcknowledge .mgmt (frame 1)) = false ∧ Instr.wf (.clientAbort .mgmt (frame 4)) = false := by decide +kernel

theorem test_wf_refuses_noc_packets :
    Instr.wf (.nocRead (packet 2) []) = false ∧ Instr.wf (.nocWrite (packet 1)) = false ∧ Instr.wf (.nocWrite (packet 2)) = false ∧
    Instr.wf (.nocReadData (packet 1) 0) = false ∧ Instr.wf (.nocWriteAck (packet 1)) = false ∧ Instr.wf (.nocFlagAdd (packet 1)) = false ∧
    Instr.wf (.nocCarryPartial (packet 6)) = false ∧ Instr.wf (.nocCarryPartial (packet 7)) = false ∧
    Instr.wf (.nocWeightRow (packet 7)) = false ∧ Instr.wf (.nocManagement (packet 1)) = false ∧
    Instr.wf (.linkRemoval 52 0) = false ∧ Instr.wf (.linkRemoval 0 6) = false := by decide +kernel

theorem test_wf_refuses_memory_accesses :
    Instr.wf (.hbmAccess 0 0 none [] 0) = false ∧ Instr.wf (.hbmAccess 0 2 (some [0]) [] 0) = false ∧ Instr.wf (.hbmRefresh 0 48) = false := by decide +kernel

theorem test_wf_refuses_peer_packets :
    Instr.wf (.saeriRead (peerPacket 2)) = false ∧ Instr.wf (.saeriWrite (peerPacket 2)) = false ∧ Instr.wf (.saeriReadData (peerPacket 1)) = false ∧
    Instr.wf (.saeriWriteAck (peerPacket 1)) = false ∧ Instr.wf (.saeriFlagAdd (peerPacket 1)) = false ∧
    Instr.wf (.saeriManagement (peerPacket 1)) = false ∧ Instr.wf (.quiescenceNotice (peerPacket 1)) = false := by decide +kernel

theorem test_wf_refuses_fabric_commands :
    Instr.wf (.read 0 { word := commandWord 1 (fabCmd []), beats := [0] }) = false ∧ Instr.wf (.write 0 { word := commandWord 2 (fabCmd []), beats := [] }) = false ∧
    Instr.wf (.inject 0 { word := commandWord 3 (fabCmd []), beats := [] }) = false ∧ Instr.wf (.take 0 { word := commandWord 5 (fabCmd []), beats := [] }) = false ∧
    Instr.wf (.release 0 { word := commandWord 5 (fabCmd []), beats := [0] }) = false ∧ Instr.wf (.flagadd 0 { word := commandWord 6 (fabCmd []), beats := [] }) = false ∧
    Instr.wf (.read 0 { word := commandWord 9 (fabCmd []), beats := [0] }) = false := by decide +kernel

theorem test_wf_refuses_link_frames :
    Instr.wf (.dataFrame 0 { blocks := [], fixes := [], failed := false }) = false := by decide +kernel

/-! ### The Reckoner -/

/-- A word of every instruction, its fields laid out as R180 does: rd or rs 1, ra 2, rb 3, rc 4, and R181's op and func. -/
def rkWordsR : List (Word × RkOp) :=
  [(0x00221800, .add), (0x00221801, .sub), (0x00221802, .and), (0x00221803, .or), (0x00221804, .xor), (0x00221805, .sll), (0x00221806, .srl),
   (0x00221807, .sra), (0x00221808, .slt), (0x00221809, .sltu), (0x0022180A, .mul), (0x0022180B, .mulhs), (0x0022180C, .mulhu),
   (0x0022180D, .min), (0x0022180E, .max), (0x00220110, .norm), (0x00220011, .expf), (0x00220012, .expb)]
def rkWordsI : List (Word × RkOp) :=
  [(0x0422FFFF, .addi), (0x0822FFFF, .slti), (0x0C22FFFF, .sltiu), (0x1022FFFF, .andi), (0x1422FFFF, .ori), (0x1822FFFF, .xori), (0x1C20FFFF, .lui),
   (0x2022001F, .slli), (0x2422001F, .srli), (0x2822001F, .srai), (0x40220004, .lw), (0x44220004, .lh), (0x48220004, .lhu), (0x4C220004, .lb),
   (0x50220004, .lbu), (0x54220004, .sw), (0x58220004, .sh), (0x5C220004, .sb), (0x60220004, .dlw), (0x64220004, .dlb), (0x68220004, .dsw),
   (0x6C220004, .dsb)]
def rkWordsB : List (Word × RkOp) :=
  [(0x80220004, .beq), (0x84220004, .bne), (0x88220004, .blt), (0x8C220004, .bge), (0x90220004, .bltu), (0x94220004, .bgeu), (0x98200004, .loop),
   (0x9C200004, .jal), (0xA0220004, .jalr), (0xC0021C00, .mac), (0xC0021C01, .msu), (0xC0020502, .mta), (0xC02007E3, .rnd), (0xC0200404, .ahi),
   (0xC0200405, .alo), (0xFC000000, .wait), (0xFC000001, .prel), (0xFC202002, .mfs), (0xFC020003, .mts)]
def rkWords : List (Word × RkOp) := rkWordsR ++ rkWordsI ++ rkWordsB

/-- Every instruction issues, from either bank. -/
theorem test_reckoner_issues :
    ∀ e ∈ rkWords, RkIssues (rkAt [] e.1) 0 e.2 ∧ RkIssues (rkShadowAt [] e.1) 0 e.2 := by decide +kernel

/-- R191's words, and words that R179 to R181 call illegal: an unused field that is not 0, LOOP of g16, MTA with SH 9, an unknown special register. -/
theorem test_reckoner_decoding :
    rkDecode 0x60800080 = some .dlw ∧ rkDecode 0x9C00FFFF = some .jal ∧ rkDecode 0x04000000 = some .addi ∧ rkDecode 0 = some .add ∧
    rkDecode 0x00221840 = none ∧ rkDecode 0x9A000001 = none ∧ rkDecode 0xC0020522 = none ∧ rkDecode 0xFC202802 = none ∧
    rkDecode 0xFC020803 = none ∧ rkDecode 0x1C21FFFF = none ∧ rkDecode 0x20220020 = none ∧ rkDecode 0xF8000000 = none := by decide +kernel

/-- Core 0's Reckoner in the patch of `desc 0 .patching`, at the word `w`. -/
def patchAt (regs : Table Word) (w : Word) : State :=
  let s := rkShadowAt regs w
  on { s.dev.updCore 0 (fun c => { c with patchQ := [{ stream := 0, slot := 0 }] }) with descs := [desc 0 .patching], rounds := [round] }

/-- The same with a declared input over all of core 0's Reckoner memory. -/
def protectedAt (regs : Table Word) (w : Word) : State := on { (rkAt regs w).dev with rounds := [{ round with inputs := [(rkBase, 0x10000)] }] }

/-- Data accesses at the highest address of each size, and image accesses at the last word and byte (R183). -/
theorem witness_ReckonerLoadsAndStores :
    (In (rkAt [(2, 0xFFF8)] 0x40220004) fun s => RkIssues s 0 .lw ∧ RkData (rkFetched s 0) 0 4 ∧ RkSound (rkFetched s 0) 0) ∧
    (In (rkAt [(2, 0xFFFA)] 0x44220004) fun s => RkIssues s 0 .lh ∧ RkData (rkFetched s 0) 0 2 ∧ RkSound (rkFetched s 0) 0) ∧
    (In (rkAt [(2, 0xFFFA)] 0x48220004) fun s => RkIssues s 0 .lhu ∧ RkData (rkFetched s 0) 0 2 ∧ RkSound (rkFetched s 0) 0) ∧
    (In (rkAt [(2, 0xFFFB)] 0x4C220004) fun s => RkIssues s 0 .lb ∧ RkData (rkFetched s 0) 0 1 ∧ RkSound (rkFetched s 0) 0) ∧
    (In (rkAt [(2, 0xFFFB)] 0x50220004) fun s => RkIssues s 0 .lbu ∧ RkData (rkFetched s 0) 0 1 ∧ RkSound (rkFetched s 0) 0) ∧
    (In (rkAt [(2, 0xFFF8)] 0x54220004) fun s => RkIssues s 0 .sw ∧ RkData (rkFetched s 0) 0 4 ∧ RkSound (rkFetched s 0) 0 ∧ (rkFetched s 0).protectors (rkBase + rkAddr (rkFetched s 0) 0) 4 = []) ∧
    (In (rkAt [(2, 0xFFFA)] 0x58220004) fun s => RkIssues s 0 .sh ∧ RkData (rkFetched s 0) 0 2 ∧ RkSound (rkFetched s 0) 0 ∧ (rkFetched s 0).protectors (rkBase + rkAddr (rkFetched s 0) 0) 2 = []) ∧
    (In (rkAt [(2, 0xFFFB)] 0x5C220004) fun s => RkIssues s 0 .sb ∧ RkData (rkFetched s 0) 0 1 ∧ RkSound (rkFetched s 0) 0 ∧ (rkFetched s 0).protectors (rkBase + rkAddr (rkFetched s 0) 0) 1 = []) ∧
    (In (protectedAt [(2, 0xFFF8)] 0x54220004) fun s => RkIssues s 0 .sw ∧ RkData (rkFetched s 0) 0 4 ∧
      (rkFetched s 0).protectors (rkBase + rkAddr (rkFetched s 0) 0) 4 ≠ []) ∧
    (In (patchAt [(2, 312)] 0x60220004) fun s => RkIssues s 0 .dlw ∧ RkPatch (rkFetched s 0) 0 (desc 0 .patching) 4) ∧
    (In (patchAt [(2, 315)] 0x64220004) fun s => RkIssues s 0 .dlb ∧ RkPatch (rkFetched s 0) 0 (desc 0 .patching) 1) ∧
    (In (patchAt [(2, 312)] 0x68220004) fun s => RkIssues s 0 .dsw ∧ RkPatch (rkFetched s 0) 0 (desc 0 .patching) 4) ∧
    (In (patchAt [(2, 315)] 0x6C220004) fun s => RkIssues s 0 .dsb ∧ RkPatch (rkFetched s 0) 0 (desc 0 .patching) 1) := by decide +kernel

/-- Branches to the last instruction of the bank, taken and not taken. -/
theorem witness_ReckonerControlTransfers :
    (In (rkAt [] 0x80220FFF) fun s => RkIssues s 0 .beq ∧ rkD (rkFetched s 0) 0 = rkA (rkFetched s 0) 0 ∧ RkTarget (rkOffset (rkFetched s 0) 0)) ∧
    (In (rkAt [(1, 1)] 0x84220FFF) fun s => RkIssues s 0 .bne ∧ rkD (rkFetched s 0) 0 ≠ rkA (rkFetched s 0) 0 ∧ RkTarget (rkOffset (rkFetched s 0) 0)) ∧
    (In (rkAt [(2, 1)] 0x88220FFF) fun s => RkIssues s 0 .blt ∧ (rkD (rkFetched s 0) 0).toInt < (rkA (rkFetched s 0) 0).toInt ∧ RkTarget (rkOffset (rkFetched s 0) 0)) ∧
    (In (rkAt [(1, 1)] 0x88220FFF) fun s => RkIssues s 0 .blt ∧ ¬(rkD (rkFetched s 0) 0).toInt < (rkA (rkFetched s 0) 0).toInt) ∧
    (In (rkAt [] 0x8C220FFF) fun s => RkIssues s 0 .bge ∧ (rkA (rkFetched s 0) 0).toInt ≤ (rkD (rkFetched s 0) 0).toInt ∧ RkTarget (rkOffset (rkFetched s 0) 0)) ∧
    (In (rkAt [(2, 1)] 0x90220FFF) fun s => RkIssues s 0 .bltu ∧ (rkD (rkFetched s 0) 0).toNat < (rkA (rkFetched s 0) 0).toNat ∧ RkTarget (rkOffset (rkFetched s 0) 0)) ∧
    (In (rkAt [] 0x94220FFF) fun s => RkIssues s 0 .bgeu ∧ (rkA (rkFetched s 0) 0).toNat ≤ (rkD (rkFetched s 0) 0).toNat ∧ RkTarget (rkOffset (rkFetched s 0) 0)) ∧
    (In (rkAt [(1, 2)] 0x98200FFF) fun s => RkIssues s 0 .loop ∧ rkD (rkFetched s 0) 0 ≠ 1 ∧ RkTarget (rkOffset (rkFetched s 0) 0)) ∧
    (In (rkAt [(1, 1)] 0x98200FFF) fun s => RkIssues s 0 .loop ∧ rkD (rkFetched s 0) 0 = 1) ∧
    (In (rkAt [] 0x9C200FFF) fun s => RkIssues s 0 .jal ∧ RkTarget (rkOffset (rkFetched s 0) 0)) ∧
    (In (rkAt [(2, 0x3FF8)] 0xA0220004) fun s => RkIssues s 0 .jalr ∧ RkTarget (rkA (rkFetched s 0) 0 + rkSext (rkFetched s 0) 0)) := by decide +kernel

/-- WAIT outside a patch, PREL in one, and every special register in both banks. -/
theorem witness_ReckonerSystemInstructions :
    (In (rkAt [] 0xFC000000) fun s => RkIssues s 0 .wait ∧ ((rkFetched s 0).core 0).rk.inShadow = false) ∧
    (In (patchAt [] 0xFC000001) fun s => RkIssues s 0 .prel ∧ ((rkFetched s 0).core 0).rk.inShadow = true ∧ ((rkFetched s 0).core 0).patchQ = { stream := 0, slot := 0 } :: []) ∧
    (∀ n, n < 5 → 
      (In (rkAt [] (BitVec.ofNat 32 (0xFC200002 + 0x800 * n))) fun s => RkIssues s 0 .mfs ∧ (rkWordOf (rkFetched s 0) 0).toNat / 2 ^ 11 % 32 = n) ∧
      (In (patchAt [] (BitVec.ofNat 32 (0xFC200002 + 0x800 * n))) fun s =>
        RkIssues s 0 .mfs ∧ ((rkFetched s 0).core 0).patchQ.head?.bind (rkFetched s 0).desc? = some (desc 0 .patching))) ∧
    RkIssues (rkAt [] 0xFC020003) 0 .mts := by decide +kernel

/-- Each cause of R185: an unused field, an address beyond memory, beyond the bank, beyond the image, the wrong bank, an uncorrectable word. -/
theorem witness_ReckonerFaults :
    (In (rkAt [] 0x00221840) fun s => RkFetches s 0 ∧ rkDecode (rkWordOf (rkFetched s 0) 0) = none) ∧
    (In (rkAt [(2, 0xFFFC)] 0x40220004) fun s => RkIssues s 0 .lw ∧ ¬RkData (rkFetched s 0) 0 4) ∧
    (In (rkAt [(2, 1)] 0x54220004) fun s => RkIssues s 0 .sw ∧ ¬RkData (rkFetched s 0) 0 4) ∧
    (In (on { (rkAt [] 0x40220004).dev with badWords := [rkBase / 16] }) fun s => RkIssues s 0 .lw ∧ RkData (rkFetched s 0) 0 4 ∧ ¬RkSound (rkFetched s 0) 0) ∧
    (In (rkAt [] 0x80221000) fun s => RkIssues s 0 .beq ∧ rkD (rkFetched s 0) 0 = rkA (rkFetched s 0) 0 ∧ ¬RkTarget (rkOffset (rkFetched s 0) 0)) ∧
    (In (rkAt [] 0x9C20FFFF) fun s => RkIssues s 0 .jal ∧ ¬RkTarget (rkOffset (rkFetched s 0) 0)) ∧
    (In (rkAt [] 0xA0220002) fun s => RkIssues s 0 .jalr ∧ ¬RkTarget (rkA (rkFetched s 0) 0 + rkSext (rkFetched s 0) 0)) ∧
    (In (patchAt [(2, 316)] 0x60220004) fun s => RkIssues s 0 .dlw ∧ ¬(rkAddr (rkFetched s 0) 0 + 4 ≤ 320 ∧ rkAddr (rkFetched s 0) 0 % 4 = 0)) ∧
    (In (rkAt [] 0x60220004) fun s => RkIssues s 0 .dlw ∧ ((rkFetched s 0).core 0).rk.inShadow = false) ∧
    (In (patchAt [] 0xFC000000) fun s => RkIssues s 0 .wait ∧ ((rkFetched s 0).core 0).rk.inShadow = true) ∧
    (In (rkAt [] 0xFC000001) fun s => RkIssues s 0 .prel ∧ ((rkFetched s 0).core 0).rk.inShadow = false) := by decide +kernel

/-! One step each, with the result that R181 and R182 give. -/

/-- Register g1 after the instruction. -/
def g1After (o : Host.Outcome State Fault Refusal) : Option Word :=
  match o with | .next s => some ((s.dev.core 0).rk.main.get 1) | _ => none
/-- Memory byte after the command. -/
def byteAfter (a : Nat) (o : Host.Outcome State Fault Refusal) : Option Byte := match o with | .next s => some (memGet s.dev.mem a) | _ => none

theorem test_add_wraps : g1After (exec (.add 0) (rkAt [(2, 0xFFFFFFFF), (3, 2)] 0x00221800)) = some 1 := by decide +kernel
theorem test_sra_fills_with_the_sign : g1After (exec (.sra 0) (rkAt [(2, 0x80000000), (3, 31)] 0x00221807)) = some 0xFFFFFFFF := by decide +kernel
theorem test_sltu_is_unsigned : g1After (exec (.sltu 0) (rkAt [(2, 0xFFFFFFFF), (3, 1)] 0x00221809)) = some 0 := by decide +kernel
theorem test_mulhs_is_signed : g1After (exec (.mulhs 0) (rkAt [(2, 0xFFFFFFFF), (3, 1)] 0x0022180B)) = some 0xFFFFFFFF := by decide +kernel
theorem test_mulhu_is_unsigned : g1After (exec (.mulhu 0) (rkAt [(2, 0xFFFFFFFF), (3, 0xFFFFFFFF)] 0x0022180C)) = some 0xFFFFFFFE := by decide +kernel
theorem test_norm_of_zero_shifts_by_31 :
    g1After (exec (.norm 0) (rkAt [(2, 1)] 0x00220110)) = some 0x40000000 ∧ g1After (exec (.norm 0) (rkAt [(2, 0)] 0x00220110)) = some 0 := by decide +kernel
theorem test_expf : g1After (exec (.expf 0) (rkAt [(2, 0x3F800000)] 0x00220011)) = some 0 := by decide +kernel
theorem test_andi_is_zero_extended : g1After (exec (.andi 0) (rkAt [(2, 0xFFFFFFFF)] 0x1022FFFF)) = some 0xFFFF := by decide +kernel
theorem test_addi_is_sign_extended : g1After (exec (.addi 0) (rkAt [(2, 0)] 0x0422FFFF)) = some 0xFFFFFFFF := by decide +kernel
theorem test_rnd_ties_to_even :
    g1After (exec (.rnd 0) (on ((rkAt [] 0xC0200023).dev.updRk 0 fun k => { k with main := { k.main with a0 := 5 } }))) = some 2 := by decide +kernel
theorem test_sb_stores_the_low_byte :
    byteAfter 0x300000000004 (exec (.sb 0) (rkAt [(1, 0x1234), (2, 0)] 0x5C220004)) = some 0x34 := by decide +kernel

/-! ### The slate engine -/

/-- The image of a descriptor with the given words 0 and 11 and first step, the rest 0 (R119). -/
def image (w0 w11 step0 : Nat) : List Byte :=
  leBytes 8 w0 ++ List.replicate 80 0 ++ leBytes 8 w11 ++ leBytes 4 step0 ++ List.replicate 348 0
/-- A descriptor of round 5 with that image. -/
def descOf (stage : Stage) (w0 w11 step0 : Nat) : Desc := { desc 0 stage with image := image w0 w11 step0 }

/-- A SLATE descriptor of two steps, VL 5, whose first step has this opcode, DST 1, A 0, B 2, C 3, mode and type (R104, R120). -/
def slateDesc (op mode type : Nat) : Desc :=
  descOf .running 0x502000002 (4 * 2 ^ 40) (op * 2 ^ 24 + 2 ^ 19 + 2 * 2 ^ 9 + 3 * 2 ^ 4 + mode * 4 + type)
def slateJob : SlateJob := newSlateJob { stream := 0, slot := 0 } 5 false
/-- Core 0's slate engine at step 0 of it, slates 0, 2 and 3 holding 3, 4 and 5 everywhere below 5. -/
def slateState (op mode type : Nat) : State :=
  on { up.updSlate 0 (fun e =>
        { e with
          job := some slateJob
          pos := (List.range 5).map (fun p => (p, 3)) ++ (List.range 5).map (fun p => (512 + p, 4)) ++ (List.range 5).map (fun p => (768 + p, 5)) }) with
    descs := [slateDesc op mode type], rounds := [round] }

/-- Opcode, mode and type of every statement about a step. -/
def slateForms : List (Nat × Nat × Nat) :=
  ([0x01, 0x02, 0x03, 0x04, 0x05, 0x06, 0x07, 0x08, 0x09, 0x0A, 0x0B].flatMap fun op => [(op, 0, 0), (op, 0, 1), (op, 0, 2), (op, 0, 3), (op, 1, 0)]) ++
  [(0x10, 0, 1), (0x11, 0, 1), (0x12, 0, 1), (0x13, 0, 1), (0x14, 0, 1), (0x18, 0, 1), (0x19, 0, 0), (0x20, 0, 0), (0x21, 0, 0), (0x22, 0, 0),
   (0x23, 0, 0), (0x24, 0, 0)] ++ [(0x1A, 0, 2), (0x1B, 0, 2), (0x1C, 0, 3), (0x38, 0, 1), (0x38, 1, 1), (0x38, 2, 1), (0x38, 3, 1)] ++
  [(0x30, 0, 0), (0x30, 0, 1), (0x31, 0, 1), (0x32, 0, 1), (0x3D, 0, 0), (0x3D, 0, 1), (0x3D, 0, 2)]

theorem witness_slate_steps :
    ∀ e ∈ slateForms, SlateAt (slateState e.1 e.2.1 e.2.2) 0 e.1 slateJob (slateDesc e.1 e.2.1 e.2.2) round ∧
      ((slateDesc e.1 e.2.1 e.2.2).stepAt 0).mode = e.2.1 ∧ ((slateDesc e.1 e.2.1 e.2.2).stepAt 0).type = e.2.2 ∧
      (slateDesc e.1 e.2.1 e.2.2).vl = 5 := by decide +kernel

/-- Position 0 of slate 1 after the step. -/
def slateAfter (o : Host.Outcome State Fault Refusal) : Option Word := match o with | .next s => some ((s.dev.core 0).slateAt 1 0) | _ => none

theorem test_integer_fma : slateAfter (exec (.stepFma 0 .clean) (slateState 0x05 0 1)) = some 17 := by decide +kernel
theorem test_integer_sub : slateAfter (exec (.stepSub 0 .clean) (slateState 0x03 0 1)) = some 0xFFFFFFFF := by decide +kernel
theorem test_shl : slateAfter (exec (.stepShl 0 .clean) (slateState 0x10 0 1)) = some 48 := by decide +kernel
theorem test_cvt_if : slateAfter (exec (.stepCvtIf 0 .clean) (slateState 0x19 0 0)) = some 0x40400000 := by decide +kernel
theorem test_rsum : slateAfter (exec (.stepRsum 0 .clean) (slateState 0x30 0 1)) = some 15 := by decide +kernel
/-- An index beyond VL writes zero and counts one LANE_RANGE event for each position (R112). -/
theorem test_perm_beyond_vl :
    slateAfter (exec (.stepPerm 0 .clean) (on ((slateState 0x38 0 1).dev.updSlate 0 fun e => { e with pos := tabSet e.pos 512 5 }))) = some 0 := by decide +kernel

/-! ### The engines -/

/-- The state after commands, one after another, each by its meaning. -/
def after (s : State) (l : List (State → Host.Outcome State Fault Refusal)) : State := l.foldl (fun s f => match f s with | .next t => t | _ => s) s

/-- What a load gave, and the device after it. -/
def Pulled {α : Type} (p : Pull α) : Bool := match p with | .ok _ _ => true | _ => false
def devOf {α : Type} (p : Pull α) : Dev := match p with | .ok _ d | .fail _ d | .wait d => d

/-- A view record: format, base, and the counts and strides of levels 0 to 2 (R123). -/
def viewRec (format base c0 s0 c1 s1 : Nat) : List Byte :=
  leBytes 8 (format * 2 ^ 56 + base) ++ List.replicate 8 0 ++ leBytes 2 c0 ++ leBytes 5 s0 ++ leBytes 2 c1 ++ leBytes 5 s1 ++
  leBytes 2 1 ++ leBytes 5 0 ++ leBytes 2 1 ++ leBytes 5 0 ++ leBytes 2 1 ++ leBytes 5 0 ++ leBytes 2 1 ++ leBytes 5 0 ++ List.replicate 6 0
/-- A descriptor of round 5 with three views: word 0, word 11, two steps. -/
def viewDesc (stage : Stage) (w0 w11 step0 step1 : Nat) (v0 v1 v2 : List Byte) : Desc :=
  { desc 0 stage with
    image := leBytes 8 w0 ++ List.replicate 8 0 ++ leBytes 8 (2 ^ 63 + 0x10000) ++ leBytes 8 (2 ^ 63 + 0x10040) ++ leBytes 8 (2 ^ 63 + 0x10080) ++
      List.replicate 48 0 ++ leBytes 8 w11 ++ leBytes 4 step0 ++ leBytes 4 step1 ++ List.replicate 24 0 ++ v0 ++ v1 ++ v2 ++ List.replicate 128 0 }

/-- A MATMUL of M 2, K 3, N 2 whose weights and activations have this format; its epilogue reads the beam and stores. -/
def matDesc (format : Nat) : Desc :=
  viewDesc .ready 0x502000003 (63 * 2 ^ 40 + 7 * 2 ^ 12) 0x3C000000 0x3D000000 (viewRec format 0x1000 3 1 2 16) (viewRec format 0x2000 3 1 2 16)
    (viewRec 0x01 0x3000 2 4 2 8)
/-- Weights 0x38, 0x40, 0x44 and 0, 0x38, 0; activations 0x38 three times and 0x40, 0, 0x38 (in E4M3: 1, 2, 3; 0, 1, 0; 1, 1, 1; 2, 0, 1). -/
def matMem : List Host.Cell :=
  [(0x1000, 0x38), (0x1001, 0x40), (0x1002, 0x44), (0x1011, 0x38), (0x2000, 0x38), (0x2001, 0x38), (0x2002, 0x38), (0x2010, 0x40), (0x2012, 0x38)]
def key0 : DescKey := { stream := 0, slot := 0 }
/-- A descriptor at the head of core 0's load queue, in round `r`. -/
def queued (x : Desc) (r : Round) : State :=
  on { up.updCore 0 (fun c => { c with loadQ := [key0] }) with descs := [x], rounds := [r], mem := matMem }
/-- The MATMUL `x` in the array of core 0, the array otherwise as `f` makes it. -/
def arrayState (x : Desc) (r : Round) (f : ArrayEngine → ArrayEngine) : State :=
  on { up.updCore 0 (fun c =>
        { c with
          loadQ := [key0]
          array := f { ArrayEngine.reset with job := some (newJob x 2 false (if x.chainEn then 0 else (x.view 0).format)) } }) with
    descs := [{ x with stage := .running }], rounds := [r], mem := matMem }
/-- The whole tile, its first vector at the heads of the queues, and that vector in the array. -/
def tile0 : TileLoad := { key := key0, blk := 0, tile := 0, oext := 2, full := true, codes := [(127, 0x38), (127, 0), (127, 0x40), (127, 0x38), (127, 0x44), (127, 0)] }
def one8 : Val := .fin false 8 (-3)
def heads0 (v : Val) : Table Feeder := [(0, { next := 1, entries := [(0, [v, v])] }), (1, { next := 1, entries := [(0, [v])] })]
def slot0 (v : Val) (m : Nat) : VecSlot := { key := key0, blk := 0, tile := 0, m := m, drop := false, oext := 2, acts := [v, v, v], weights := [v, v, v, v, v, v] }
/-- The job, the descriptor, the round of core 0. -/
def jobOf (s : State) : MatJob := (s.dev.core 0).jobs.headD (newJob (matDesc 5) 0 false 0)
def firstDesc (s : State) : Desc := s.dev.descs.headD (matDesc 5)
def firstRound (s : State) : Round := s.dev.rounds.headD round

/-- Chain 0 and carry group 0 with these members, as a round sees them (R62, R89). -/
def tied (l : List Byte) : Round := { round with settings := [(0x4031 * 256 + 1, l), (0x4041 * 256 + 1, l)] }
/-- The MATMUL in a weight chain, and in a carry group. -/
def chainDesc (format : Nat) : Desc :=
  viewDesc .ready 0x502000003 (2 ^ 30 + 63 * 2 ^ 40 + 7 * 2 ^ 12) 0x3C000000 0x3D000000 (viewRec format 0x1000 3 1 2 16)
    (viewRec format 0x2000 3 1 2 16) (viewRec 0x01 0x3000 2 4 2 8)
def carryDesc (format : Nat) : Desc :=
  viewDesc .ready 0x502000003 (2 ^ 38 + 63 * 2 ^ 40 + 7 * 2 ^ 12) 0x3C000000 0x3D000000 (viewRec format 0x1000 3 1 2 16)
    (viewRec format 0x2000 3 1 2 16) (viewRec 0x01 0x3000 2 4 2 8)
/-- COPY of three E4M3 elements to FP32, and SLATE of the same. -/
def moveDesc (op : Nat) : Desc :=
  viewDesc .ready (0x502000000 + op) (2 * 2 ^ 40) 0x01080000 0x3D008000 (viewRec 0x05 0x1000 3 1 1 0) (viewRec 0x05 0x2000 3 1 1 0)
    (viewRec 0x01 0x3000 3 4 1 0)
/-- Ring 0 of core 0: two buffers of 256 bytes at offset 0x100; view 0 of the descriptor is bound to it (R162, R163). -/
def ringSetting : Table (List Byte) := [(0x4071 * 256 + 1, leBytes 8 (2 * 2 ^ 52 + 0x100) ++ List.replicate 120 0)]
def takeDesc : Desc :=
  viewDesc .ready 0x502000001 0 0 0 (viewRec 0x05 (tileBase + 0x100) 3 1 1 0) (viewRec 0x05 0x2000 3 1 1 0) (viewRec 0x01 0x3000 3 4 1 0)
def handle0 : Handle := { buf := 0, round := 5, committed := false }
def takeState : State :=
  let s := queued takeDesc round
  on { s.dev.updRing 0 0 (fun g => { g with queue := [handle0] }) with objs := ringSetting }
/-- A MATMUL whose reduction extent is 0 (R80). -/
def emptyMat : Desc :=
  viewDesc .ready 0x502000003 (63 * 2 ^ 40 + 7 * 2 ^ 12) 0x3C000000 0x3D000000 (viewRec 0x05 0x1000 0 1 2 16) (viewRec 0x05 0x2000 0 1 2 16)
    (viewRec 0x01 0x3000 2 4 2 8)
/-- The block has overflowed and drained; tile 0 and its first vector are in again. -/
def overflowState (x : Desc) (r : Round) : State :=
  arrayState x r fun a =>
    { a with job := a.job.map fun j => { j with overflow := true, loadTile := 1 }, shadow := some tile0, feeders := heads0 (.int 3) }
/-- Core 0 is the second member of chain 0; a tile waits at the first. -/
def chainTile (format : Nat) : ChainTile :=
  { hdr := { format := format, dclass := 1, kext := 3, oext := 2, rep := false }, chain := 0, round := 5, ordinal := 0, tile := 0,
    codes := [(127, 0x38), (127, 0), (127, 0x40), (127, 0x38), (127, 0x44), (127, 0)] }
def chainState (format : Nat) : State :=
  on ((arrayState (chainDesc 5) (tied [2, 1, 0]) id).dev.updCore 1 fun c => { c with chainOut := some (chainTile format) })
/-- A partial for row 0 of the MATMUL on core 0, from position 1 of its carry group. -/
def partial_ : CarryMsg :=
  { group := 0, round := 5, ordinal := 0, pos := 1, shape := (2, 2, 1), blk := 0, row := 0, isInt := false, tag := 0, mask := 0,
    vals := List.replicate 64 0x3F800000 }
/-- A MATMUL whose one block is final and waits for the carry tree or the slate engine. -/
def finalState (x : Desc) (r : Round) : State :=
  let s := arrayState x r fun a => { a with job := none, waiting := [{ newJob x 2 false (x.view 0).format with finished := 1, blk := 1, loadTile := 1 }] }
  on (s.dev.updCore 0 fun c => { c with loadQ := [], beam := [(0, { BeamRow.reset with vals := 0x40000000 :: List.replicate 63 0, owner := some 5, unread := true, writer := some key0 })] })
def carryState : State := on ((finalState (carryDesc 5) (tied [2, 0, 1])).dev.updCore 0 fun c => { c with carryIn := [partial_] })
/-- The epilogue of the MATMUL at its BEAMREAD, its side vectors loaded. -/
def beamreadJob : SlateJob := { newSlateJob key0 5 true with loaded := true }
def beamreadState (format : Nat) : State :=
  on ((finalState (matDesc format) round).dev.updSlate 0 fun e => { e with job := some beamreadJob })
/-- A SLATE descriptor of VL 3 at its STORE, with an output view. -/
def storeState : State :=
  on { up.updSlate 0 (fun e => { e with job := some slateJob, pos := [(512, 0x3F800000), (513, 0x40000000), (514, 0x40400000)] }) with
    descs := [{ viewDesc .running 0x502000002 (2 * 2 ^ 40) 0x3D008000 0 (viewRec 0x05 0x1000 3 1 1 0) (viewRec 0x05 0x2000 3 1 1 0)
                  (viewRec 0x01 0x3000 3 4 1 0) with stage := .running }],
    rounds := [round] }

/-! ### The Sequencer and rounds -/

/-- Stream 0: a ring of 16 slots at 0x10000, records at 0x20000, one slot at FETCH. -/
def stream0 : Stream := { Stream.reset with ringBase := 0x10000, cplBase := 0x20000, size := 1, enable := true, tail := 1 }
/-- A descriptor image of 128 bytes: word 0, wait 0, the signal (R120). -/
def ringImage (w0 wait0 signal : Nat) : List Byte :=
  leBytes 8 w0 ++ List.replicate 32 0 ++ leBytes 8 wait0 ++ List.replicate 24 0 ++ leBytes 8 signal ++ List.replicate 48 0
/-- Stream 0 with a NOP of round 5 in its first slot and a run of that round, or none. -/
def fetchState (run : Option RoundNo) (base : BitVec 52) : State :=
  on { up with streams := [(0, { stream0 with ringBase := base, run := run })], rounds := [round], mem := memWrite [] 0x10000 (ringImage 0x500000000 0 0) }
/-- A descriptor of stream 0, slot 0, in round 5 at a stage, with `image`. -/
def streamDesc (stage : Stage) (image : List Byte) : Desc :=
  { newDesc key0 5 0 true image with stage := stage }
def streamState (x : Desc) (f : Dev → Dev) : State :=
  on (f { up with streams := [(0, { stream0 with run := some 5, fetch := 1 })], rounds := [round], descs := [x] })
/-- Wait on flag 9 up to 0x80000000, active. -/
def waitWord : Nat := 2 ^ 63 + 9 * 2 ^ 32 + 0x80000000
/-- Signal 3 to flag 7 here, at completion. -/
def signalWord : Nat := 2 ^ 63 + 0xFFF * 2 ^ 44 + 7 * 2 ^ 32 + 3
/-- Round 5 of one stream whose run has ended with an executed ROUND_COMMIT. -/
def commitState (peerGroup : Nat) : State :=
  streamState (streamDesc .executed (ringImage 0x500000200 0 0)) fun d =>
    { d with rounds := [{ round with peerGroup := peerGroup, runs := [{ stream := 0, first := 0, commitSlot := some 0, stuck := false }] }] }
/-- Round 5 in a phase, with a cause. -/
def roundState (peerGroup : Nat) (phase : RoundPhase) (cause : Option Status) : State :=
  streamState (streamDesc .completed (ringImage 0x500000000 0 0)) fun d =>
    { d with rounds := [{ round with peerGroup := peerGroup, phase := phase, cause := cause, runs := [{ stream := 0, first := 0, commitSlot := none, stuck := false }] }] }
def incr7 : Incr := { node := 0xFFF, flag := 7, amount := 3 }
def restore0 : Restore := { round := 5, rslot := 0, increments := [incr7, incr7] }

/-! ### Boards, configuration, power -/

/-- A load in progress from flash, its columns to be cleared or not. -/
def load0 (clearing : Bool) : Load :=
  { src := .flash, feeder := none, kind := 0, keySrc := 0, partition := 0, frames := 1, die := 0, region := 0, colLo := 0, colHi := 0, iv := [], header := [],
    designId := 0, clearing := clearing, taken := 0, failed := 0, hash := 0, written := [] }
def cfgState (f : Cfg → Cfg) : State := on { up with cfg := f up.cfg }
/-- Cluster 0 otherwise than at reset. -/
def clusterState (f : Cluster → Cluster) : State := on (up.updCluster 0 f)

/-! ### Transfers, the fabric, the network, peers -/

def reply0 : TFrame := { cmd := 1, tid := 7, index := 0x2060, sub := 1, flags := 0, seq := 0, data := [] }
def transfer0 : Transfer := { via := .mgmt, tid := 7, index := 0x2060, sub := 1, write := false, len := 4, data := List.replicate 4 0, next := 1 }
/-- A fabric-port command at an address, of `n` bytes. -/
def fab (addr : BitVec 52) (lenm1 : Byte) (beats : List Byte) : FabCmd :=
  { rvalid := false, attempt := 0, round := 0, tag := 1, lenm1 := lenm1, rsvd := 0, addr := addr, beats := beats }
/-- Stream 0 belongs to the fabric. -/
def fabricStreams : Table (List Byte) := [(0x4130 * 256 + 1, 1 :: List.replicate 31 0)]
def injectState (f : Stream → Stream) : State := on { up with streams := [(0, f stream0)], objs := fabricStreams }
/-- Ring 0 of core 0 belongs to the port. -/
def portRing : Table (List Byte) := [(0x4071 * 256 + 1, leBytes 8 (2 ^ 56 + 2 * 2 ^ 52 + 0x100) ++ List.replicate 120 0)]
def ringState (f : Ring → Ring) : State := on { up.updRing 0 0 f with objs := portRing }
/-- A packet from the fabric port of core 0 to memory. -/
def nocPacket (op : BitVec 6) (body : NocBody) : NocPacket :=
  { vc := vcOf op, dest := endOfCore 0, src := endOfCore 8, op := op, tag := 3, status := 0, lenm1 := 3, rslot := 0x7F, addr := 0x1000, body := body }
/-- A packet of node 1 for this node. -/
def saeriPacket (op : BitVec 6) (data : List Byte) : SaeriPkt :=
  { dnode := 0xFFF, addr := 0x1000, snode := 1, tag := 3, lenm1 := 3, status := 0, op := op, data := data }
/-- Port 0 in a step of its bring-up, or up with step 7. -/
def portState (step : Nat) (f : Port → Port) : State := on (up.updPort 0 fun q => f { q with enabled := true, step := step })

/-! ### Operands of the witnesses -/

def core0 : CoreId := 0
def stream : StreamId := 0
def slot : SlotId := 0
def roundNo : RoundNo := 5
def port0 : PortId := 0
def lane0 : LaneId := 0
def cluster0 : ClusterId := 0
def none0 : List FabCmd := []
def okOf {α} (p : Pull α) (a : α) : α := match p with | .ok v _ => v | _ => a

/-! Engines -/

/-- Beads of the tile that core 0 loads next. -/
def beadPull (s : State) : Pull (List (Nat × Nat)) :=
  pullBeads s.fuses (firstDesc s) (s.dev.bindOf (firstDesc s) 0) (jobOf s) (jobOf s).loadBlk (jobOf s).loadTile (jobOf s).loadRow s.dev
def beads (s : State) : List (Nat × Nat) := okOf (beadPull s) []
def beadDev (s : State) : Dev := devOf (beadPull s)
/-- Elements that the feeder of array row 0 takes next. -/
def feederPull (s : State) : Pull (List (Nat × Nat)) :=
  let x := firstDesc s
  let d := s.dev
  let j := jobOf s
  let f := (d.core 0).array.feeder j 0
  let g := j.feedNext 0 f.next
  let v := max 1 j.rows.length
  let t := g / v % max 1 j.tiles
  pullReduce s.fuses x.origin (d.bindOf x 1) (x.view 1) (j.batchOf (g / v / max 1 j.tiles)) (j.rows.getD (g % v) 0) (j.span t 0).1 (j.span t 0).2 d
def elements (s : State) : List (Nat × Nat) := okOf (feederPull s) []
def feederDev (s : State) : Dev := devOf (feederPull s)
def noTile : TileLoad := { key := key0, blk := 9, tile := 9, oext := 0, full := false, codes := [] }
def arrayTile (s : State) : TileLoad := match (s.dev.core 0).array.tileFor (jobOf s) with | some (t, _) => t | none => noTile
def headsOf (s : State) : List Val :=
  let j := jobOf s
  ((s.dev.core 0).array.heads j ((j.blk * j.tiles + j.tile) * j.rows.length + j.vec)).getD []
def firstVec (s : State) : VecSlot := (s.dev.core 0).array.flight.headD { key := key0, blk := 9, tile := 0, m := 0, drop := false, oext := 0, acts := [], weights := [] }
def restVecs (s : State) : List VecSlot := (s.dev.core 0).array.flight.drop 1
def shadowTile (s : State) : TileLoad := ((s.dev.core 0).array.shadow).getD noTile
def firstHeads (s : State) : List Val := ((s.dev.core 0).array.heads (jobOf s) 0).getD []
def offeredTile (s : State) : ChainTile := (s.dev.offered 0 (firstDesc s) (firstRound s)).getD (chainTile 5)
def memberJob (s : State) : MatJob :=
  let j := jobOf s
  let t := offeredTile s
  let j0 := if j.wfmt = 0 then { j with wfmt := t.hdr.format } else j
  (j0.memberSide t.hdr.rep).getD j
def withJob (f : MatJob → MatJob) (a : ArrayEngine) : ArrayEngine := { a with job := a.job.map f }
def firstVecAt : State := arrayState (matDesc 5) round fun a => { a with shadow := some tile0, feeders := heads0 one8 }
def tileOnly : State := arrayState (matDesc 5) round fun a => { a with shadow := some tile0 }
def heldVec : State := on (firstVecAt.dev.updArray 0 fun a => { a with hold := true })
def loading (format : Nat) : State := arrayState (matDesc format) round id
def vecState (format : Nat) (v : Val) : State := arrayState (matDesc format) round fun a => { a with flight := [slot0 v 0] }
def dropState : State := on ((vecState 5 one8).dev.updArray 0 fun a => { a with flight := a.flight.map fun v => { v with drop := true } })
def emptyState : State := arrayState emptyMat round id
def sums2 : List Int := [2147483647, 3]
def sumVals : List Val := [.int 2147483647, .int 3]

def nopState : State := queued (desc 0 .ready) round
def matState : State := queued (matDesc 5) round
def copyState : State := queued (moveDesc 1) round
def slateStart : State := queued (moveDesc 2) round
def begunDev (s : State) : Dev := s.dev.updDesc key0 fun y => { y with begun := true }
def viewPull (s : State) : Pull (List Val) := pullView s.fuses (firstDesc s).origin none ((firstDesc s).view 0) (begunDev s)
def viewVals (s : State) : List Val := okOf (viewPull s) []
def viewDev (s : State) : Dev := devOf (viewPull s)
def inputPull (s : State) : Pull (List (View × List Val)) := pullInputs s.fuses { firstDesc s with begun := true } (begunDev s)
def inputs (s : State) : List (View × List Val) := okOf (inputPull s) []
def inputDev (s : State) : Dev := devOf (inputPull s)
def sidePull (s : State) : Pull (List (Nat × List (Nat × Word))) := pullSides s.fuses { firstDesc s with begun := true } 0 (firstDesc s).vl (inputDev s)
def sides (s : State) : List (Nat × List (Nat × Word)) := okOf (sidePull s) []
def sideDev (s : State) : Dev := devOf (sidePull s)
def noHandles : List Handle := []
def secondStep : SlateJob := { beamreadJob with next := 2 }
def beamreadAgain : State := on ((beamreadState 10).dev.updSlate 0 fun e => { e with job := some secondStep })
def outOfOrder : State := finalState (carryDesc 5) (tied [2, 1, 0])
def noPartials : List CarryMsg := []

/-! The Sequencer -/

def streamOf (f : Stream → Stream) : State := on { up with streams := [(0, f stream0)] }
def working : State := streamOf id
def stopped : State := streamOf fun x => { x with enable := false }
def passed : State := streamOf fun x => { x with enable := false, fetch := 3 }
def threeBlocks : State := streamOf fun x => { x with enable := false, size := 3 }
def ofFabric : State := on { working.dev with objs := fabricStreams }
def flag7 : FlagId := 7
def waiting (v : Nat) (flags : Table Word) : State := streamState (streamDesc .fetched (ringImage 0x500000000 v 0)) fun d => { d with flags := flags }
def slotPull (s : State) : Pull (List Byte) := let x := s.dev.stream 0; fetchBytes s.fuses 0 (x.slotAddr x.fetch.toNat) 128 s.dev
def slotBytes (s : State) : List Byte := okOf (slotPull s) []
def slotDev (s : State) : Dev := devOf (slotPull s)
def issued (w0 : Nat) (f : Dev → Dev) : State := streamState (streamDesc .issued (ringImage w0 0 0)) f
def recordPull (s : State) : Pull (List (List Byte)) := pullAll ((List.range 3).map (pullRecord s.fuses (firstDesc s))) s.dev
def records (s : State) : List (List Byte) := okOf (recordPull s) []
def recordDev (s : State) : Dev := devOf (recordPull s)
def executedState (signal : Nat) : State := streamState (streamDesc .executed (ringImage 0x500000000 0 signal)) id
def otherRound : RoundNo := 6
def restoring : State := on { (roundState 0 .aborted none).dev with restores := [restore0], flags := [(7, 10), (8, 5)] }
def restored : State := roundState 0 .restored none
def aborted : State := roundState 0 .aborted none
def running : State := roundState 0 .running none
def failing (st : Status) : State := roundState 0 .running (some st)
def peerFailing : State := roundState 3 .running (some .linkLost)
def run0 : Run := { stream := 0, first := 0, commitSlot := none, stuck := false }
def stuckRecords (s : State) : List (List Byte) := (s.dev.quiescent (firstRound s)).getD []
def tallyAt (p q : Bool) (s : State) : State :=
  on { s.dev with
    tally := { s.dev.tally with stuck0 := p, stuck1 := q }
    rounds := s.dev.rounds.map fun r => { r with hold := if p then .tally0 else if q then .tally1 else r.hold } }
def tallyStuck0 : State := tallyAt true false aborted
def tallyStuck1 : State := tallyAt false true aborted
def peerRunning : State := roundState 3 .running none
def peerRestored : State := roundState 3 .restored none
def patchDue : State :=
  on { (up.updCore 0 fun c => { c with patchQ := [key0], rk := { c.rk with mode := .running } }) with
    descs := [streamDesc .patching (ringImage 0x500000401 0 0)], rounds := [round] }
def frozenState : State := on { up with descs := [streamDesc .frozen (ringImage 0x500000401 0 0)], rounds := [round] }
def rkWaits (f : Reckoner → Reckoner) : State := on (up.updRk 0 fun k => f { k with mode := .running, waiting := true })
def stopping : State := rkWaits fun k => { k with stopReq := true }
def halting : State := on (up.updCore 0 fun c => { c with halt := 1 })
def noKeys : List DescKey := []

/-! Boards, configuration, power -/

def zeros (n : Nat) : List Byte := List.replicate n 0
def userMode : State := cfgState id
def cfgAt (n : Nat) : State := cfgState fun c => { c with state := n }
def startAt (n : Nat) : State := cfgState fun c => { c with state := 4, phase := n }
def twoPcs : List PcId := [3, 5]
def pc3 : PcId := 3
def flash : LoadSource := .flash
def scrubbed (n : Nat) : State := cfgState fun c => { c with scrubAt := [(0, n)] }
def scrubOff : State := on { up with objs := [(0x4140 * 256 + 1, [0, 0])] }
def frame0 : FAddr := 0
def scrubGood : ScrubObs := scrub none
def scrubWord : ScrubObs := scrub (some 35)
def scrubCrc : ScrubObs := { scrub none with crcBad := true, corrected := 3 }
def word35 : BitVec 6 := 35
def active : State := clusterState id
def asking : State := clusterState fun k => { k with state := 2, wake := true }
def granted : State := clusterState fun k => { k with state := 2, wake := true, granted := true }
def twoAsking : State := on (asking.dev.updCluster 1 fun k => { k with state := 1, wake := true, rank := 0 })
def drawing : State := on { up with power := { up.power with average := 5000000 } }
def rising : State := on { up with power := { up.power with target := 810 } }
def falling : State := on { up with power := { up.power with target := 790, tries := 2 } }
def allowed9 : State := clusterState fun k => { k with allowance := 9 }
def rkRunning : State := on (up.updRk 0 fun k => { k with mode := .running })
def unclocked : State := on { up with pins := { up.pins with clocks := false, pllLocked := false, oscillator := true } }
def atReset : State := on Dev.reset

/-! The dictionary -/

def fusedState (security : BitVec 6) (d : Dev) : State := { pending := [], fuses := { security := security, efuseKey := none }, dev := d }
def key32 : List Byte := List.replicate 32 7
def staged (l : Table (List Byte)) : State := on { up with staging := l }
def mgmt : Transport := .mgmt
def pcie : Transport := .pcie
def translatorEntry : List Byte := leBytes 8 (2 ^ 63 + 2 ^ 62 + 2 ^ 58) ++ leBytes 8 (2 ^ 52)
def badEntry : List Byte := leBytes 8 (2 ^ 63 + 0x500000000000) ++ leBytes 8 0
def translatorStaged : State := staged [(0x6000 * 256, translatorEntry)]
def translatorBad : State := staged [(0x6000 * 256, badEntry)]
def fenceStaged : State := staged [(0x4160 * 256 + 1, [2])]
def fenceBad : State := staged [(0x4160 * 256 + 1, [9])]
def committed (s : State) : Dev := match s.dev.translatorCommit with | .ok t => t | .error _ => s.dev
def refusedWith (s : State) : Nat := match s.dev.translatorCommit with | .ok _ => 0 | .error c => c
def lowestCause (s : State) : Nat := (lowest (s.dev.commitCauses 0x4160 s.dev.staged)).getD 0
def cfgIdle : Dev := { up with cfg := { up.cfg with state := 0 } }
def portStep (k : Nat) : State := on (up.updPort 0 fun q => { q with enabled := true, step := k })
def peerRound : State := on { up with rounds := [{ round with hold := .peer, phase := .restored }] }
def openRound : State := on { up with rounds := [round] }
def four : List Byte := [1, 0, 0, 0]
def tframe (cmd flags : Byte) (data : List Byte) : TFrame := { cmd := cmd, tid := 7, index := 0x2060, sub := 1, flags := flags, seq := 0, data := data }
def transferState : State := on { up with dict := { up.dict with transfers := [transfer0] } }
def fourTransfers : State := on { up with dict := { up.dict with transfers := (List.range 4).map fun i => { transfer0 with tid := BitVec.ofNat 8 (10 + i) } } }
def outState : State := on { up with dict := { up.dict with out := [(.pcie, reply0)] } }
def noFrames : List (Transport × TFrame) := []
def writtenBy (s : State) : Fuses × Dev := match dictWrite s.fuses s.dev .mgmt 0x2060 1 four with | .ok p => p | .error _ => (s.fuses, s.dev)
def fusesBy (s : State) : Fuses := (writtenBy s).1
def devBy (s : State) : Dev := (writtenBy s).2

/-! Transfers, the fabric, the network, memory -/

def memState (f : Dev → Dev) : State := on (f { up with mem := [(0x1000, 1), (0x1003, 4)] })
def plain : State := memState id
def live : Dev := { up with cfg := { up.cfg with state := 5, regions := [(0, (1, 0))] } }
/-- `s` with its static region configured. -/
def lively (s : State) : State := on { s.dev with cfg := live.cfg }
def portMem : State := lively plain
def beats64 : List Byte := List.replicate 64 5
def part0 : Part := { id := 3, off := 0, addr := 0x500000000000, len := 4, data := none }
def handle1 : Handle := { handle0 with committed := true }
def held1 : Held := { handle := handle1, holder := .port false 0 false false }
def injectCmd : FabCmd := fab 0 0 (List.replicate 128 3)
def resumeState (f : Stream → Stream) : State :=
  lively (on ((injectState f).dev.updFab 0 fun p => { p with outstanding := [(3, injectCmd)], injects := [injectCmd] }))
def topology1 : List Byte := [0, 2, 0, 0xFF, 0x0F, 0xFF, 0xFF, 1, 0, 0xFF, 0xFF]
def twoNodes : Table (List Byte) := [(0x4111 * 256 + 1, topology1)]
def peered (gone : List NodeId) : State := on { live with objs := twoNodes, saeri := { up.saeri with departed := gone } }
def deliveredState (p : Part) : State := on (live.updFab 0 fun q => { q with delivered := [(1, p)] })
def netState : State := memState fun d => { d with rounds := [round] }
def bytes4 : List Byte := [7, 0, 9, 1]
def toCore1 (op : BitVec 6) (b : NocBody) : NocPacket := { nocPacket op b with dest := endOfCore 1 }
def flagPacket : NocPacket := { nocPacket 5 (.bytes [7, 0, 0, 0]) with addr := BitVec.ofNat 52 (seqBase + 28) }
def carryPacket : NocPacket := nocPacket 6 (.carry 0 partial_)
/-- One packet of a tile of 64 by 64 codes, in sixteen packets. -/
def smallTile : ChainTile := { chainTile 5 with hdr := { format := 5, dclass := 0, kext := 3, oext := 2, rep := false }, codes := [] }
def tilePacketOf (piece : Nat) : NocPacket :=
  { toCore1 7 (.tile 0 (List.replicate 256 0x38)) with rslot := 0, lenm1 := 255, addr := BitVec.ofNat 52 (tileAddr smallTile piece) }
def noPart : TilePart := { net := true, tile := smallTile, bytes := [], next := 0 }
def partAt (n : Nat) : TilePart := { noPart with bytes := List.replicate (256 * n) 0x38, next := n }
def partState (n : Nat) : State := on (netState.dev.updCore 1 fun c => { c with chainParts := [partAt n] })
def draining : State := on { up with noc := { up.noc with draining := [(0, 0)] } }
def noLinks : State := on { up with noc := { up.noc with health := (List.range 52).map fun i => (i, 0x3F) } }
def untrained : State := memState fun d => { d with hbm := { d.hbm with trained := false } }
def protected4K : State := memState fun d => { d with rounds := [{ round with inputs := [(0x1000, 4096)] }] }
def failing3 : State := memState fun d => { d with hbm := { d.hbm with passFails := [(3, 2)], failed := [9] } }
def sleeping : State := memState fun d => d.updCluster 0 fun k => { k with state := 2 }

/-! Peers -/

def exportEntry : List Byte := leBytes 8 (2 ^ 63 + 2 ^ 62 + 2 ^ 59 + 2 ^ 58) ++ leBytes 8 (2 ^ 52)
def peerState (f : Saeri → Saeri) : State :=
  memState fun d => { d with objs := [(0x4111 * 256 + 1, topology1), (0x6000 * 256, exportEntry)], saeri := f { d.saeri with routeTopo := topology1 } }
def readReq : SaeriReq := { tag := 3, node := 1, len := 4, use := .part { id := 9, off := 0, addr := 0, len := 4, data := none }, port := none }
def addReq : SaeriReq := { tag := 3, node := 1, len := 4, use := .flagAdd none, port := none }
def noticePacket : SaeriPkt := { saeriPacket 9 [] with addr := BitVec.ofNat 52 (2 ^ 32 + 5) }
def awayPacket : SaeriPkt := { saeriPacket 1 [] with dnode := 7 }
def inboxState (k : SaeriPkt) : State := peerState fun q => { q with inbox := [(0, k)] }
def noReqs : List SaeriReq := []
def node1 : NodeId := 1
def noInbox : List (Nat × SaeriPkt) := []
def allLocked : State := on ((List.range 8).foldl (fun d i => d.updLane i fun x => { x with lock := true }) (portState 3 id).dev)
def laneTest : State := on (up.updLane 0 fun x => { x with test := true })
def markedDev (lanes : Nat → Nat) : Dev :=
  (List.range 8).foldl (fun d i => d.updLane i fun x => { x with marks := 2, mark := some (1, 2, lanes i, 3, false, i == 2) }) (portState 4 id).dev
def straight (i : Nat) : Nat := i
def mixed (i : Nat) : Nat := if i = 0 then 1 else i
def period3 (_ : Nat) : Nat := 3
def notReady (_ : Nat) : Bool := false
def second (i : Nat) : Bool := i == 2
/-- A block as it comes off a lane whose last 58 bits were 0. -/
def lineOf (header : BitVec 2) (v : Nat) : LineBlock :=
  let w : BitVec 64 := BitVec.ofNat 64 v
  { before := 0, block := { header := header, payload := w ^^^ (w <<< 39) ^^^ (w <<< 58) } }
/-- A frame of these words, the data bits of each below its check bits. -/
def frameOf (words : List Nat) : RawFrame :=
  let all := (words.zip (List.range 32)).foldl (fun n e => n + e.1 * 2 ^ (144 * e.2)) 0
  { blocks := (List.range 72).map fun j => lineOf 1 (all / 2 ^ (64 * j)), fixes := [], failed := false }
/-- The header word of a frame: ACK 3, credits 1, 2, 3, 4, from node 1. -/
def headerOf1 (type seq departed : Nat) : Nat :=
  type * 2 ^ 124 + seq * 2 ^ 112 + 3 * 2 ^ 100 + 1 * 2 ^ 80 + 1 * 2 ^ 76 + 2 * 2 ^ 72 + 3 * 2 ^ 68 + 4 * 2 ^ 64 + departed * 2 ^ 52
def linkFrame : RawFrame := frameOf [headerOf1 1 5 0]
def sent (q : BitVec 12) (n : Nat) : SentFrame := { seq := q, words := [], packets := [], cont := false, sends := n }
def linkState (l : List SentFrame) : State := portState 7 fun q => { q with rxSeq := 5, crMg := 4, peerNode := 1, replay := l }
def nodesRound (unordered : Bool) : Round :=
  { tied [1, 0] with
    settings := (tied [1, 0]).settings ++ [(0x4112 * 256 + 1, [4, 0, 0xFF, 0x0F, 1, 0, 2, 0, 3, 0]), (0x4040 * 256 + 1, [if unordered then 1 else 0])] }
def nodeRow0 : NodeRow :=
  { group := 0, round := 5, ordinal := 0, blk := 0, row := 0, core := 0, isInt := false, tag := 0, vals := 0x40000000 :: List.replicate 63 0, levels := 0,
    sentUp := false, children := [], asked := [] }
def rowState (unordered : Bool) : State :=
  let s := finalState (carryDesc 5) (nodesRound unordered)
  on { s.dev with saeri := { s.dev.saeri with rows := [nodeRow0] } }
def rowPacket : SaeriPkt := { saeriPacket 6 (List.flatten (List.replicate 64 [0, 0, 0x80, 0x3F])) with addr := 0 }
def prevRound : Round := { tied [2, 0, 1] with settings := (tied [2, 0, 1]).settings ++ [(0x4113 * 256 + 1, [1, 0, 0xFF, 0xFF])] }
def rowsTaken (n : Nat) : State :=
  on ((arrayState (chainDesc 5) prevRound id).dev.updCore 0 fun c => { c with chainParts := [{ net := false, tile := chainTile 5, bytes := [], next := n }] })
def weightPacket : SaeriPkt := { saeriPacket 7 (List.replicate 64 9) with addr := 0 }
def waitingJob (s : State) : MatJob := (s.dev.core 0).array.waiting.headD (newJob (matDesc 5) 0 false 0)

/-- A vector whose first INT32 sum leaves its range, at an attempt. -/
def bigVec : VecSlot :=
  { key := key0, blk := 0, tile := 0, m := 0, drop := false, oext := 2, acts := [.int 2147483647, .int 3, .int 4], weights := [.int 2, .int 0, .int 3, .int 0, .int 1, .int 0] }
def overflowing (attempt : Nat) : State :=
  arrayState (matDesc 10) round fun a =>
    withJob (fun j => { j with attempt := attempt }) { a with flight := [bigVec, slot0 (.int 5) 1], shadow := some tile0 }
/-- The last vector of the block. -/
def lastVec : State := arrayState (matDesc 10) round fun a => { a with flight := [slot0 (.int 5) 1] }
def overflow1 : State := overflowing 1
def overflow4 : State := overflowing 4

def retention : State := on { (startAt 2).dev with objs := [(0x4161 * 256 + 2, [0])] }
def cluster1 : ClusterId := 1
def translatorGood : Nat × List Byte := (0x6000 * 256, translatorEntry)

/-! Their names in the witnesses. -/

def ovState := overflowState (matDesc 10) round
def ovChain := overflowState (chainDesc 10) (tied [2,0,1])
def chain5 := chainState 5
def chain4 := chainState 4
def load5 := loading 5
def vec5 := vecState 5 one8
def beamread5 := beamreadState 5
def fetchRun := fetchState (some 5) 0x10000
def fetchNone := fetchState none 0x10000
def fetchBeyond := fetchState none 0x4800000000
def issuedPlain := issued 0x500000001 id
def issuedPatch := issued 0x500000401 (fun d => d.updRk 0 fun k => {k with mode := .running})
def issuedIdle := issued 0x500000401 id
def issuedHalt := issued 0x500000001 (fun d => d.updCore 0 fun c => {c with halt := 1})
def done0 := executedState 0
def doneSignal := executedState signalWord
def noWait := waiting 0 []
def waitHeld := waiting waitWord []
def failAddress := failing .address
def commit0 := commitState 0
def commit3 := commitState 3
def cfg0 := cfgAt 0
def cfg3 := cfgAt 3
def start1 := startAt 1
def start2 := startAt 2
def start3 := startAt 3
def start4 := startAt 4
def scrubbed5 := scrubbed 5
def zeros64 := zeros 64
def zeros16 := zeros 16
def zeros576 := zeros 576
def fused1 := fusedState 1 up
def idleState := on cfgIdle
def upState := on up
def liveState := on live
def port3State := portStep 3
def port7State := portStep 7
def injectOff := lively (injectState fun x => {x with enable := false})
def injectFull := lively (injectState fun x => {x with release := 2})
def injectOn := lively (injectState id)
def resumeOff := resumeState fun x => {x with enable := false}
def resumeOn := resumeState id
def ringOpen := lively (ringState fun g => {g with queue := [handle0]})
def ringReady := lively (ringState fun g => {g with queue := [handle1]})
def ringHeld := lively (ringState fun g => {g with held := [held1]})
def ringEmpty := lively (ringState id)
def peeredAll := peered []
def peeredLost := peered [1]
def delivered0 := deliveredState part0
def askedRead := peerState (fun q => {q with outstanding := [readReq]})
def askedAdd := peerState (fun q => {q with outstanding := [addReq]})
def switchingState := peerState (fun q => {q with switching := true})
def peer0 := peerState id
def inbox1 := inboxState (saeriPacket 1 [])
def peerRead := saeriPacket 1 []
def peerWrite := saeriPacket 2 [1,0,2,3]
def peerAdd := saeriPacket 5 [7,0,0,0]
def peerData := saeriPacket 3 [1,2,3,4]
def peerAck := saeriPacket 4 []
def peerMgmt := saeriPacket 8 [1,7,0x60,0x20]
def portAt1 := portState 1 id
def portAt2 := portState 2 id
def portAt4 := portState 4 id
def portAt5 := portState 5 id
def portAt6 := portState 6 id
def badBlock := lineOf 0 0
def markBlock := lineOf 2 (0xD2 + 2^28*7)
def fillBlock := lineOf 2 0x96
def markedStraight := markedDev straight
def markedMixed := markedDev mixed
def link3 := linkState [sent 2 1, sent 3 1, sent 4 2]
def link0 := linkState []
def badFrame := { linkFrame with failed := true }
def lateFrame := frameOf [headerOf1 1 9 0]
def idleFrame0 := frameOf [headerOf1 0 0 0]
def leaveFrame0 := frameOf [headerOf1 2 0 0]
def packetFrame := frameOf [headerOf1 1 5 0, (saeriHeader (saeriPacket 1 [])).toNat]
def departFrame := frameOf [headerOf1 3 0 6]
def row0 := rowState false
def nodes0 := nodesRound false
def row63 := rowsTaken 63
def row5 := rowsTaken 5
def nocRd := nocPacket 1 .none
def nocWr := nocPacket 2 (.bytes [7,0,9,1])
def nocData := toCore1 3 (.bytes [7,0,9,1])
def nocAck := toCore1 4 .none
def nocMgmt := nocPacket 8 .none
def nocAway := {nocPacket 8 .none with dest := 100}
def readFrame := tframe 1 0 []
def writeFrame := tframe 2 1 (leBytes 4 4 ++ four)
def frame4 := tframe 4 0 []
def frame5 := tframe 5 0 []
def noObject := {tframe 1 0 [] with index := 0x1FFE}
def length2000 := leBytes 4 2000
def fabCross := fab 0x1FFE 3 []
def fabZero := fab 0 0 []
def addHere := fab 0xFFF007 0 beats64
def addPeer := fab 0x001007 0 beats64
def addUnlisted := fab 0x002007 0 beats64
def noWindow := on {up with objs := [(0x2170*256+2,[0])]}

/-- What a check finds: nothing, two words that it corrects, a word that it cannot correct. -/
def noUpset : Upset := .clean
def twoFixed : Upset := { corrected := 2, failed := false }
def oneFailed : Upset := { corrected := 1, failed := true }
/-- A correctable error lies in the instruction word. -/
def rkLatent : State := on { (rkAt [(2, 7)] 0x00221800).dev with latent := [rkCode / 16] }
/-- The epilogue of a MATMUL whose STORE stands before its BEAMREAD, one row read. -/
def storeFirst : Desc :=
  viewDesc .ready 0x502000003 (63 * 2 ^ 40 + 7 * 2 ^ 12) 0x3D000000 0x3C000000 (viewRec 5 0x1000 3 1 2 16) (viewRec 5 0x2000 3 1 2 16)
    (viewRec 0x01 0x3000 2 4 2 8)
def oneRead : SlateJob := { beamreadJob with next := 1, reads := [(0, 0)] }
def storeMat : State := on ((finalState storeFirst round).dev.updSlate 0 fun e => { e with job := some oneRead, pos := [(0, 0x3F800000)] })
/-- A MATMUL to begin behind the one in the array; one whose N no view gives. -/
def matBehind : State := on (matState.dev.updArray 0 fun a => { a with job := some (newJob (matDesc 5) 2 false 5) })
/-- The last bead row of a tile comes, in an unchained core and in the head of a chain. -/
def lastRow (x : Desc) (r : Round) : State :=
  arrayState x r fun a => withJob (fun j => { j with loadRow := 63, wfmt := 5 }) { a with shadow := some { tile0 with full := false } }
def row63Plain : State := lastRow (matDesc 5) round
def row63Chain : State := lastRow (chainDesc 5) (tied [2, 0, 1])
/-- A job of two reduction tiles at the first tile, and at the second, which reads the row back. -/
def longVec (tile : Nat) : State :=
  on ((arrayState (matDesc 5) round fun a => withJob (fun j => { j with k := 200 }) { a with flight := [{ slot0 one8 0 with tile := tile }] }).dev.updCore 0
    fun c => { c with beam := [(0, { BeamRow.reset with vals := 0x40000000 :: List.replicate 63 0, owner := some 5, unread := true, writer := some key0 })] })
def longVec0 : State := longVec 0
def longVec1 : State := longVec 1
def emptyLast : State := arrayState emptyMat round (withJob fun j => { j with vec := 1 })
def chainMiddle : State := on ((arrayState (chainDesc 5) (tied [3, 1, 0, 2]) id).dev.updCore 1 fun c => { c with chainOut := some (chainTile 5) })
def carryBusy : State := on (carryState.dev.updArray 0 fun a => { a with flight := [slot0 one8 0] })

/-! The Sequencer -/

/-- A ROUND_OPEN outside a run; its round record at 0x30000 names one stream and one input. -/
def fetchOpen : State :=
  on { (fetchState none 0x10000).dev with
    rounds := []
    mem := memWrite (memWrite (memWrite [] 0x10000 (leBytes 8 0x500000100 ++ leBytes 8 0x30000 ++ List.replicate 112 0)) 0x30000
      (leBytes 8 (2 ^ 16 + 1) ++ leBytes 8 0x30100)) 0x30100 (leBytes 8 0x40000 ++ leBytes 8 64) }
def openSlot (s : State) : Desc :=
  newDesc { stream := stream.toNat, slot := (s.dev.stream stream.toNat).fetch.toNat } (BitVec.ofNat 32 (field (slotBytes s) 4 4)) 0
    (s.dev.stream stream.toNat).phase (slotBytes s)
def openRecord (s : State) : Pull (Nat × Except Status (List (Nat × Nat))) := (slotDev s).readRecord s.fuses stream.toNat (slotDev s).objs (openSlot s).rrec
def recordWord (s : State) : Nat := match openRecord s with | .ok (w, _) _ => w | _ => 0
def recordInputs (s : State) : List (Nat × Nat) := match openRecord s with | .ok (_, .ok l) _ => l | _ => []
/-- A restart fetches slot 0 of round 5 again. -/
def again0 : Refetch := { slot := 0, phase := true, round := 5 }
def noRefetch : List Refetch := []
def fetchAgain : State :=
  on { (fetchState (some 5) 0x10000).dev with streams := [(0, { stream0 with run := some 5, fetch := 1, refetch := [again0] })] }
def issuedAsleep : State := issued 0x500000001 fun d => d.updCluster 0 fun k => { k with state := 2 }
def issuedFar : State := on { (issued 0x500000001 id).dev with descs := [streamDesc .issued (leBytes 8 0x500000001 ++ leBytes 8 0 ++ leBytes 8 (2 ^ 63 + 0x4800000000) ++ List.replicate 104 0)] }
def doneFailed : State := on { done0.dev with descs := [{ streamDesc .executed (ringImage 0x500000000 0 0) with status := some .address }] }
/-- A signal to node 7, which no table lists. -/
def doneAway : State := executedState (2 ^ 63 + 7 * 2 ^ 44 + 7 * 2 ^ 32 + 3)
def restoreNone : Restore := { round := 5, rslot := 0, increments := [] }
def addBack : SaeriReq := { tag := 3, node := 1, len := 4, use := .restore 5 0, port := none }
def restoreWaits : State :=
  on { (roundState 0 .aborted none).dev with restores := [restoreNone], saeri := { Saeri.reset with outstanding := [addBack] } }
def stuckQuiet : State :=
  streamState (streamDesc .fetched (ringImage 0x500000000 waitWord 0)) fun d =>
    { d with rounds := [{ round with runs := [run0] }], streams := [(0, { stream0 with run := some 5, fetch := 1, tail := 2 })] }
def frameSent : State := on { peerRunning.dev with tally := { Tally.reset with frames := [(5, true, .peerLost)] } }
def swapStopping : State := rkWaits fun k => { k with swap := some true, stopReq := true }

def openDev (s : State) : Dev := devOf (openRecord s)
def againPull (s : State) : Pull (List Byte) := fetchBytes s.fuses stream.toNat ((s.dev.stream stream.toNat).slotAddr again0.slot) 128 s.dev
def againBytes (s : State) : List Byte := okOf (againPull s) []
def againDev (s : State) : Dev := devOf (againPull s)

/-! Configuration -/

/-- The header of a full or repair load, and of a partial one of partition 3, of one frame. -/
def headerOfKind (kind part col : Nat) : List Byte :=
  leBytes 4 0x44584346 ++ [1, BitVec.ofNat 8 kind, 0, BitVec.ofNat 8 part] ++ leBytes 4 1 ++ [0, BitVec.ofNat 8 part, BitVec.ofNat 8 (min 1 part), BitVec.ofNat 8 col] ++
    List.replicate 48 0
def fullHeader : List Byte := headerOfKind 0 0 0
def repairHeader : List Byte := headerOfKind 2 0 0
def partHeader : List Byte := headerOfKind 1 3 2
def narrowHeader : List Byte := headerOfKind 1 3 1
def keyRepair : List Byte := repairHeader.set 6 1
def started (mode : BitVec 2) (second : Bool) : State :=
  on { up with cfg := { Cfg.reset with started := true, second := second }, pins := { up.pins with straps := { up.pins.straps with cfgMode := mode } } }
def fromFlash : State := started 0 false
def fromFlash2 : State := started 0 true
def icp : LoadSource := .icp
def configStream : LoadSource := .configStream
def partition3 : Partition := { die := 0, region := 3, colLo := 1, colHi := 2, bankMask := 0, portMask := 0, design := 0 }
def partState3 (f : Dev → Dev) : State :=
  on (f { up with cfg := { up.cfg with regions := [(0, 1, 0), (3, 1, 0)], design := { Design.empty with partitions := [(3, partition3)] } } })
def userPart : State := partState3 id
def userPartUsed : State := partState3 fun d => { d with rounds := [{ round with deps := [3] }] }
/-- A record of frame 0 whose CRC holds, one whose reserved bytes are not 0, one of an address that is no frame. -/
def goodRecord : List Byte := zeros 576
def badRecord : List Byte := goodRecord.set 540 1
def noFrame : List Byte := leBytes 16 0x1FFFF ++ zeros 560
def loadOf (kind part taken : Nat) : Load := { load0 false with src := .configStream, kind := kind, partition := part, taken := taken }
def loadFull : Load := loadOf 0 0 0
def loadTaken : Load := loadOf 0 0 1
def loadClears : Load := { loadFull with clearing := true }
def loadPart : Load := loadOf 1 3 1
def feederWho : StreamWriter := (.mgmt, none)
def loadFed : Load := { loadClears with feeder := some feederWho }
def withLoadOf (l : Load) (n : Nat) : State := on { userPart.dev with cfg := { userPart.dev.cfg with load := some l, state := n } }
def fullIn : State := withLoadOf loadFull 1
def fullDone : State := withLoadOf loadTaken 2
def fullClears : State := withLoadOf loadClears 1
def fullFed : State := withLoadOf loadFed 1
def partIn : State := withLoadOf loadPart 5
def badTag : List Byte := 1 :: zeros 15
def frameOther : FAddr := 0x20000
/-- Frame 0x6040 lies in partition 3. -/
def framePart : FAddr := 0x6040
def partInvalid : State := partState3 fun d => { d with cfg := { d.cfg with regions := [(0, 1, 0), (3, 3, 1)], scrubAt := [(0, 0)] } }

/-! The dictionary -/

def info (s : State) : OInfo := (objInfo 0x4160 1).getD { type := .unsigned 1, access := .staged, dflt := [s.dev.cycles] }
def seamless : State := on { up with noc := { up.noc with health := (List.range 52).map fun i => (i, 0x3F) } }
def bankOne : State := on (up.updRk 0 fun k => { k with abank := true })
def testedLane : State := on (up.updLane 0 fun y => { y with test := true })

def ring128 : List Byte := zeros 128
def infoRing (s : State) : OInfo := (objInfo 0x4071 101).getD { type := .unsigned 1, access := .staged, dflt := [s.dev.cycles] }
def noIo : State := on { up with pins := { up.pins with vddIo := false } }
def roundCause : Round := { round with cause := some .address }

/-! Fabric ports -/

def fabRsvd : FabCmd := { fabZero with rsvd := 1 }
def fabRound : FabCmd := { fabZero with rvalid := true, round := 5 }
def endedPort : State := lively (on { up with rounds := [{ round with attempt := 1, endings := [(0, .address)] }] })
def ended0 : Nat × Status := (0, .address)
def word0 : BitVec 128 := 0
def wordFails : BitVec 128 := BitVec.ofNat 128 (2 ^ 110)
def wordOther : BitVec 128 := BitVec.ofNat 128 (2 ^ 124)
def noDelivered : List (BitVec 128 × Part) := []
def resumeGone : State := lively (on ((injectState fun x => { x with enable := false }).dev.updFab 0 fun p => { p with injects := [injectCmd], orphans := [(3, injectCmd)] }))
def fabCross3 : FabCmd := fab 0xFFE 3 beats64

/-! The network -/

def awaiting (q : NocPacket) (f : Dev → Dev) : State := memState fun d => f { d with rounds := [round], noc := { d.noc with outstanding := [q] } }
def reqRead : NocPacket := { nocPacket 1 .none with src := endOfCore 1, dest := endOfCore 8 }
def reqWrite : NocPacket := { nocPacket 2 (.bytes [7, 0, 9, 1]) with src := endOfCore 1, dest := endOfCore 8 }
/-- An endpoint that keeps no record: the controller port of a pseudo-channel. -/
def hbmPort : BitVec 9 := nocEnd 0 9
def reqBare : NocPacket := { nocPacket 1 .none with src := hbmPort, dest := endOfCore 8 }
def ansBare : NocPacket := { nocPacket 3 (.bytes [7, 0, 9, 1]) with dest := hbmPort }
def readAsked : State := awaiting reqRead id
def writeAsked : State := awaiting reqWrite id
def bareAsked : State := awaiting reqBare id
def inRound (q : NocPacket) : NocPacket := { q with rslot := 0 }
def roundAck : NocPacket := inRound nocAck
def failAck : NocPacket := { roundAck with status := 0x16 }
def abortedAsked : State := awaiting (inRound reqWrite) fun d => { d with rounds := [{ round with phase := .aborted }] }
def noErrors : List UpsetAt := []
def struckWord : List UpsetAt := [{ addr := tileBase + 0x1000, failed := true }]
def nocTile : NocPacket := { nocRd with addr := BitVec.ofNat 52 (tileBase + 0x1000) }
def tileWord : Nat := (tileBase + 0x1000) / 16
def abortedNet : State := memState fun d => { d with rounds := [{ round with phase := .aborted }] }
def tile0Packet : NocPacket := tilePacketOf 0
def tile15Packet : NocPacket := tilePacketOf 15
def part15 : TilePart := partAt 15
def parted15 : State := partState 15
def tileBytes256 : List Byte := List.replicate 256 0x38

/-! HBM and caches -/

def struck1000 : List UpsetAt := [{ addr := 0x1000, failed := true }]
def latentPlain : State := on { plain.dev with latent := [0x100] }
def quietHbm : State := on { failing3.dev with objs := [(0x4410 * 256 + 1, leBytes 4 0), (0x4410 * 256 + 2, leBytes 4 0)] }
def filling : State := memState fun d => d.updCluster 0 fun k => { k with cache := [(cacheSet 16, [7])], fills := [16] }
def fillBad : State := on { filling.dev with badWords := [0x101] }

/-! Peers -/

def dataLost : SaeriPkt := { peerData with status := 0x21, tag := 0xFFE }
def followed : State := peerState fun q => { q with inbox := [(0, peerWrite), (0, peerAdd)] }
def away7 : SaeriPkt := { peerAdd with snode := 7 }
def portAt7 : State := portState 7 id
def allCdr : State := on ((List.range 8).foldl (fun d i => d.updLane i fun x => { x with cdr := true }) (portState 2 id).dev)
def step6Dev : Dev := (portState 6 id).dev
def roleDev : Dev := { step6Dev with objs := [(0x1110 * 256 + 1, leBytes 2 5), (0x4111 * 256 + 1, topology1), (0x4111 * 256 + 2, leBytes 2 1 ++ List.replicate 30 0xFF)] }
def otherNode : NodeId := 2
def node5 : NodeId := 5
def oneMark (i : Nat) : Nat := i
def blockFill : LineBlock := fillBlock
def spent4 : SentFrame := sent 2 3
def spentLink : State := linkState [spent4, sent 3 1]
def linkFull : State := portState 7 fun q => { q with rxSeq := 5, crMg := 4, peerNode := 1, inUse := [(2, 16)] }
def linkGone : State := on { link0.dev with saeri := { link0.dev.saeri with departed := [6] } }
def askPacket : SaeriPkt := { rowPacket with addr := BitVec.ofNat 52 (2 ^ 46), data := leBytes 4 5 }

def nodeOf6 : Dev := { step6Dev with objs := [(0x1110 * 256 + 1, leBytes 2 5), (0x4111 * 256 + 1, topology1)] }
def rowFirst : State := arrayState (chainDesc 5) prevRound id
def readyPort : Port := link3.dev.port 0
def readHeader : LinkFrame := readyPort.readFrame linkFrame
def firstPart (s : State) : TilePart := ((s.dev.core 0).chainParts).headD noPart

def stateAfter (i : Instr) (s : State) : State := match exec i s with | .next t => t | _ => s
theorem pulled {α : Type} {p : Pull α} {a : α} (h : Pulled p = true) : p = .ok (okOf p a) (devOf p) := by
  cases p <;> simp_all [Pulled, okOf, devOf]
def FailedWith {α : Type} (p : Pull α) (st : Status) : Bool := match p with | .fail q _ => q == st | _ => false
theorem failed {α : Type} {p : Pull α} {st : Status} (h : FailedWith p st = true) : p = .fail st (devOf p) := by
  cases p <;> simp_all [FailedWith, devOf]
def IsNext (o : Host.Outcome State Fault Refusal) : Bool := match o with | .next _ => true | _ => false
theorem outcome_next (i : Instr) (s : State) (h : IsNext (exec i s) = true) : exec i s = .next (stateAfter i s) := by
  unfold stateAfter
  cases e : exec i s <;> simp_all [IsNext]
theorem mixed_marks : ∀ i < 8, (markedMixed.lane (8 * 0 + i)).mark = some (1, 2, mixed i, period3 i, notReady i, second i) ∧
    2 ≤ (markedMixed.lane (8 * 0 + i)).marks := by
  intro i h
  interval_cases i <;> decide +kernel
theorem allLocked_lanes : ∀ j : Nat, j / 8 = lane0.toNat / 8 → j ≠ lane0.toNat → (allLocked.dev.lane j).lock = true := by
  intro j h _
  have : j < 8 := by simp only [lane0] at h; simp at h; omega
  interval_cases j <;> decide +kernel
theorem allCdr_lanes : ∀ j : Nat, j / 8 = port0.toNat → (allCdr.dev.lane j).cdr = true ∨ (0xFF : Byte).getLsbD (j % 8) = true := by
  intro j h
  have : j < 8 := by simp only [port0] at h; simp at h; omega
  interval_cases j <;> decide +kernel
theorem crc_zeros : ∀ n : Nat, crc64 (List.replicate n 0) = 0 := by
  intro n
  induction n with
  | zero => rfl
  | succ n ih => rw [List.replicate_succ]; exact ih
theorem slice_replicate (n m : Nat) (_ : m ≤ n) : slice (List.replicate n 0) 0 m = List.replicate m 0 := by
  apply List.ext_getElem <;> simp [slice]
theorem record_ok (b : List Byte) (hc : crc64 (slice b 0 528) = 0)
    (h : (field b 0 16 < 2 ^ 18 && field b 536 8 == 0 && (slice b 544 32).all (· == 0) && field b 528 8 == 0) = true) : recordOk b = true := by
  unfold recordOk
  rw [hc]
  exact h
theorem good_record : recordOk (slice goodRecord 0 576) = true := by
  rw [show slice goodRecord 0 576 = goodRecord from slice_replicate 576 576 (by omega)]
  apply record_ok
  · rw [show slice goodRecord 0 528 = List.replicate 528 0 from slice_replicate 576 528 (by omega)]; exact crc_zeros 528
  · decide +kernel
def opens (p : Pull (Nat × Except Status (List (Nat × Nat)))) : Bool := match p with | .ok (_, .ok _) _ => true | _ => false
theorem opened (s : State) (h : opens (openRecord s) = true) : openRecord s = .ok (recordWord s, .ok (recordInputs s)) (openDev s) := by
  have g : ∀ p, opens p = true → p = .ok ((match p with | .ok (w, _) _ => w | _ => 0),
      .ok (match p with | .ok (_, .ok l) _ => l | _ => [])) (devOf p) := by
    intro p h
    cases p with
    | ok v d => rcases v with ⟨w, e | l⟩ <;> simp_all [opens, devOf]
    | fail st d => simp [opens] at h
    | wait d => simp [opens] at h
  exact g _ h
abbrev fitsAt (s : State) (col : Nat) : Prop :=
  let j := jobOf s
  let v := firstVec s
  let p := rodInt v.oext col v.acts v.weights
  let old := if decide (v.tile = 0) && !j.accumulate then 0 else (((s.dev.core 0).beamRow (j.rowOf v.blk v.m)).vals.getD col 0).toInt
  p.2 = false ∧ -2 ^ 31 ≤ old + p.1 ∧ old + p.1 < 2 ^ 31

/-- States and operands that meet the hypotheses of each clause of `Obligations.EmptyQueueStepIsOneCycle`. -/
theorem witness_EmptyQueueStepIsOneCycle :
    atReset.pending = [] ∧ atReset.dev.pins.clocks = false := by decide +kernel

/-- States and operands that meet the hypotheses of each clause of `Obligations.ReckonerResultFrame`. -/
theorem witness_ReckonerResultFrame :
    (1 < 32 ∧ 1 ≠ rkFirst up core0) ∧
    (1 ≠ core0.toNat) ∧
    (0 < 16) ∧
    (1 ≤ 1 ∧ 1 < 16) ∧
    (0 < 16) ∧
    (BitVec.toNat (rkLatent.dev.core core0.toNat).rk.bank.pc ≤ 16380 ∧ okey 0 0 ≠ okey 12417 4) := by
  refine ⟨?_, ?_, ?_, ?_, ?_, ?_⟩ <;> decide +kernel

/-- States and operands that meet the hypotheses of each clause of `Obligations.ReckonerAccumulators`. -/
theorem witness_ReckonerAccumulators :
    (RkIssues (rkAt [] 0xC0021C00) core0 RkOp.mac) ∧
    (RkIssues (rkAt [] 0xC0021C01) core0 RkOp.msu) ∧
    (RkIssues (rkAt [] 0xC0020502) core0 RkOp.mta) ∧
    (RkIssues (rkAt [] 0xC02007E3) core0 RkOp.rnd) ∧
    (RkIssues (rkAt [] 0xC0200404) core0 RkOp.ahi) ∧
    (RkIssues (rkAt [] 0xC0200405) core0 RkOp.alo) := by
  refine ⟨?_, ?_, ?_, ?_, ?_, ?_⟩ <;> decide +kernel

/-- States and operands that meet the hypotheses of each clause of `Obligations.SlateArithmeticSteps`. -/
theorem witness_SlateArithmeticSteps :
    (SlateAt (slateState 1 0 0) core0 1 slateJob (firstDesc (slateState 1 0 0)) round ∧ ((firstDesc (slateState 1 0 0)).stepAt slateJob.pc).type = 0 ∧
      noUpset.failed = false) ∧
    (SlateAt (slateState 1 0 0) core0 1 slateJob (firstDesc (slateState 1 0 0)) round ∧ ((firstDesc (slateState 1 0 0)).stepAt slateJob.pc).type = 0 ∧
      oneFailed.failed = true) ∧
    (SlateAt (slateState 1 0 1) core0 1 slateJob (firstDesc (slateState 1 0 1)) round ∧ ((firstDesc (slateState 1 0 1)).stepAt slateJob.pc).type = 1 ∧
      noUpset.failed = false) ∧
    (SlateAt (slateState 1 0 1) core0 1 slateJob (firstDesc (slateState 1 0 1)) round ∧ ((firstDesc (slateState 1 0 1)).stepAt slateJob.pc).type = 1 ∧
      oneFailed.failed = true) ∧
    (SlateAt (slateState 1 0 3) core0 1 slateJob (firstDesc (slateState 1 0 3)) round ∧ 2 ≤ ((firstDesc (slateState 1 0 3)).stepAt slateJob.pc).type ∧
      noUpset.failed = false) ∧
    (SlateAt (slateState 1 0 3) core0 1 slateJob (firstDesc (slateState 1 0 3)) round ∧ 2 ≤ ((firstDesc (slateState 1 0 3)).stepAt slateJob.pc).type ∧
      oneFailed.failed = true) ∧
    (SlateAt (slateState 2 0 0) core0 2 slateJob (firstDesc (slateState 2 0 0)) round ∧ ((firstDesc (slateState 2 0 0)).stepAt slateJob.pc).type = 0 ∧
      noUpset.failed = false) ∧
    (SlateAt (slateState 2 0 0) core0 2 slateJob (firstDesc (slateState 2 0 0)) round ∧ ((firstDesc (slateState 2 0 0)).stepAt slateJob.pc).type = 0 ∧
      oneFailed.failed = true) ∧
    (SlateAt (slateState 2 1 1) core0 2 slateJob (firstDesc (slateState 2 1 1)) round ∧ ((firstDesc (slateState 2 1 1)).stepAt slateJob.pc).type = 1 ∧
      noUpset.failed = false) ∧
    (SlateAt (slateState 2 1 1) core0 2 slateJob (firstDesc (slateState 2 1 1)) round ∧ ((firstDesc (slateState 2 1 1)).stepAt slateJob.pc).type = 1 ∧
      oneFailed.failed = true) ∧
    (SlateAt (slateState 2 0 2) core0 2 slateJob (firstDesc (slateState 2 0 2)) round ∧ 2 ≤ ((firstDesc (slateState 2 0 2)).stepAt slateJob.pc).type ∧
      noUpset.failed = false) ∧
    (SlateAt (slateState 2 0 2) core0 2 slateJob (firstDesc (slateState 2 0 2)) round ∧ 2 ≤ ((firstDesc (slateState 2 0 2)).stepAt slateJob.pc).type ∧
      oneFailed.failed = true) ∧
    (SlateAt (slateState 3 0 0) core0 3 slateJob (firstDesc (slateState 3 0 0)) round ∧ ((firstDesc (slateState 3 0 0)).stepAt slateJob.pc).type = 0 ∧
      twoFixed.failed = false) ∧
    (SlateAt (slateState 3 0 0) core0 3 slateJob (firstDesc (slateState 3 0 0)) round ∧ ((firstDesc (slateState 3 0 0)).stepAt slateJob.pc).type = 0 ∧
      oneFailed.failed = true) ∧
    (SlateAt (slateState 3 0 1) core0 3 slateJob (firstDesc (slateState 3 0 1)) round ∧ ((firstDesc (slateState 3 0 1)).stepAt slateJob.pc).type = 1 ∧
      noUpset.failed = false) ∧
    (SlateAt (slateState 3 0 1) core0 3 slateJob (firstDesc (slateState 3 0 1)) round ∧ ((firstDesc (slateState 3 0 1)).stepAt slateJob.pc).type = 1 ∧
      oneFailed.failed = true) ∧
    (SlateAt (slateState 3 0 3) core0 3 slateJob (firstDesc (slateState 3 0 3)) round ∧ 2 ≤ ((firstDesc (slateState 3 0 3)).stepAt slateJob.pc).type ∧
      twoFixed.failed = false) ∧
    (SlateAt (slateState 3 0 3) core0 3 slateJob (firstDesc (slateState 3 0 3)) round ∧ 2 ≤ ((firstDesc (slateState 3 0 3)).stepAt slateJob.pc).type ∧
      oneFailed.failed = true) ∧
    (SlateAt (slateState 4 2 0) core0 4 slateJob (firstDesc (slateState 4 2 0)) round ∧ ((firstDesc (slateState 4 2 0)).stepAt slateJob.pc).type = 0 ∧
      noUpset.failed = false) ∧
    (SlateAt (slateState 4 2 0) core0 4 slateJob (firstDesc (slateState 4 2 0)) round ∧ ((firstDesc (slateState 4 2 0)).stepAt slateJob.pc).type = 0 ∧
      oneFailed.failed = true) ∧
    (SlateAt (slateState 4 3 1) core0 4 slateJob (firstDesc (slateState 4 3 1)) round ∧ ((firstDesc (slateState 4 3 1)).stepAt slateJob.pc).type = 1 ∧
      noUpset.failed = false) ∧
    (SlateAt (slateState 4 3 1) core0 4 slateJob (firstDesc (slateState 4 3 1)) round ∧ ((firstDesc (slateState 4 3 1)).stepAt slateJob.pc).type = 1 ∧
      oneFailed.failed = true) ∧
    (SlateAt (slateState 4 0 2) core0 4 slateJob (firstDesc (slateState 4 0 2)) round ∧ 2 ≤ ((firstDesc (slateState 4 0 2)).stepAt slateJob.pc).type ∧
      noUpset.failed = false) ∧
    (SlateAt (slateState 4 0 2) core0 4 slateJob (firstDesc (slateState 4 0 2)) round ∧ 2 ≤ ((firstDesc (slateState 4 0 2)).stepAt slateJob.pc).type ∧
      oneFailed.failed = true) ∧
    (SlateAt (slateState 5 0 0) core0 5 slateJob (firstDesc (slateState 5 0 0)) round ∧ ((firstDesc (slateState 5 0 0)).stepAt slateJob.pc).type = 0 ∧
      twoFixed.failed = false) ∧
    (SlateAt (slateState 5 0 0) core0 5 slateJob (firstDesc (slateState 5 0 0)) round ∧ ((firstDesc (slateState 5 0 0)).stepAt slateJob.pc).type = 0 ∧
      oneFailed.failed = true) ∧
    (SlateAt (slateState 5 0 1) core0 5 slateJob (firstDesc (slateState 5 0 1)) round ∧ ((firstDesc (slateState 5 0 1)).stepAt slateJob.pc).type = 1 ∧
      twoFixed.failed = false) ∧
    (SlateAt (slateState 5 0 1) core0 5 slateJob (firstDesc (slateState 5 0 1)) round ∧ ((firstDesc (slateState 5 0 1)).stepAt slateJob.pc).type = 1 ∧
      oneFailed.failed = true) ∧
    (SlateAt (slateState 5 0 3) core0 5 slateJob (firstDesc (slateState 5 0 3)) round ∧ 2 ≤ ((firstDesc (slateState 5 0 3)).stepAt slateJob.pc).type ∧
      twoFixed.failed = false) ∧
    (SlateAt (slateState 5 0 3) core0 5 slateJob (firstDesc (slateState 5 0 3)) round ∧ 2 ≤ ((firstDesc (slateState 5 0 3)).stepAt slateJob.pc).type ∧
      oneFailed.failed = true) ∧
    (SlateAt (slateState 6 0 0) core0 6 slateJob (firstDesc (slateState 6 0 0)) round ∧ ((firstDesc (slateState 6 0 0)).stepAt slateJob.pc).type = 0 ∧
      twoFixed.failed = false) ∧
    (SlateAt (slateState 6 0 0) core0 6 slateJob (firstDesc (slateState 6 0 0)) round ∧ ((firstDesc (slateState 6 0 0)).stepAt slateJob.pc).type = 0 ∧
      oneFailed.failed = true) ∧
    (SlateAt (slateState 6 0 1) core0 6 slateJob (firstDesc (slateState 6 0 1)) round ∧ ((firstDesc (slateState 6 0 1)).stepAt slateJob.pc).type = 1 ∧
      twoFixed.failed = false) ∧
    (SlateAt (slateState 6 0 1) core0 6 slateJob (firstDesc (slateState 6 0 1)) round ∧ ((firstDesc (slateState 6 0 1)).stepAt slateJob.pc).type = 1 ∧
      oneFailed.failed = true) ∧
    (SlateAt (slateState 6 0 2) core0 6 slateJob (firstDesc (slateState 6 0 2)) round ∧ 2 ≤ ((firstDesc (slateState 6 0 2)).stepAt slateJob.pc).type ∧
      twoFixed.failed = false) ∧
    (SlateAt (slateState 6 0 2) core0 6 slateJob (firstDesc (slateState 6 0 2)) round ∧ 2 ≤ ((firstDesc (slateState 6 0 2)).stepAt slateJob.pc).type ∧
      oneFailed.failed = true) ∧
    (SlateAt (slateState 7 0 0) core0 7 slateJob (firstDesc (slateState 7 0 0)) round ∧ ((firstDesc (slateState 7 0 0)).stepAt slateJob.pc).type = 0 ∧
      twoFixed.failed = false) ∧
    (SlateAt (slateState 7 0 0) core0 7 slateJob (firstDesc (slateState 7 0 0)) round ∧ ((firstDesc (slateState 7 0 0)).stepAt slateJob.pc).type = 0 ∧
      oneFailed.failed = true) ∧
    (SlateAt (slateState 7 0 1) core0 7 slateJob (firstDesc (slateState 7 0 1)) round ∧ ((firstDesc (slateState 7 0 1)).stepAt slateJob.pc).type = 1 ∧
      twoFixed.failed = false) ∧
    (SlateAt (slateState 7 0 1) core0 7 slateJob (firstDesc (slateState 7 0 1)) round ∧ ((firstDesc (slateState 7 0 1)).stepAt slateJob.pc).type = 1 ∧
      oneFailed.failed = true) ∧
    (SlateAt (slateState 7 0 2) core0 7 slateJob (firstDesc (slateState 7 0 2)) round ∧ 2 ≤ ((firstDesc (slateState 7 0 2)).stepAt slateJob.pc).type ∧
      twoFixed.failed = false) ∧
    (SlateAt (slateState 7 0 2) core0 7 slateJob (firstDesc (slateState 7 0 2)) round ∧ 2 ≤ ((firstDesc (slateState 7 0 2)).stepAt slateJob.pc).type ∧
      oneFailed.failed = true) ∧
    (SlateAt (slateState 8 0 0) core0 8 slateJob (firstDesc (slateState 8 0 0)) round ∧ ((firstDesc (slateState 8 0 0)).stepAt slateJob.pc).type = 0 ∧
      twoFixed.failed = false) ∧
    (SlateAt (slateState 8 0 0) core0 8 slateJob (firstDesc (slateState 8 0 0)) round ∧ ((firstDesc (slateState 8 0 0)).stepAt slateJob.pc).type = 0 ∧
      oneFailed.failed = true) ∧
    (SlateAt (slateState 8 0 1) core0 8 slateJob (firstDesc (slateState 8 0 1)) round ∧ ((firstDesc (slateState 8 0 1)).stepAt slateJob.pc).type = 1 ∧
      twoFixed.failed = false) ∧
    (SlateAt (slateState 8 0 1) core0 8 slateJob (firstDesc (slateState 8 0 1)) round ∧ ((firstDesc (slateState 8 0 1)).stepAt slateJob.pc).type = 1 ∧
      oneFailed.failed = true) ∧
    (SlateAt (slateState 8 1 2) core0 8 slateJob (firstDesc (slateState 8 1 2)) round ∧ 2 ≤ ((firstDesc (slateState 8 1 2)).stepAt slateJob.pc).type ∧
      twoFixed.failed = false) ∧
    (SlateAt (slateState 8 1 2) core0 8 slateJob (firstDesc (slateState 8 1 2)) round ∧ 2 ≤ ((firstDesc (slateState 8 1 2)).stepAt slateJob.pc).type ∧
      oneFailed.failed = true) ∧
    (SlateAt (slateState 9 0 0) core0 9 slateJob (firstDesc (slateState 9 0 0)) round ∧ ((firstDesc (slateState 9 0 0)).stepAt slateJob.pc).type = 0 ∧
      twoFixed.failed = false) ∧
    (SlateAt (slateState 9 0 0) core0 9 slateJob (firstDesc (slateState 9 0 0)) round ∧ ((firstDesc (slateState 9 0 0)).stepAt slateJob.pc).type = 0 ∧
      oneFailed.failed = true) ∧
    (SlateAt (slateState 9 0 1) core0 9 slateJob (firstDesc (slateState 9 0 1)) round ∧ ((firstDesc (slateState 9 0 1)).stepAt slateJob.pc).type = 1 ∧
      twoFixed.failed = false) ∧
    (SlateAt (slateState 9 0 1) core0 9 slateJob (firstDesc (slateState 9 0 1)) round ∧ ((firstDesc (slateState 9 0 1)).stepAt slateJob.pc).type = 1 ∧
      oneFailed.failed = true) ∧
    (SlateAt (slateState 9 0 2) core0 9 slateJob (firstDesc (slateState 9 0 2)) round ∧ 2 ≤ ((firstDesc (slateState 9 0 2)).stepAt slateJob.pc).type ∧
      twoFixed.failed = false) ∧
    (SlateAt (slateState 9 0 2) core0 9 slateJob (firstDesc (slateState 9 0 2)) round ∧ 2 ≤ ((firstDesc (slateState 9 0 2)).stepAt slateJob.pc).type ∧
      oneFailed.failed = true) ∧
    (SlateAt (slateState 10 0 0) core0 10 slateJob (firstDesc (slateState 10 0 0)) round ∧
      ((firstDesc (slateState 10 0 0)).stepAt slateJob.pc).type = 0 ∧ twoFixed.failed = false) ∧
    (SlateAt (slateState 10 0 0) core0 10 slateJob (firstDesc (slateState 10 0 0)) round ∧
      ((firstDesc (slateState 10 0 0)).stepAt slateJob.pc).type = 0 ∧ oneFailed.failed = true) ∧
    (SlateAt (slateState 10 1 1) core0 10 slateJob (firstDesc (slateState 10 1 1)) round ∧
      ((firstDesc (slateState 10 1 1)).stepAt slateJob.pc).type = 1 ∧ twoFixed.failed = false) ∧
    (SlateAt (slateState 10 1 1) core0 10 slateJob (firstDesc (slateState 10 1 1)) round ∧
      ((firstDesc (slateState 10 1 1)).stepAt slateJob.pc).type = 1 ∧ oneFailed.failed = true) ∧
    (SlateAt (slateState 10 0 2) core0 10 slateJob (firstDesc (slateState 10 0 2)) round ∧
      2 ≤ ((firstDesc (slateState 10 0 2)).stepAt slateJob.pc).type ∧ twoFixed.failed = false) ∧
    (SlateAt (slateState 10 0 2) core0 10 slateJob (firstDesc (slateState 10 0 2)) round ∧
      2 ≤ ((firstDesc (slateState 10 0 2)).stepAt slateJob.pc).type ∧ oneFailed.failed = true) ∧
    (SlateAt (slateState 11 0 0) core0 11 slateJob (firstDesc (slateState 11 0 0)) round ∧
      ((firstDesc (slateState 11 0 0)).stepAt slateJob.pc).type = 0 ∧ twoFixed.failed = false) ∧
    (SlateAt (slateState 11 0 0) core0 11 slateJob (firstDesc (slateState 11 0 0)) round ∧
      ((firstDesc (slateState 11 0 0)).stepAt slateJob.pc).type = 0 ∧ oneFailed.failed = true) ∧
    (SlateAt (slateState 11 0 1) core0 11 slateJob (firstDesc (slateState 11 0 1)) round ∧
      ((firstDesc (slateState 11 0 1)).stepAt slateJob.pc).type = 1 ∧ twoFixed.failed = false) ∧
    (SlateAt (slateState 11 0 1) core0 11 slateJob (firstDesc (slateState 11 0 1)) round ∧
      ((firstDesc (slateState 11 0 1)).stepAt slateJob.pc).type = 1 ∧ oneFailed.failed = true) ∧
    (SlateAt (slateState 11 0 2) core0 11 slateJob (firstDesc (slateState 11 0 2)) round ∧
      2 ≤ ((firstDesc (slateState 11 0 2)).stepAt slateJob.pc).type ∧ twoFixed.failed = false) ∧
    (SlateAt (slateState 11 0 2) core0 11 slateJob (firstDesc (slateState 11 0 2)) round ∧
      2 ≤ ((firstDesc (slateState 11 0 2)).stepAt slateJob.pc).type ∧ oneFailed.failed = true) := by
  refine ⟨?_, ?_, ?_, ?_, ?_, ?_, ?_, ?_, ?_, ?_, ?_, ?_, ?_, ?_, ?_, ?_, ?_, ?_, ?_, ?_, ?_, ?_, ?_, ?_, ?_, ?_, ?_, ?_, ?_, ?_, ?_, ?_, ?_, ?_, ?_, ?_, ?_, ?_, ?_, ?_, ?_, ?_, ?_, ?_, ?_, ?_, ?_, ?_, ?_, ?_, ?_, ?_, ?_, ?_, ?_, ?_, ?_, ?_, ?_, ?_, ?_, ?_, ?_, ?_, ?_, ?_⟩ <;> decide +kernel

/-- States and operands that meet the hypotheses of each clause of `Obligations.SlateTypedSteps`. -/
theorem witness_SlateTypedSteps :
    (SlateAt (slateState 16 0 1) core0 16 slateJob (firstDesc (slateState 16 0 1)) round ∧
      ((firstDesc (slateState 16 0 1)).stepAt slateJob.pc).type = 1 ∧ twoFixed.failed = false) ∧
    (SlateAt (slateState 16 0 1) core0 16 slateJob (firstDesc (slateState 16 0 1)) round ∧
      ((firstDesc (slateState 16 0 1)).stepAt slateJob.pc).type = 1 ∧ oneFailed.failed = true) ∧
    (SlateAt (slateState 17 0 1) core0 17 slateJob (firstDesc (slateState 17 0 1)) round ∧
      ((firstDesc (slateState 17 0 1)).stepAt slateJob.pc).type = 1 ∧ twoFixed.failed = false) ∧
    (SlateAt (slateState 17 0 1) core0 17 slateJob (firstDesc (slateState 17 0 1)) round ∧
      ((firstDesc (slateState 17 0 1)).stepAt slateJob.pc).type = 1 ∧ oneFailed.failed = true) ∧
    (SlateAt (slateState 18 0 1) core0 18 slateJob (firstDesc (slateState 18 0 1)) round ∧
      ((firstDesc (slateState 18 0 1)).stepAt slateJob.pc).type = 1 ∧ twoFixed.failed = false) ∧
    (SlateAt (slateState 18 0 1) core0 18 slateJob (firstDesc (slateState 18 0 1)) round ∧
      ((firstDesc (slateState 18 0 1)).stepAt slateJob.pc).type = 1 ∧ oneFailed.failed = true) ∧
    (SlateAt (slateState 19 0 1) core0 19 slateJob (firstDesc (slateState 19 0 1)) round ∧
      ((firstDesc (slateState 19 0 1)).stepAt slateJob.pc).type = 1 ∧ twoFixed.failed = false) ∧
    (SlateAt (slateState 19 0 1) core0 19 slateJob (firstDesc (slateState 19 0 1)) round ∧
      ((firstDesc (slateState 19 0 1)).stepAt slateJob.pc).type = 1 ∧ oneFailed.failed = true) ∧
    (SlateAt (slateState 20 0 1) core0 20 slateJob (firstDesc (slateState 20 0 1)) round ∧
      ((firstDesc (slateState 20 0 1)).stepAt slateJob.pc).type = 1 ∧ twoFixed.failed = false) ∧
    (SlateAt (slateState 20 0 1) core0 20 slateJob (firstDesc (slateState 20 0 1)) round ∧
      ((firstDesc (slateState 20 0 1)).stepAt slateJob.pc).type = 1 ∧ oneFailed.failed = true) ∧
    (SlateAt (slateState 24 0 1) core0 24 slateJob (firstDesc (slateState 24 0 1)) round ∧
      ((firstDesc (slateState 24 0 1)).stepAt slateJob.pc).type = 1 ∧ twoFixed.failed = false) ∧
    (SlateAt (slateState 24 0 1) core0 24 slateJob (firstDesc (slateState 24 0 1)) round ∧
      ((firstDesc (slateState 24 0 1)).stepAt slateJob.pc).type = 1 ∧ oneFailed.failed = true) ∧
    (SlateAt (slateState 25 0 0) core0 25 slateJob (firstDesc (slateState 25 0 0)) round ∧
      ((firstDesc (slateState 25 0 0)).stepAt slateJob.pc).type = 0 ∧ twoFixed.failed = false) ∧
    (SlateAt (slateState 25 0 0) core0 25 slateJob (firstDesc (slateState 25 0 0)) round ∧
      ((firstDesc (slateState 25 0 0)).stepAt slateJob.pc).type = 0 ∧ oneFailed.failed = true) ∧
    (SlateAt (slateState 32 0 0) core0 32 slateJob (firstDesc (slateState 32 0 0)) round ∧
      ((firstDesc (slateState 32 0 0)).stepAt slateJob.pc).type = 0 ∧ twoFixed.failed = false) ∧
    (SlateAt (slateState 32 0 0) core0 32 slateJob (firstDesc (slateState 32 0 0)) round ∧
      ((firstDesc (slateState 32 0 0)).stepAt slateJob.pc).type = 0 ∧ oneFailed.failed = true) ∧
    (SlateAt (slateState 33 0 0) core0 33 slateJob (firstDesc (slateState 33 0 0)) round ∧
      ((firstDesc (slateState 33 0 0)).stepAt slateJob.pc).type = 0 ∧ twoFixed.failed = false) ∧
    (SlateAt (slateState 33 0 0) core0 33 slateJob (firstDesc (slateState 33 0 0)) round ∧
      ((firstDesc (slateState 33 0 0)).stepAt slateJob.pc).type = 0 ∧ oneFailed.failed = true) ∧
    (SlateAt (slateState 34 0 0) core0 34 slateJob (firstDesc (slateState 34 0 0)) round ∧
      ((firstDesc (slateState 34 0 0)).stepAt slateJob.pc).type = 0 ∧ twoFixed.failed = false) ∧
    (SlateAt (slateState 34 0 0) core0 34 slateJob (firstDesc (slateState 34 0 0)) round ∧
      ((firstDesc (slateState 34 0 0)).stepAt slateJob.pc).type = 0 ∧ oneFailed.failed = true) ∧
    (SlateAt (slateState 35 0 0) core0 35 slateJob (firstDesc (slateState 35 0 0)) round ∧
      ((firstDesc (slateState 35 0 0)).stepAt slateJob.pc).type = 0 ∧ twoFixed.failed = false) ∧
    (SlateAt (slateState 35 0 0) core0 35 slateJob (firstDesc (slateState 35 0 0)) round ∧
      ((firstDesc (slateState 35 0 0)).stepAt slateJob.pc).type = 0 ∧ oneFailed.failed = true) ∧
    (SlateAt (slateState 36 0 0) core0 36 slateJob (firstDesc (slateState 36 0 0)) round ∧
      ((firstDesc (slateState 36 0 0)).stepAt slateJob.pc).type = 0 ∧ twoFixed.failed = false) ∧
    (SlateAt (slateState 36 0 0) core0 36 slateJob (firstDesc (slateState 36 0 0)) round ∧
      ((firstDesc (slateState 36 0 0)).stepAt slateJob.pc).type = 0 ∧ oneFailed.failed = true) := by
  refine ⟨?_, ?_, ?_, ?_, ?_, ?_, ?_, ?_, ?_, ?_, ?_, ?_, ?_, ?_, ?_, ?_, ?_, ?_, ?_, ?_, ?_, ?_, ?_, ?_⟩ <;> decide +kernel

/-- States and operands that meet the hypotheses of each clause of `Obligations.SlateRearrangingSteps`. -/
theorem witness_SlateRearrangingSteps :
    (SlateAt (slateState 26 0 2) core0 26 slateJob (firstDesc (slateState 26 0 2)) round ∧ twoFixed.failed = false) ∧
    (SlateAt (slateState 26 0 2) core0 26 slateJob (firstDesc (slateState 26 0 2)) round ∧ oneFailed.failed = true) ∧
    (SlateAt (slateState 27 0 2) core0 27 slateJob (firstDesc (slateState 27 0 2)) round ∧ twoFixed.failed = false) ∧
    (SlateAt (slateState 27 0 2) core0 27 slateJob (firstDesc (slateState 27 0 2)) round ∧ oneFailed.failed = true) ∧
    (SlateAt (slateState 28 0 3) core0 28 slateJob (firstDesc (slateState 28 0 3)) round ∧ twoFixed.failed = false) ∧
    (SlateAt (slateState 28 0 3) core0 28 slateJob (firstDesc (slateState 28 0 3)) round ∧ oneFailed.failed = true) ∧
    (SlateAt (slateState 56 0 1) core0 56 slateJob (firstDesc (slateState 56 0 1)) round ∧
      ((firstDesc (slateState 56 0 1)).stepAt slateJob.pc).type = 1 ∧ twoFixed.failed = false) ∧
    (SlateAt (slateState 56 0 1) core0 56 slateJob (firstDesc (slateState 56 0 1)) round ∧
      ((firstDesc (slateState 56 0 1)).stepAt slateJob.pc).type = 1 ∧ oneFailed.failed = true) := by
  refine ⟨?_, ?_, ?_, ?_, ?_, ?_, ?_, ?_⟩ <;> decide +kernel

/-- States and operands that meet the hypotheses of each clause of `Obligations.SlateReductionSteps`. -/
theorem witness_SlateReductionSteps :
    (((firstDesc (slateState 48 0 1)).stepAt slateJob.pc).mode = 0 ∧
      SlateAt (slateState 48 0 1) core0 48 slateJob (firstDesc (slateState 48 0 1)) round ∧
      ((firstDesc (slateState 48 0 1)).stepAt slateJob.pc).type = 1 ∧ twoFixed.failed = false) ∧
    (((firstDesc (slateState 48 0 1)).stepAt slateJob.pc).mode = 0 ∧
      SlateAt (slateState 48 0 1) core0 48 slateJob (firstDesc (slateState 48 0 1)) round ∧
      ((firstDesc (slateState 48 0 1)).stepAt slateJob.pc).type = 1 ∧ oneFailed.failed = true) ∧
    (((firstDesc (slateState 49 0 1)).stepAt slateJob.pc).mode = 0 ∧
      SlateAt (slateState 49 0 1) core0 49 slateJob (firstDesc (slateState 49 0 1)) round ∧
      ((firstDesc (slateState 49 0 1)).stepAt slateJob.pc).type = 1 ∧
      3 ∈ List.map (fun p => BitVec.toInt ((fun p => ((slateState 49 0 1).dev.core core0.toNat).slateAt ((firstDesc (slateState 49 0 1)).stepAt slateJob.pc).a p) p)) (List.range (firstDesc (slateState 49 0 1)).vl) ∧
      (∀ v ∈ List.map (fun p => BitVec.toInt ((fun p => ((slateState 49 0 1).dev.core core0.toNat).slateAt ((firstDesc (slateState 49 0 1)).stepAt slateJob.pc).a p) p)) (List.range (firstDesc (slateState 49 0 1)).vl), v ≤ 3) ∧
      twoFixed.failed = false) ∧
    (((firstDesc (slateState 49 0 1)).stepAt slateJob.pc).mode = 0 ∧
      SlateAt (slateState 49 0 1) core0 49 slateJob (firstDesc (slateState 49 0 1)) round ∧
      ((firstDesc (slateState 49 0 1)).stepAt slateJob.pc).type = 1 ∧
      3 ∈ List.map (fun p => BitVec.toInt ((fun p => ((slateState 49 0 1).dev.core core0.toNat).slateAt ((firstDesc (slateState 49 0 1)).stepAt slateJob.pc).a p) p)) (List.range (firstDesc (slateState 49 0 1)).vl) ∧
      (∀ v ∈ List.map (fun p => BitVec.toInt ((fun p => ((slateState 49 0 1).dev.core core0.toNat).slateAt ((firstDesc (slateState 49 0 1)).stepAt slateJob.pc).a p) p)) (List.range (firstDesc (slateState 49 0 1)).vl), v ≤ 3) ∧
      oneFailed.failed = true) ∧
    (((firstDesc (slateState 50 0 1)).stepAt slateJob.pc).mode = 0 ∧
      SlateAt (slateState 50 0 1) core0 50 slateJob (firstDesc (slateState 50 0 1)) round ∧
      ((firstDesc (slateState 50 0 1)).stepAt slateJob.pc).type = 1 ∧
      3 ∈ List.map (fun p => BitVec.toInt ((fun p => ((slateState 50 0 1).dev.core core0.toNat).slateAt ((firstDesc (slateState 50 0 1)).stepAt slateJob.pc).a p) p)) (List.range (firstDesc (slateState 50 0 1)).vl) ∧
      (∀ v ∈ List.map (fun p => BitVec.toInt ((fun p => ((slateState 50 0 1).dev.core core0.toNat).slateAt ((firstDesc (slateState 50 0 1)).stepAt slateJob.pc).a p) p)) (List.range (firstDesc (slateState 50 0 1)).vl), 3 ≤ v) ∧
      twoFixed.failed = false) ∧
    (((firstDesc (slateState 50 0 1)).stepAt slateJob.pc).mode = 0 ∧
      SlateAt (slateState 50 0 1) core0 50 slateJob (firstDesc (slateState 50 0 1)) round ∧
      ((firstDesc (slateState 50 0 1)).stepAt slateJob.pc).type = 1 ∧
      3 ∈ List.map (fun p => BitVec.toInt ((fun p => ((slateState 50 0 1).dev.core core0.toNat).slateAt ((firstDesc (slateState 50 0 1)).stepAt slateJob.pc).a p) p)) (List.range (firstDesc (slateState 50 0 1)).vl) ∧
      (∀ v ∈ List.map (fun p => BitVec.toInt ((fun p => ((slateState 50 0 1).dev.core core0.toNat).slateAt ((firstDesc (slateState 50 0 1)).stepAt slateJob.pc).a p) p)) (List.range (firstDesc (slateState 50 0 1)).vl), 3 ≤ v) ∧
      oneFailed.failed = true) ∧
    (((firstDesc (slateState 48 0 0)).stepAt slateJob.pc).mode = 0 ∧
      SlateAt (slateState 48 0 0) core0 48 slateJob (firstDesc (slateState 48 0 0)) round ∧
      ((firstDesc (slateState 48 0 0)).stepAt slateJob.pc).type = 0 ∧ (firstDesc (slateState 48 0 0)).vl = 5 ∧ twoFixed.failed = false) ∧
    (((firstDesc (slateState 48 0 0)).stepAt slateJob.pc).mode = 0 ∧
      SlateAt (slateState 48 0 0) core0 48 slateJob (firstDesc (slateState 48 0 0)) round ∧
      ((firstDesc (slateState 48 0 0)).stepAt slateJob.pc).type = 0 ∧ (firstDesc (slateState 48 0 0)).vl = 5 ∧ oneFailed.failed = true) := by
  refine ⟨?_, ?_, ?_, ?_, ?_, ?_, ?_, ?_⟩ <;> decide +kernel

/-- States and operands that meet the hypotheses of each clause of `Obligations.SlateFrame`. -/
theorem witness_SlateFrame :
    ((∀ e ∈ [(0, 7), (255, 9)], e.1 < 256) ∧ 0 < 256 ∧ (List.map Prod.fst [(0, 7), (255, 9)]).Nodup ∧ 1 ≠ core0.toNat) ∧
    (twoFixed.corrected ≠ 0) ∧
    ((∀ e ∈ up.cores, (up.core e.1).jobs = [] ∧ (up.core e.1).chainOut = none)) := by
  refine ⟨?_, ?_, ?_⟩ <;> decide +kernel

/-- States and operands that meet the hypotheses of each clause of `Obligations.SlateBeamreadAndStore`. -/
theorem witness_SlateBeamreadAndStore :
    (SlateAt beamreadAgain core0 60 secondStep (firstDesc beamreadAgain) round ∧
      (beamreadAgain.dev.core core0.toNat).job? secondStep.key = some (jobOf beamreadAgain) ∧ (jobOf beamreadAgain).rows[secondStep.next]? = none) ∧
    (SlateAt beamread5 core0 60 beamreadJob (firstDesc beamread5) round ∧
      (beamread5.dev.core core0.toNat).job? beamreadJob.key = some (jobOf beamread5) ∧ (jobOf beamread5).rows[beamreadJob.next]? = some 0 ∧
      (jobOf beamread5).rowReady round (firstDesc beamread5) beamreadJob.blk 0 = true) ∧
    (SlateAt storeMat core0 61 oneRead (firstDesc storeMat) round ∧ oneFailed.failed = true) ∧
    (SlateAt storeMat core0 61 oneRead (firstDesc storeMat) round ∧ noUpset.failed = false ∧ oneRead.isMat = true ∧
      ((slateChecked storeMat.dev noUpset).core core0.toNat).job? oneRead.key = some (jobOf storeMat) ∧
      (List.foldl (fun d e => Dev.store storeMat.fuses d (firstDesc storeMat) (storeRun ((firstDesc storeMat).view 2) (round.settingNat 16416 1) ((fun e => ((firstDesc storeMat).view 2).batchAt ((jobOf storeMat).rows.getD e.2 0) 0 (oneRead.blk / max 1 (jobOf storeMat).cols)) e) (64 * (oneRead.blk % max 1 (jobOf storeMat).cols)) ((fun d e => List.flatMap (fun p => (fun d p => have u := (d.core core0.toNat).slateAt ((firstDesc storeMat).stepAt oneRead.pc).a p; if ((firstDesc storeMat).stepAt oneRead.pc).type = 0 then [ofFp32 u] else if ((firstDesc storeMat).stepAt oneRead.pc).type = 1 then [Val.int (BitVec.toInt u)] else have fmt := if ((firstDesc storeMat).stepAt oneRead.pc).type = 2 then bf16 else fp16; [decodeFloat fmt (u.toNat % 2 ^ 16), decodeFloat fmt (u.toNat / 2 ^ 16)]) d (64 * e.1 + p)) (List.range ((jobOf storeMat).width oneRead.blk))) d e))) (slateChecked storeMat.dev noUpset) oneRead.reads).descOk oneRead.key = true) := by
  refine ⟨?_, ?_, ?_, ?_⟩ <;> decide +kernel

/-- States and operands that meet the hypotheses of each clause of `Obligations.EngineStarts`. -/
theorem witness_EngineStarts :
    (nopState.dev.pins.clocks = true ∧ nopState.dev.desc? (descKey stream slot) = some (firstDesc nopState) ∧
      nopState.dev.roundActive (firstDesc nopState).round = true ∧ (firstDesc nopState).op = 0 ∧ (firstDesc nopState).stage = Stage.ready ∧
      nopState.dev.descOk (descKey stream slot) = true) ∧
    (MayBegin matState stream slot 3 (firstDesc matState) round ∧ (matState.dev.core (firstDesc matState).core).array.next = none ∧
      matState.dev.ringAt ((firstDesc matState).view 2).base = none ∧ matState.dev.descOk (descKey stream slot) = true ∧
      (matState.dev.nOf (firstDesc matState) round = some 2 ∧ false = false ∨ matState.dev.nOf (firstDesc matState) round = none ∧ 2 = 64 ∧ false = true) ∧
      (matState.dev.core (firstDesc matState).core).array.job = none) ∧
    (MayBegin matBehind stream slot 3 (firstDesc matBehind) round ∧ (matBehind.dev.core (firstDesc matBehind).core).array.next = none ∧
      matBehind.dev.ringAt ((firstDesc matBehind).view 2).base = none ∧ matBehind.dev.descOk (descKey stream slot) = true ∧
      (matBehind.dev.nOf (firstDesc matBehind) round = some 2 ∧ false = false ∨ matBehind.dev.nOf (firstDesc matBehind) round = none ∧ 2 = 64 ∧ false = true) ∧
      (matBehind.dev.core (firstDesc matBehind).core).array.job ≠ none) ∧
    (takeState.dev.pins.clocks = true ∧ takeState.dev.desc? (descKey stream slot) = some (firstDesc takeState) ∧
      ((firstDesc takeState).stage = Stage.ready ∨ (firstDesc takeState).stage = Stage.running) ∧
      (takeState.dev.core (firstDesc takeState).core).loadQ.head? = some (descKey stream slot) ∧
      ((takeState.dev.core (firstDesc takeState).core).halt = 0 ∨ (firstDesc takeState).begun = true) ∧
      takeState.dev.mayWork (firstDesc takeState) = true ∧ (firstDesc takeState).isEmpty = false ∧
      (takeState.dev.untaken (firstDesc takeState)).head? = some 0 ∧ takeState.dev.ringAt ((firstDesc takeState).view 0).base = some (0, 0) ∧
      (takeState.dev.ring 0 0).queue = handle0 :: noHandles ∧ (handle0.round = (firstDesc takeState).round ∨ handle0.committed = true)) ∧
    ((∀ e < 3, (begunDev copyState).ringAt ({ (firstDesc copyState) with begun := true }.view e).base = none) ∧
      (begunDev copyState).descOk (descKey stream slot) = true ∧ MayBegin copyState stream slot 1 (firstDesc copyState) round ∧
      pullView copyState.fuses { (firstDesc copyState) with begun := true }.origin none ({ (firstDesc copyState) with begun := true }.view 0) (begunDev copyState) = Pull.ok (viewVals copyState) (viewDev copyState) ∧
      (∀ e < 3, (viewDev copyState).ringAt ({ (firstDesc copyState) with begun := true }.view e).base = none) ∧
      anyOverlap (List.filterMap ((viewDev copyState).placeOf none) ({ (firstDesc copyState) with begun := true }.view 0).stretches) (List.filterMap (fun w => (viewDev copyState).placeOf none (w.1, w.2.length)) (List.flatMap Stored.writes (storeWalk ({ (firstDesc copyState) with begun := true }.view 2) (round.settingNat 16416 1) (({ (firstDesc copyState) with begun := true }.view 2).runs + 1) 0 (viewVals copyState)))) = false) ∧
    ((∀ e < 3, (begunDev slateStart).ringAt ({ (firstDesc slateStart) with begun := true }.view e).base = none) ∧
      (begunDev slateStart).descOk (descKey stream slot) = true ∧ MayBegin slateStart stream slot 2 (firstDesc slateStart) round ∧
      ((begunDev slateStart).core { (firstDesc slateStart) with begun := true }.core).slate.job = none ∧
      (begunDev slateStart).epilogues { (firstDesc slateStart) with begun := true }.core = [] ∧
      pullInputs slateStart.fuses { (firstDesc slateStart) with begun := true } (begunDev slateStart) = Pull.ok (inputs slateStart) (inputDev slateStart) ∧
      pullSides slateStart.fuses { (firstDesc slateStart) with begun := true } 0 { (firstDesc slateStart) with begun := true }.vl (inputDev slateStart) = Pull.ok (sides slateStart) (sideDev slateStart)) := by
  refine ⟨?_, ?_, ?_, ?_, ?_, ?_⟩ <;> first | decide +kernel | (and_intros <;> first | decide +kernel | exact pulled (by decide +kernel))

/-- States and operands that meet the hypotheses of each clause of `Obligations.ArrayLoadsAndReleases`. -/
theorem witness_ArrayLoadsAndReleases :
    (LoadAt load5 core0 (jobOf load5) (firstDesc load5) (firstRound load5) ∧ (load5.dev.core core0.toNat).loadQ.head? = some (jobOf load5).key ∧
      (firstRound load5).ownWeights (firstDesc load5) = true ∧ (load5.dev.untaken (firstDesc load5)).contains 0 = false ∧
      (jobOf load5).loadSide (load5.dev.blockSettled (firstDesc load5) (firstRound load5) (jobOf load5)) = some (jobOf load5) ∧
      (load5.dev.core core0.toNat).array.shadow = none ∧ (beadDev load5).descOk (jobOf load5).key = true ∧
      pullBeads load5.fuses (firstDesc load5) (load5.dev.bindOf (firstDesc load5) 0) (jobOf load5) (jobOf load5).loadBlk (jobOf load5).loadTile (jobOf load5).loadRow load5.dev = Pull.ok (beads load5) (beadDev load5) ∧
      (jobOf load5).loadRow ≠ 63 ∧ oneFailed.failed = true) ∧
    (LoadAt load5 core0 (jobOf load5) (firstDesc load5) (firstRound load5) ∧ (load5.dev.core core0.toNat).loadQ.head? = some (jobOf load5).key ∧
      (firstRound load5).ownWeights (firstDesc load5) = true ∧ (load5.dev.untaken (firstDesc load5)).contains 0 = false ∧
      (jobOf load5).loadSide (load5.dev.blockSettled (firstDesc load5) (firstRound load5) (jobOf load5)) = some (jobOf load5) ∧
      (load5.dev.core core0.toNat).array.shadow = none ∧ (beadDev load5).descOk (jobOf load5).key = true ∧
      pullBeads load5.fuses (firstDesc load5) (load5.dev.bindOf (firstDesc load5) 0) (jobOf load5) (jobOf load5).loadBlk (jobOf load5).loadTile (jobOf load5).loadRow load5.dev = Pull.ok (beads load5) (beadDev load5) ∧
      (jobOf load5).loadRow ≠ 63 ∧ noUpset.failed = false) ∧
    (LoadAt row63Plain core0 (jobOf row63Plain) (firstDesc row63Plain) (firstRound row63Plain) ∧
      (row63Plain.dev.core core0.toNat).loadQ.head? = some (jobOf row63Plain).key ∧ (firstRound row63Plain).ownWeights (firstDesc row63Plain) = true ∧
      (row63Plain.dev.untaken (firstDesc row63Plain)).contains 0 = false ∧
      (jobOf row63Plain).loadSide (row63Plain.dev.blockSettled (firstDesc row63Plain) (firstRound row63Plain) (jobOf row63Plain)) = some (jobOf row63Plain) ∧
      (∀ (t : TileLoad), (row63Plain.dev.core core0.toNat).array.shadow = some t → t.full = false) ∧
      (beadDev row63Plain).descOk (jobOf row63Plain).key = true ∧
      pullBeads row63Plain.fuses (firstDesc row63Plain) (row63Plain.dev.bindOf (firstDesc row63Plain) 0) (jobOf row63Plain) (jobOf row63Plain).loadBlk (jobOf row63Plain).loadTile (jobOf row63Plain).loadRow row63Plain.dev = Pull.ok (beads row63Plain) (beadDev row63Plain) ∧
      (jobOf row63Plain).loadRow = 63 ∧ noUpset.failed = false ∧ (firstRound row63Plain).passesOn (firstDesc row63Plain) = false) ∧
    (LoadAt row63Chain core0 (jobOf row63Chain) (firstDesc row63Chain) (firstRound row63Chain) ∧
      (row63Chain.dev.core core0.toNat).loadQ.head? = some (jobOf row63Chain).key ∧ (firstRound row63Chain).ownWeights (firstDesc row63Chain) = true ∧
      (row63Chain.dev.untaken (firstDesc row63Chain)).contains 0 = false ∧
      (jobOf row63Chain).loadSide (row63Chain.dev.blockSettled (firstDesc row63Chain) (firstRound row63Chain) (jobOf row63Chain)) = some (jobOf row63Chain) ∧
      (∀ (t : TileLoad), (row63Chain.dev.core core0.toNat).array.shadow = some t → t.full = false) ∧
      (beadDev row63Chain).descOk (jobOf row63Chain).key = true ∧
      pullBeads row63Chain.fuses (firstDesc row63Chain) (row63Chain.dev.bindOf (firstDesc row63Chain) 0) (jobOf row63Chain) (jobOf row63Chain).loadBlk (jobOf row63Chain).loadTile (jobOf row63Chain).loadRow row63Chain.dev = Pull.ok (beads row63Chain) (beadDev row63Chain) ∧
      (jobOf row63Chain).loadRow = 63 ∧ noUpset.failed = false ∧ (firstRound row63Chain).passesOn (firstDesc row63Chain) = true ∧
      (row63Chain.dev.core core0.toNat).chainOut = none) ∧
    (LoadAt load5 core0 (jobOf load5) (firstDesc load5) (firstRound load5) ∧ (load5.dev.core core0.toNat).loadQ.head? = some (jobOf load5).key ∧
      (load5.dev.untaken (firstDesc load5)).contains 1 = false ∧ (jobOf load5).wfmt ≠ 0 ∧ (load5.dev.core core0.toNat).array.queued (0) < 16 ∧
      (jobOf load5).feedNext (0) ((load5.dev.core core0.toNat).array.feeder (jobOf load5) (0)).next < (jobOf load5).feedLimit ∧
      pullReduce load5.fuses (firstDesc load5).origin (load5.dev.bindOf (firstDesc load5) 1) ((firstDesc load5).view 1) ((jobOf load5).batchOf ((jobOf load5).feedNext (0) ((load5.dev.core core0.toNat).array.feeder (jobOf load5) (0)).next / max 1 (jobOf load5).rows.length / max 1 (jobOf load5).tiles)) ((jobOf load5).rows.getD ((jobOf load5).feedNext (0) ((load5.dev.core core0.toNat).array.feeder (jobOf load5) (0)).next % max 1 (jobOf load5).rows.length) 0) ((jobOf load5).span ((jobOf load5).feedNext (0) ((load5.dev.core core0.toNat).array.feeder (jobOf load5) (0)).next / max 1 (jobOf load5).rows.length % max 1 (jobOf load5).tiles) (0)).1 ((jobOf load5).span ((jobOf load5).feedNext (0) ((load5.dev.core core0.toNat).array.feeder (jobOf load5) (0)).next / max 1 (jobOf load5).rows.length % max 1 (jobOf load5).tiles) (0)).2 load5.dev = Pull.ok (elements load5) (feederDev load5)) ∧
    (ReleaseAt heldVec core0 (jobOf heldVec) (firstDesc heldVec) (firstRound heldVec) ∧ (heldVec.dev.core core0.toNat).array.hold = true) ∧
    (ReleaseAt tileOnly core0 (jobOf tileOnly) (firstDesc tileOnly) (firstRound tileOnly) ∧ (tileOnly.dev.core core0.toNat).array.hold = false ∧
      (jobOf tileOnly).mayRelease = true ∧ (tileOnly.dev.core core0.toNat).array.tileFor (jobOf tileOnly) = some (arrayTile tileOnly, true) ∧
      (tileOnly.dev.core core0.toNat).array.heads (jobOf tileOnly) (((jobOf tileOnly).blk * (jobOf tileOnly).tiles + (jobOf tileOnly).tile) * (jobOf tileOnly).rows.length + (jobOf tileOnly).vec) = none) ∧
    (ReleaseAt firstVecAt core0 (jobOf firstVecAt) (firstDesc firstVecAt) (firstRound firstVecAt) ∧
      (firstVecAt.dev.core core0.toNat).array.hold = false ∧ (jobOf firstVecAt).mayRelease = true ∧
      (firstVecAt.dev.core core0.toNat).array.tileFor (jobOf firstVecAt) = some (arrayTile firstVecAt, true) ∧
      (firstVecAt.dev.core core0.toNat).array.heads (jobOf firstVecAt) (((jobOf firstVecAt).blk * (jobOf firstVecAt).tiles + (jobOf firstVecAt).tile) * (jobOf firstVecAt).rows.length + (jobOf firstVecAt).vec) = some (headsOf firstVecAt) ∧
      oneFailed.failed = true) ∧
    (ReleaseAt firstVecAt core0 (jobOf firstVecAt) (firstDesc firstVecAt) (firstRound firstVecAt) ∧
      (firstVecAt.dev.core core0.toNat).array.hold = false ∧ (jobOf firstVecAt).mayRelease = true ∧
      (firstVecAt.dev.core core0.toNat).array.tileFor (jobOf firstVecAt) = some (arrayTile firstVecAt, true) ∧
      (firstVecAt.dev.core core0.toNat).array.heads (jobOf firstVecAt) (((jobOf firstVecAt).blk * (jobOf firstVecAt).tiles + (jobOf firstVecAt).tile) * (jobOf firstVecAt).rows.length + (jobOf firstVecAt).vec) = some (headsOf firstVecAt) ∧
      noUpset.failed = false) := by
  refine ⟨?_, ?_, ?_, ?_, ?_, ?_, ?_, ?_, ?_⟩ <;> first | decide +kernel | (and_intros <;> first | decide +kernel | exact pulled (by decide +kernel))

/-- States and operands that meet the hypotheses of each clause of `Obligations.BeamWrites`. -/
theorem witness_BeamWrites :
    (ArrayAt dropState core0 (jobOf dropState) (firstDesc dropState) (firstRound dropState) ∧
      (dropState.dev.core core0.toNat).array.flight = firstVec dropState :: restVecs dropState ∧ (firstVec dropState).key = (jobOf dropState).key ∧
      (firstVec dropState).drop = true) ∧
    (ArrayAt longVec1 core0 (jobOf longVec1) (firstDesc longVec1) (firstRound longVec1) ∧
      (longVec1.dev.core core0.toNat).array.flight = firstVec longVec1 :: restVecs longVec1 ∧ (firstVec longVec1).key = (jobOf longVec1).key ∧
      (firstVec longVec1).drop = false ∧
      (jobOf longVec1).rowFault ((longVec1.dev.core core0.toNat).beamRow ((jobOf longVec1).rowOf (firstVec longVec1).blk (firstVec longVec1).m)) (decide ((firstVec longVec1).tile = 0)) = none ∧
      (jobOf longVec1).rowHeld ((longVec1.dev.core core0.toNat).beamRow ((jobOf longVec1).rowOf (firstVec longVec1).blk (firstVec longVec1).m)) (firstVec longVec1).blk = false ∧
      (decide ((firstVec longVec1).tile = 0) && !(jobOf longVec1).accumulate) = false ∧ oneFailed.failed = true) ∧
    (ArrayAt longVec0 core0 (jobOf longVec0) (firstDesc longVec0) (firstRound longVec0) ∧
      (longVec0.dev.core core0.toNat).array.flight = firstVec longVec0 :: restVecs longVec0 ∧ (firstVec longVec0).key = (jobOf longVec0).key ∧
      (firstVec longVec0).drop = false ∧
      (jobOf longVec0).rowFault ((longVec0.dev.core core0.toNat).beamRow ((jobOf longVec0).rowOf (firstVec longVec0).blk (firstVec longVec0).m)) (decide ((firstVec longVec0).tile = 0)) = none ∧
      (jobOf longVec0).rowHeld ((longVec0.dev.core core0.toNat).beamRow ((jobOf longVec0).rowOf (firstVec longVec0).blk (firstVec longVec0).m)) (firstVec longVec0).blk = false ∧
      ((decide ((firstVec longVec0).tile = 0) && !(jobOf longVec0).accumulate) = true ∨ noUpset.failed = false) ∧
      ((jobOf longVec0).isInt = true → ∀ col < (firstVec longVec0).oext, col < 64 → fitsAt longVec0 col) ∧
      (firstVec longVec0).tile + 1 ≠ (jobOf longVec0).tiles) ∧
    (ArrayAt vec5 core0 (jobOf vec5) (firstDesc vec5) (firstRound vec5) ∧ (vec5.dev.core core0.toNat).array.flight = firstVec vec5 :: restVecs vec5 ∧
      (firstVec vec5).key = (jobOf vec5).key ∧ (firstVec vec5).drop = false ∧
      (jobOf vec5).rowFault ((vec5.dev.core core0.toNat).beamRow ((jobOf vec5).rowOf (firstVec vec5).blk (firstVec vec5).m)) (decide ((firstVec vec5).tile = 0)) = none ∧
      (jobOf vec5).rowHeld ((vec5.dev.core core0.toNat).beamRow ((jobOf vec5).rowOf (firstVec vec5).blk (firstVec vec5).m)) (firstVec vec5).blk = false ∧
      ((decide ((firstVec vec5).tile = 0) && !(jobOf vec5).accumulate) = true ∨ noUpset.failed = false) ∧
      ((jobOf vec5).isInt = true → ∀ col < (firstVec vec5).oext, col < 64 → fitsAt vec5 col) ∧ (firstVec vec5).tile + 1 = (jobOf vec5).tiles ∧
      some (firstVec vec5).m ≠ (jobOf vec5).rows.getLast?) ∧
    (ArrayAt lastVec core0 (jobOf lastVec) (firstDesc lastVec) (firstRound lastVec) ∧
      (lastVec.dev.core core0.toNat).array.flight = firstVec lastVec :: restVecs lastVec ∧ (firstVec lastVec).key = (jobOf lastVec).key ∧
      (firstVec lastVec).drop = false ∧
      (jobOf lastVec).rowFault ((lastVec.dev.core core0.toNat).beamRow ((jobOf lastVec).rowOf (firstVec lastVec).blk (firstVec lastVec).m)) (decide ((firstVec lastVec).tile = 0)) = none ∧
      (jobOf lastVec).rowHeld ((lastVec.dev.core core0.toNat).beamRow ((jobOf lastVec).rowOf (firstVec lastVec).blk (firstVec lastVec).m)) (firstVec lastVec).blk = false ∧
      ((decide ((firstVec lastVec).tile = 0) && !(jobOf lastVec).accumulate) = true ∨ noUpset.failed = false) ∧
      ((jobOf lastVec).isInt = true → ∀ col < (firstVec lastVec).oext, col < 64 → fitsAt lastVec col) ∧
      (firstVec lastVec).tile + 1 = (jobOf lastVec).tiles ∧ some (firstVec lastVec).m = (jobOf lastVec).rows.getLast?) ∧
    (ArrayAt overflow1 core0 (jobOf overflow1) (firstDesc overflow1) (firstRound overflow1) ∧
      (overflow1.dev.core core0.toNat).array.flight = firstVec overflow1 :: restVecs overflow1 ∧ (firstVec overflow1).key = (jobOf overflow1).key ∧
      (firstVec overflow1).drop = false ∧
      (jobOf overflow1).rowFault ((overflow1.dev.core core0.toNat).beamRow ((jobOf overflow1).rowOf (firstVec overflow1).blk (firstVec overflow1).m)) (decide ((firstVec overflow1).tile = 0)) = none ∧
      (jobOf overflow1).rowHeld ((overflow1.dev.core core0.toNat).beamRow ((jobOf overflow1).rowOf (firstVec overflow1).blk (firstVec overflow1).m)) (firstVec overflow1).blk = false ∧
      ((decide ((firstVec overflow1).tile = 0) && !(jobOf overflow1).accumulate) = true ∨ noUpset.failed = false) ∧ (jobOf overflow1).isInt = true ∧
      0 < (firstVec overflow1).oext ∧ 0 < 64 ∧ ¬fitsAt overflow1 0 ∧ (jobOf overflow1).attempt < 4) ∧
    (ArrayAt overflow4 core0 (jobOf overflow4) (firstDesc overflow4) (firstRound overflow4) ∧
      (overflow4.dev.core core0.toNat).array.flight = firstVec overflow4 :: restVecs overflow4 ∧ (firstVec overflow4).key = (jobOf overflow4).key ∧
      (firstVec overflow4).drop = false ∧
      (jobOf overflow4).rowFault ((overflow4.dev.core core0.toNat).beamRow ((jobOf overflow4).rowOf (firstVec overflow4).blk (firstVec overflow4).m)) (decide ((firstVec overflow4).tile = 0)) = none ∧
      (jobOf overflow4).rowHeld ((overflow4.dev.core core0.toNat).beamRow ((jobOf overflow4).rowOf (firstVec overflow4).blk (firstVec overflow4).m)) (firstVec overflow4).blk = false ∧
      ((decide ((firstVec overflow4).tile = 0) && !(jobOf overflow4).accumulate) = true ∨ noUpset.failed = false) ∧ (jobOf overflow4).isInt = true ∧
      0 < (firstVec overflow4).oext ∧ 0 < 64 ∧ ¬fitsAt overflow4 0 ∧ 4 ≤ (jobOf overflow4).attempt) ∧
    (ArrayAt emptyState core0 (jobOf emptyState) (firstDesc emptyState) (firstRound emptyState) ∧ (emptyState.dev.core core0.toNat).array.flight = [] ∧
      (jobOf emptyState).k = 0 ∧ (jobOf emptyState).accumulate = false ∧ (jobOf emptyState).isInt = false ∧ (jobOf emptyState).rows ≠ [] ∧
      (jobOf emptyState).blk < (jobOf emptyState).total ∧
      (jobOf emptyState).rowFault ((emptyState.dev.core core0.toNat).beamRow ((jobOf emptyState).rowOf (jobOf emptyState).blk ((jobOf emptyState).rows.getD (jobOf emptyState).vec 0))) true = none ∧
      (jobOf emptyState).rowHeld ((emptyState.dev.core core0.toNat).beamRow ((jobOf emptyState).rowOf (jobOf emptyState).blk ((jobOf emptyState).rows.getD (jobOf emptyState).vec 0))) (jobOf emptyState).blk = false ∧
      (jobOf emptyState).vec + 1 ≠ (jobOf emptyState).rows.length) ∧
    (ArrayAt emptyLast core0 (jobOf emptyLast) (firstDesc emptyLast) (firstRound emptyLast) ∧ (emptyLast.dev.core core0.toNat).array.flight = [] ∧
      (jobOf emptyLast).k = 0 ∧ (jobOf emptyLast).accumulate = false ∧ (jobOf emptyLast).isInt = false ∧ (jobOf emptyLast).rows ≠ [] ∧
      (jobOf emptyLast).blk < (jobOf emptyLast).total ∧
      (jobOf emptyLast).rowFault ((emptyLast.dev.core core0.toNat).beamRow ((jobOf emptyLast).rowOf (jobOf emptyLast).blk ((jobOf emptyLast).rows.getD (jobOf emptyLast).vec 0))) true = none ∧
      (jobOf emptyLast).rowHeld ((emptyLast.dev.core core0.toNat).beamRow ((jobOf emptyLast).rowOf (jobOf emptyLast).blk ((jobOf emptyLast).rows.getD (jobOf emptyLast).vec 0))) (jobOf emptyLast).blk = false ∧
      (jobOf emptyLast).vec + 1 = (jobOf emptyLast).rows.length) ∧
    (sumVals = List.map Val.int sums2 ∧ 0 < 1 ∧ 1 * sums2.length ≤ sums2.length) := by
  refine ⟨?_, ?_, ?_, ?_, ?_, ?_, ?_, ?_, ?_, ?_⟩ <;> decide +kernel

/-- States and operands that meet the hypotheses of each clause of `Obligations.OverflowRepeats`. -/
theorem witness_OverflowRepeats :
    (ArrayAt ovState core0 (jobOf ovState) (firstDesc ovState) (firstRound ovState) ∧ (jobOf ovState).overflow = true ∧
      ((weightsChecked ovState.dev noUpset).core core0.toNat).array.flight = [] ∧ (jobOf ovState).tile = 0 ∧ (jobOf ovState).vec = 0 ∧
      ((weightsChecked ovState.dev noUpset).core core0.toNat).array.tileFor { (jobOf ovState) with attempt := (jobOf ovState).attempt + 1, overflow := false } = some (shadowTile ovState, true) ∧
      ((weightsChecked ovState.dev noUpset).core core0.toNat).array.heads { (jobOf ovState) with attempt := (jobOf ovState).attempt + 1, overflow := false } ((jobOf ovState).blk * (jobOf ovState).tiles * (jobOf ovState).rows.length) = some (firstHeads ovState) ∧
      noUpset.failed = false) ∧
    (LoadAt ovChain core0 (jobOf ovChain) (firstDesc ovChain) (firstRound ovChain) ∧ (firstDesc ovChain).chainEn = true ∧
      (firstRound ovChain).ownWeights (firstDesc ovChain) = true ∧ (jobOf ovChain).mayRepeat = true ∧ 0 < (jobOf ovChain).tiles ∧
      (jobOf ovChain).tiles ≤ (jobOf ovChain).loadTile ∧
      ((jobOf ovChain).overflow = true ∧ (jobOf ovChain).blk = (jobOf ovChain).loadBlk ∧ (jobOf ovChain).useTile = 0 ∨ ovChain.dev.memberRepeats (firstDesc ovChain) (firstRound ovChain) (jobOf ovChain).loadBlk = true ∨ ((jobOf ovChain).loadBlk, (jobOf ovChain).pass, true) ∈ (jobOf ovChain).asks)) := by
  refine ⟨?_, ?_⟩ <;> decide +kernel

/-- States and operands that meet the hypotheses of each clause of `Obligations.ChainTiles`. -/
theorem witness_ChainTiles :
    (LoadAt chain4 core0 (jobOf chain4) (firstDesc chain4) (firstRound chain4) ∧ (firstDesc chain4).chainEn = true ∧
      (firstRound chain4).ownWeights (firstDesc chain4) = false ∧
      chain4.dev.offered core0.toNat (firstDesc chain4) (firstRound chain4) = some (offeredTile chain4) ∧
      Option.map (fun q => q.headerN (offeredTile chain4).hdr) ((if (jobOf chain4).wfmt = 0 then { (jobOf chain4) with wfmt := (offeredTile chain4).hdr.format } else jobOf chain4).memberSide (offeredTile chain4).hdr.rep) = some (memberJob chain4) ∧
      ((memberJob chain4).badHeader (firstDesc chain4) (offeredTile chain4).hdr = true ∨ (memberJob chain4).badEpilogue (firstDesc chain4) = true)) ∧
    (LoadAt chain5 core0 (jobOf chain5) (firstDesc chain5) (firstRound chain5) ∧ (firstDesc chain5).chainEn = true ∧
      (firstRound chain5).ownWeights (firstDesc chain5) = false ∧
      chain5.dev.offered core0.toNat (firstDesc chain5) (firstRound chain5) = some (offeredTile chain5) ∧
      Option.map (fun q => q.headerN (offeredTile chain5).hdr) ((if (jobOf chain5).wfmt = 0 then { (jobOf chain5) with wfmt := (offeredTile chain5).hdr.format } else jobOf chain5).memberSide (offeredTile chain5).hdr.rep) = some (memberJob chain5) ∧
      (memberJob chain5).badHeader (firstDesc chain5) (offeredTile chain5).hdr = false ∧ (memberJob chain5).badEpilogue (firstDesc chain5) = false ∧
      ((memberJob chain5).uses = true → (chain5.dev.core core0.toNat).array.shadow = none) ∧
      ((firstRound chain5).passesOn (firstDesc chain5) = true → (chain5.dev.core core0.toNat).chainOut = none) ∧
      (weightsChecked (chain5.dev.takeOffered core0.toNat (firstDesc chain5) (firstRound chain5) (offeredTile chain5)) oneFailed).descOk (jobOf chain5).key = true ∧
      oneFailed.failed = true) ∧
    (LoadAt chain5 core0 (jobOf chain5) (firstDesc chain5) (firstRound chain5) ∧ (firstDesc chain5).chainEn = true ∧
      (firstRound chain5).ownWeights (firstDesc chain5) = false ∧
      chain5.dev.offered core0.toNat (firstDesc chain5) (firstRound chain5) = some (offeredTile chain5) ∧
      Option.map (fun q => q.headerN (offeredTile chain5).hdr) ((if (jobOf chain5).wfmt = 0 then { (jobOf chain5) with wfmt := (offeredTile chain5).hdr.format } else jobOf chain5).memberSide (offeredTile chain5).hdr.rep) = some (memberJob chain5) ∧
      (memberJob chain5).badHeader (firstDesc chain5) (offeredTile chain5).hdr = false ∧ (memberJob chain5).badEpilogue (firstDesc chain5) = false ∧
      ((memberJob chain5).uses = true → (chain5.dev.core core0.toNat).array.shadow = none) ∧
      ((firstRound chain5).passesOn (firstDesc chain5) = true → (chain5.dev.core core0.toNat).chainOut = none) ∧
      (weightsChecked (chain5.dev.takeOffered core0.toNat (firstDesc chain5) (firstRound chain5) (offeredTile chain5)) noUpset).descOk (jobOf chain5).key = true ∧
      noUpset.failed = false ∧ (firstRound chain5).passesOn (firstDesc chain5) = false) ∧
    (LoadAt chainMiddle core0 (jobOf chainMiddle) (firstDesc chainMiddle) (firstRound chainMiddle) ∧ (firstDesc chainMiddle).chainEn = true ∧
      (firstRound chainMiddle).ownWeights (firstDesc chainMiddle) = false ∧
      chainMiddle.dev.offered core0.toNat (firstDesc chainMiddle) (firstRound chainMiddle) = some (offeredTile chainMiddle) ∧
      Option.map (fun q => q.headerN (offeredTile chainMiddle).hdr) ((if (jobOf chainMiddle).wfmt = 0 then { (jobOf chainMiddle) with wfmt := (offeredTile chainMiddle).hdr.format } else jobOf chainMiddle).memberSide (offeredTile chainMiddle).hdr.rep) = some (memberJob chainMiddle) ∧
      (memberJob chainMiddle).badHeader (firstDesc chainMiddle) (offeredTile chainMiddle).hdr = false ∧
      (memberJob chainMiddle).badEpilogue (firstDesc chainMiddle) = false ∧
      ((memberJob chainMiddle).uses = true → (chainMiddle.dev.core core0.toNat).array.shadow = none) ∧
      ((firstRound chainMiddle).passesOn (firstDesc chainMiddle) = true → (chainMiddle.dev.core core0.toNat).chainOut = none) ∧
      (weightsChecked (chainMiddle.dev.takeOffered core0.toNat (firstDesc chainMiddle) (firstRound chainMiddle) (offeredTile chainMiddle)) noUpset).descOk (jobOf chainMiddle).key = true ∧
      noUpset.failed = false ∧ (firstRound chainMiddle).passesOn (firstDesc chainMiddle) = true) := by
  refine ⟨?_, ?_, ?_, ?_⟩ <;> decide +kernel

/-- States and operands that meet the hypotheses of each clause of `Obligations.CarryTree`. -/
theorem witness_CarryTree :
    (outOfOrder.dev.pins.clocks = true ∧ outOfOrder.dev.ctxs core0.toNat = [(jobOf outOfOrder, firstDesc outOfOrder, firstRound outOfOrder)] ∧
      nextSend (jobOf outOfOrder, firstDesc outOfOrder, firstRound outOfOrder) = some (0, 0) ∧
      ((firstRound outOfOrder).carryOf (firstDesc outOfOrder).carry)[parentOf (firstRound outOfOrder).unordered (((firstRound outOfOrder).carryPos (firstDesc outOfOrder)).getD 0)]? = some 1) ∧
    (carryState.dev.pins.clocks = true ∧ carryState.dev.ctxs core0.toNat = [(jobOf carryState, firstDesc carryState, firstRound carryState)] ∧
      (carryState.dev.core core0.toNat).carryIn = partial_ :: noPartials ∧
      carryFor partial_ (jobOf carryState, firstDesc carryState, firstRound carryState) = true ∧
      carryBad partial_ (jobOf carryState, firstDesc carryState, firstRound carryState) = false ∧
      carryDue partial_ (jobOf carryState, firstDesc carryState, firstRound carryState) = true ∧ carryState.dev.descOk (jobOf carryState).key = true ∧
      noUpset.failed = false ∧ (carryState.dev.core core0.toNat).array.flight = []) ∧
    (carryBusy.dev.pins.clocks = true ∧ carryBusy.dev.ctxs core0.toNat = [(jobOf carryBusy, firstDesc carryBusy, firstRound carryBusy)] ∧
      (carryBusy.dev.core core0.toNat).carryIn = partial_ :: noPartials ∧
      carryFor partial_ (jobOf carryBusy, firstDesc carryBusy, firstRound carryBusy) = true ∧
      carryBad partial_ (jobOf carryBusy, firstDesc carryBusy, firstRound carryBusy) = false ∧
      carryDue partial_ (jobOf carryBusy, firstDesc carryBusy, firstRound carryBusy) = true ∧ carryBusy.dev.descOk (jobOf carryBusy).key = true ∧
      noUpset.failed = false ∧ (carryBusy.dev.core core0.toNat).array.flight ≠ []) ∧
    (2 ≤ 4095 ∧ 1 < 2 ∧ 0 < 1) ∧
    (2 ≤ 4095 ∧ 1 < 2 ∧ 0 < 2 ∧ 1 ∈ duesOf false 2 0) := by
  refine ⟨?_, ?_, ?_, ?_, ?_⟩ <;> decide +kernel

/-- States and operands that meet the hypotheses of each clause of `Obligations.SequencerRegisterWrites`. -/
theorem witness_SequencerRegisterWrites :
    (threeBlocks.dev.pins.clocks = true ∧ (threeBlocks.dev.stream stream.toNat).enable = false ∧
      threeBlocks.dev.enableBad (threeBlocks.dev.stream stream.toNat) = true) ∧
    (stopped.dev.pins.clocks = true ∧ (stopped.dev.stream stream.toNat).enable = false ∧
      stopped.dev.enableBad (stopped.dev.stream stream.toNat) = false ∧
      (stopped.dev.stream stream.toNat).release = (stopped.dev.stream stream.toNat).fetch) ∧
    (passed.dev.pins.clocks = true ∧ (passed.dev.stream stream.toNat).enable = false ∧ passed.dev.enableBad (passed.dev.stream stream.toNat) = false ∧
      (passed.dev.stream stream.toNat).release ≠ (passed.dev.stream stream.toNat).fetch) ∧
    (working.dev.pins.clocks = true ∧ (working.dev.stream stream.toNat).enable = true) ∧
    (working.dev.pins.clocks = true ∧ working.dev.fabricStream stream.toNat = false ∧ 0 < (working.dev.stream stream.toNat).size.toNat) ∧
    (ofFabric.dev.pins.clocks = true ∧ ofFabric.dev.fabricStream stream.toNat = true) := by
  refine ⟨?_, ?_, ?_, ?_, ?_, ?_⟩ <;> decide +kernel

/-- States and operands that meet the hypotheses of each clause of `Obligations.WaitsHoldIssue`. -/
theorem witness_WaitsHoldIssue :
    (noWait.dev.pins.clocks = true ∧ noWait.dev.oldestUnissued stream.toNat = some (firstDesc noWait) ∧
      noWait.dev.roundActive (firstDesc noWait).round = true ∧ noWait.dev.awaitsRestart stream.toNat (firstDesc noWait).key.slot = false ∧
      (∀ i < 4, ¬(fun i => have w := (firstDesc noWait).word (5 + i); w / 2 ^ 63 % 2 = 1 ∧ 2 ^ 31 ≤ (BitVec.toNat (noWait.dev.flag (w / 2 ^ 32 % 2 ^ 12)) + 2 ^ 32 - w % 2 ^ 32) % 2 ^ 32) i)) ∧
    (waitHeld.dev.pins.clocks = true ∧ waitHeld.dev.oldestUnissued stream.toNat = some (firstDesc waitHeld) ∧
      waitHeld.dev.roundActive (firstDesc waitHeld).round = true ∧ waitHeld.dev.awaitsRestart stream.toNat (firstDesc waitHeld).key.slot = false ∧
      ∃ i < 4, (fun i => have w := (firstDesc waitHeld).word (5 + i); w / 2 ^ 63 % 2 = 1 ∧ 2 ^ 31 ≤ (BitVec.toNat (waitHeld.dev.flag (w / 2 ^ 32 % 2 ^ 12)) + 2 ^ 32 - w % 2 ^ 32) % 2 ^ 32) i) ∧
    (noWait.dev.pins.clocks = true ∧ noWait.dev.oldestUnissued stream.toNat = some (firstDesc noWait) ∧
      noWait.dev.roundActive (firstDesc noWait).round = true ∧ noWait.dev.awaitsRestart stream.toNat (firstDesc noWait).key.slot = false ∧ 0 < 4096 ∧
      0 ≠ flag7.toNat) := by
  refine ⟨?_, ?_, ?_⟩ <;> decide +kernel

/-- States and operands that meet the hypotheses of each clause of `Obligations.DescriptorFetches`. -/
theorem witness_DescriptorFetches :
    (fetchRun.dev.pins.clocks = true ∧ (fetchRun.dev.stream stream.toNat).enable = true ∧ (fetchRun.dev.stream stream.toNat).empty = false ∧
      (fetchRun.dev.stream stream.toNat).refetch = [] ∧ fetchRun.dev.inFlight < 1024 ∧
      (fetchRun.dev.descs.any fun q => q.key.stream == stream.toNat && q.stage == Stage.fetched && decide ((fetchRun.dev.stream stream.toNat).place q.key.slot < (fetchRun.dev.stream stream.toNat).place (fetchRun.dev.stream stream.toNat).fetch.toNat) && (fetchRun.dev.firstWait q).isSome) = false ∧
      (fetchRun.dev.stream stream.toNat).run = some roundNo ∧ fetchRun.dev.round? roundNo = some (firstRound fetchRun) ∧
      (firstRound fetchRun).active = true ∧
      fetchBytes fetchRun.fuses stream.toNat ((fetchRun.dev.stream stream.toNat).slotAddr (fetchRun.dev.stream stream.toNat).fetch.toNat) 128 fetchRun.dev = Pull.ok (slotBytes fetchRun) (slotDev fetchRun) ∧
      (newDesc { stream := stream.toNat, slot := (fetchRun.dev.stream stream.toNat).fetch.toNat } (firstRound fetchRun).number (firstRound fetchRun).attempt (fetchRun.dev.stream stream.toNat).phase (slotBytes fetchRun)).isOpen = false ∧
      (newDesc { stream := stream.toNat, slot := (fetchRun.dev.stream stream.toNat).fetch.toNat } (firstRound fetchRun).number (firstRound fetchRun).attempt (fetchRun.dev.stream stream.toNat).phase (slotBytes fetchRun)).isCommit = false ∧
      (newDesc { stream := stream.toNat, slot := (fetchRun.dev.stream stream.toNat).fetch.toNat } (firstRound fetchRun).number (firstRound fetchRun).attempt (fetchRun.dev.stream stream.toNat).phase (slotBytes fetchRun)).roundField = (firstRound fetchRun).number) ∧
    (fetchNone.dev.pins.clocks = true ∧ (fetchNone.dev.stream stream.toNat).enable = true ∧ (fetchNone.dev.stream stream.toNat).empty = false ∧
      (fetchNone.dev.stream stream.toNat).refetch = [] ∧ fetchNone.dev.inFlight < 1024 ∧
      (fetchNone.dev.descs.any fun q => q.key.stream == stream.toNat && q.stage == Stage.fetched && decide ((fetchNone.dev.stream stream.toNat).place q.key.slot < (fetchNone.dev.stream stream.toNat).place (fetchNone.dev.stream stream.toNat).fetch.toNat) && (fetchNone.dev.firstWait q).isSome) = false ∧
      (fetchNone.dev.stream stream.toNat).run = none ∧
      fetchBytes fetchNone.fuses stream.toNat ((fetchNone.dev.stream stream.toNat).slotAddr (fetchNone.dev.stream stream.toNat).fetch.toNat) 128 fetchNone.dev = Pull.ok (slotBytes fetchNone) (slotDev fetchNone) ∧
      (newDesc { stream := stream.toNat, slot := (fetchNone.dev.stream stream.toNat).fetch.toNat } (BitVec.ofNat 32 (field (slotBytes fetchNone) 4 4)) 0 (fetchNone.dev.stream stream.toNat).phase (slotBytes fetchNone)).isOpen = false) ∧
    (fetchOpen.dev.pins.clocks = true ∧ (fetchOpen.dev.stream stream.toNat).enable = true ∧ (fetchOpen.dev.stream stream.toNat).empty = false ∧
      (fetchOpen.dev.stream stream.toNat).refetch = [] ∧ fetchOpen.dev.inFlight < 1024 ∧
      (fetchOpen.dev.descs.any fun q => q.key.stream == stream.toNat && q.stage == Stage.fetched && decide ((fetchOpen.dev.stream stream.toNat).place q.key.slot < (fetchOpen.dev.stream stream.toNat).place (fetchOpen.dev.stream stream.toNat).fetch.toNat) && (fetchOpen.dev.firstWait q).isSome) = false ∧
      (fetchOpen.dev.stream stream.toNat).run = none ∧
      fetchBytes fetchOpen.fuses stream.toNat ((fetchOpen.dev.stream stream.toNat).slotAddr (fetchOpen.dev.stream stream.toNat).fetch.toNat) 128 fetchOpen.dev = Pull.ok (slotBytes fetchOpen) (slotDev fetchOpen) ∧
      (newDesc { stream := stream.toNat, slot := (fetchOpen.dev.stream stream.toNat).fetch.toNat } (BitVec.ofNat 32 (field (slotBytes fetchOpen) 4 4)) 0 (fetchOpen.dev.stream stream.toNat).phase (slotBytes fetchOpen)).isOpen = true ∧
      (newDesc { stream := stream.toNat, slot := (fetchOpen.dev.stream stream.toNat).fetch.toNat } (BitVec.ofNat 32 (field (slotBytes fetchOpen) 4 4)) 0 (fetchOpen.dev.stream stream.toNat).phase (slotBytes fetchOpen)).isCommit = false ∧
      (slotDev fetchOpen).objNat 28928 1 ≠ 1 ∧ (slotDev fetchOpen).round? (BitVec.ofNat 32 (field (slotBytes fetchOpen) 4 4)) = none ∧
      (slotDev fetchOpen).freeRslot = some 0 ∧ (slotDev fetchOpen).rounds.length < 64 ∧
      Dev.readRecord fetchOpen.fuses (slotDev fetchOpen) stream.toNat (slotDev fetchOpen).objs (newDesc { stream := stream.toNat, slot := (fetchOpen.dev.stream stream.toNat).fetch.toNat } (BitVec.ofNat 32 (field (slotBytes fetchOpen) 4 4)) 0 (fetchOpen.dev.stream stream.toNat).phase (slotBytes fetchOpen)).rrec = Pull.ok (recordWord fetchOpen, Except.ok (recordInputs fetchOpen)) (openDev fetchOpen)) ∧
    (fetchBeyond.dev.pins.clocks = true ∧ (fetchBeyond.dev.stream stream.toNat).enable = true ∧ (fetchBeyond.dev.stream stream.toNat).empty = false ∧
      (fetchBeyond.dev.stream stream.toNat).refetch = [] ∧ fetchBeyond.dev.inFlight < 1024 ∧
      (fetchBeyond.dev.descs.any fun q => q.key.stream == stream.toNat && q.stage == Stage.fetched && decide ((fetchBeyond.dev.stream stream.toNat).place q.key.slot < (fetchBeyond.dev.stream stream.toNat).place (fetchBeyond.dev.stream stream.toNat).fetch.toNat) && (fetchBeyond.dev.firstWait q).isSome) = false ∧
      (fetchBeyond.dev.stream stream.toNat).run = none ∧
      fetchBytes fetchBeyond.fuses stream.toNat ((fetchBeyond.dev.stream stream.toNat).slotAddr (fetchBeyond.dev.stream stream.toNat).fetch.toNat) 128 fetchBeyond.dev = Pull.fail Status.address (slotDev fetchBeyond)) ∧
    (fetchAgain.dev.pins.clocks = true ∧ (fetchAgain.dev.stream stream.toNat).refetch = again0 :: noRefetch ∧ fetchAgain.dev.inFlight < 1024 ∧
      (fetchAgain.dev.descs.any fun q => q.key.stream == stream.toNat && q.stage == Stage.fetched && decide ((fetchAgain.dev.stream stream.toNat).place q.key.slot < (fetchAgain.dev.stream stream.toNat).place again0.slot) && (fetchAgain.dev.firstWait q).isSome) = false ∧
      fetchAgain.dev.round? again0.round = some (firstRound fetchAgain) ∧ (firstRound fetchAgain).active = true ∧
      (∀ u ∈ (firstRound fetchAgain).runs, ¬(u.stream = stream.toNat ∧ u.first = again0.slot)) ∧
      fetchBytes fetchAgain.fuses stream.toNat ((fetchAgain.dev.stream stream.toNat).slotAddr again0.slot) 128 fetchAgain.dev = Pull.ok (againBytes fetchAgain) (againDev fetchAgain) ∧
      (newDesc { stream := stream.toNat, slot := again0.slot } (firstRound fetchAgain).number (firstRound fetchAgain).attempt again0.phase (againBytes fetchAgain)).isOpen = false ∧
      (newDesc { stream := stream.toNat, slot := again0.slot } (firstRound fetchAgain).number (firstRound fetchAgain).attempt again0.phase (againBytes fetchAgain)).isCommit = false ∧
      (newDesc { stream := stream.toNat, slot := again0.slot } (firstRound fetchAgain).number (firstRound fetchAgain).attempt again0.phase (againBytes fetchAgain)).roundField = (firstRound fetchAgain).number ∧
      ((againDev fetchAgain).stream stream.toNat).fetch.toNat ≠ again0.slot) := 
  ⟨⟨by decide +kernel, by decide +kernel, by decide +kernel, by decide +kernel, by decide +kernel, by decide +kernel, by decide +kernel, by decide +kernel, by decide +kernel, pulled (by decide +kernel), by decide +kernel, by decide +kernel, by decide +kernel⟩,
    ⟨by decide +kernel, by decide +kernel, by decide +kernel, by decide +kernel, by decide +kernel, by decide +kernel, by decide +kernel, pulled (by decide +kernel), by decide +kernel⟩,
    ⟨by decide +kernel, by decide +kernel, by decide +kernel, by decide +kernel, by decide +kernel, by decide +kernel, by decide +kernel, pulled (by decide +kernel), by decide +kernel, by decide +kernel, by decide +kernel, by decide +kernel, by decide +kernel, by decide +kernel, opened fetchOpen (by decide +kernel)⟩,
    ⟨by decide +kernel, by decide +kernel, by decide +kernel, by decide +kernel, by decide +kernel, by decide +kernel, by decide +kernel, failed (by decide +kernel)⟩,
    ⟨by decide +kernel, by decide +kernel, by decide +kernel, by decide +kernel, by decide +kernel, by decide +kernel, by decide +kernel, pulled (by decide +kernel), by decide +kernel, by decide +kernel, by decide +kernel, by decide +kernel⟩⟩

/-- States and operands that meet the hypotheses of each clause of `Obligations.DescriptorDeliveries`. -/
theorem witness_DescriptorDeliveries :
    (issuedAsleep.dev.pins.clocks = true ∧ issuedAsleep.dev.nextDelivery stream.toNat = some (firstDesc issuedAsleep) ∧
      issuedAsleep.dev.round? (firstDesc issuedAsleep).round = some (firstRound issuedAsleep) ∧ (firstDesc issuedAsleep).stage = Stage.issued ∧
      issuedAsleep.dev.undelivered stream.toNat (firstDesc issuedAsleep).key.slot = false ∧ (firstRound issuedAsleep).active = true ∧
      issuedAsleep.dev.fencesOk (firstDesc issuedAsleep) = true ∧ issuedAsleep.dev.awake (firstDesc issuedAsleep).core = false) ∧
    (issuedHalt.dev.pins.clocks = true ∧ issuedHalt.dev.nextDelivery stream.toNat = some (firstDesc issuedHalt) ∧
      issuedHalt.dev.round? (firstDesc issuedHalt).round = some (firstRound issuedHalt) ∧ (firstDesc issuedHalt).stage = Stage.issued ∧
      issuedHalt.dev.undelivered stream.toNat (firstDesc issuedHalt).key.slot = false ∧ (firstRound issuedHalt).active = true ∧
      issuedHalt.dev.fencesOk (firstDesc issuedHalt) = true ∧ issuedHalt.dev.awake (firstDesc issuedHalt).core = true ∧
      issuedHalt.dev.coreAccepts (firstRound issuedHalt) (firstDesc issuedHalt) = false) ∧
    (issuedPlain.dev.pins.clocks = true ∧ issuedPlain.dev.nextDelivery stream.toNat = some (firstDesc issuedPlain) ∧
      issuedPlain.dev.round? (firstDesc issuedPlain).round = some (firstRound issuedPlain) ∧ (firstDesc issuedPlain).stage = Stage.issued ∧
      issuedPlain.dev.undelivered stream.toNat (firstDesc issuedPlain).key.slot = false ∧ (firstRound issuedPlain).active = true ∧
      issuedPlain.dev.fencesOk (firstDesc issuedPlain) = true ∧ issuedPlain.dev.awake (firstDesc issuedPlain).core = true ∧
      issuedPlain.dev.coreAccepts (firstRound issuedPlain) (firstDesc issuedPlain) = true ∧
      pullAll (List.map (pullRecord issuedPlain.fuses (firstDesc issuedPlain)) (List.range 3)) issuedPlain.dev = Pull.ok (records issuedPlain) (recordDev issuedPlain) ∧
      (firstDesc issuedPlain).isPatch = false) ∧
    (issuedPatch.dev.pins.clocks = true ∧ issuedPatch.dev.nextDelivery stream.toNat = some (firstDesc issuedPatch) ∧
      issuedPatch.dev.round? (firstDesc issuedPatch).round = some (firstRound issuedPatch) ∧ (firstDesc issuedPatch).stage = Stage.issued ∧
      issuedPatch.dev.undelivered stream.toNat (firstDesc issuedPatch).key.slot = false ∧ (firstRound issuedPatch).active = true ∧
      issuedPatch.dev.fencesOk (firstDesc issuedPatch) = true ∧ issuedPatch.dev.awake (firstDesc issuedPatch).core = true ∧
      issuedPatch.dev.coreAccepts (firstRound issuedPatch) (firstDesc issuedPatch) = true ∧
      pullAll (List.map (pullRecord issuedPatch.fuses (firstDesc issuedPatch)) (List.range 3)) issuedPatch.dev = Pull.ok (records issuedPatch) (recordDev issuedPatch) ∧
      (firstDesc issuedPatch).isPatch = true ∧ ((recordDev issuedPatch).core (firstDesc issuedPatch).core).rk.mode = RkMode.running) ∧
    (issuedIdle.dev.pins.clocks = true ∧ issuedIdle.dev.nextDelivery stream.toNat = some (firstDesc issuedIdle) ∧
      issuedIdle.dev.round? (firstDesc issuedIdle).round = some (firstRound issuedIdle) ∧ (firstDesc issuedIdle).stage = Stage.issued ∧
      issuedIdle.dev.undelivered stream.toNat (firstDesc issuedIdle).key.slot = false ∧ (firstRound issuedIdle).active = true ∧
      issuedIdle.dev.fencesOk (firstDesc issuedIdle) = true ∧ issuedIdle.dev.awake (firstDesc issuedIdle).core = true ∧
      issuedIdle.dev.coreAccepts (firstRound issuedIdle) (firstDesc issuedIdle) = true ∧
      pullAll (List.map (pullRecord issuedIdle.fuses (firstDesc issuedIdle)) (List.range 3)) issuedIdle.dev = Pull.ok (records issuedIdle) (recordDev issuedIdle) ∧
      (firstDesc issuedIdle).isPatch = true ∧ ((recordDev issuedIdle).core (firstDesc issuedIdle).core).rk.mode ≠ RkMode.running) ∧
    (issuedFar.dev.pins.clocks = true ∧ issuedFar.dev.nextDelivery stream.toNat = some (firstDesc issuedFar) ∧
      issuedFar.dev.round? (firstDesc issuedFar).round = some (firstRound issuedFar) ∧ (firstDesc issuedFar).stage = Stage.issued ∧
      issuedFar.dev.undelivered stream.toNat (firstDesc issuedFar).key.slot = false ∧ (firstRound issuedFar).active = true ∧
      issuedFar.dev.fencesOk (firstDesc issuedFar) = true ∧ issuedFar.dev.awake (firstDesc issuedFar).core = true ∧
      issuedFar.dev.coreAccepts (firstRound issuedFar) (firstDesc issuedFar) = true ∧
      pullAll (List.map (pullRecord issuedFar.fuses (firstDesc issuedFar)) (List.range 3)) issuedFar.dev = Pull.fail Status.address (recordDev issuedFar)) := by
  refine ⟨?_, ?_, ?_, ?_, ?_, ?_⟩ <;> first | decide +kernel | (and_intros <;> first | decide +kernel | exact pulled (by decide +kernel) | exact failed (by decide +kernel))

/-- States and operands that meet the hypotheses of each clause of `Obligations.DescriptorCompletions`. -/
theorem witness_DescriptorCompletions :
    (doneFailed.dev.pins.clocks = true ∧ doneFailed.dev.desc? { stream := stream.toNat, slot := slot.toNat } = some (firstDesc doneFailed) ∧
      (firstDesc doneFailed).stage = Stage.executed ∧ (firstDesc doneFailed).isCommit = false ∧ (firstDesc doneFailed).finalStatus.isSuccess = false) ∧
    (doneAway.dev.pins.clocks = true ∧ doneAway.dev.desc? { stream := stream.toNat, slot := slot.toNat } = some (firstDesc doneAway) ∧
      (firstDesc doneAway).stage = Stage.executed ∧ (firstDesc doneAway).isCommit = false ∧ doneAway.dev.mayComplete (firstDesc doneAway) = true ∧
      doneAway.dev.signalFails (firstDesc doneAway) = some Status.address) ∧
    (done0.dev.pins.clocks = true ∧ done0.dev.desc? { stream := stream.toNat, slot := slot.toNat } = some (firstDesc done0) ∧
      (firstDesc done0).stage = Stage.executed ∧ (firstDesc done0).isCommit = false ∧ done0.dev.mayComplete (firstDesc done0) = true ∧
      done0.dev.signalFails (firstDesc done0) = none ∧ (firstDesc done0).finalStatus.isSuccess = true ∧
      ((firstDesc done0).signals = false ∨ (firstDesc done0).atCommit = true)) ∧
    (doneSignal.dev.pins.clocks = true ∧ doneSignal.dev.desc? { stream := stream.toNat, slot := slot.toNat } = some (firstDesc doneSignal) ∧
      (firstDesc doneSignal).stage = Stage.executed ∧ (firstDesc doneSignal).isCommit = false ∧
      doneSignal.dev.mayComplete (firstDesc doneSignal) = true ∧ doneSignal.dev.signalFails (firstDesc doneSignal) = none ∧
      (firstDesc doneSignal).finalStatus.isSuccess = true ∧ (firstDesc doneSignal).signals = true ∧ (firstDesc doneSignal).atCommit = false) ∧
    (5 < 16 ∧ 5 < 2 ^ 64) := by
  refine ⟨?_, ?_, ?_, ?_, ?_⟩ <;> decide +kernel

/-- States and operands that meet the hypotheses of each clause of `Obligations.RoundAborts`. -/
theorem witness_RoundAborts :
    (running.dev.pins.clocks = true ∧ running.dev.round? otherRound = none) ∧
    (running.dev.pins.clocks = true ∧ running.dev.round? roundNo = some (firstRound running) ∧ (firstRound running).cause = none) ∧
    (failAddress.dev.pins.clocks = true ∧ failAddress.dev.round? roundNo = some (firstRound failAddress) ∧
      (firstRound failAddress).cause = some Status.address ∧ (firstRound failAddress).peerGroup = 0) ∧
    (peerFailing.dev.pins.clocks = true ∧ peerFailing.dev.round? roundNo = some (firstRound peerFailing) ∧
      (firstRound peerFailing).cause = some Status.linkLost ∧ (firstRound peerFailing).peerGroup ≠ 0) ∧
    (running.dev.pins.clocks = true ∧ running.dev.round? roundNo = some (firstRound running) ∧ Status.address.isSuccess = false) ∧
    (round.phase = RoundPhase.running ∧ round.cause = none) ∧
    (roundCause.phase = RoundPhase.running ∧ roundCause.cause = some Status.address ∧ roundCause.causeAt = 0) ∧
    (roundCause.phase = RoundPhase.running ∧ roundCause.cause = some Status.address ∧ roundCause.causeAt ≠ 1) ∧
    (round.phase = RoundPhase.running ∧ Status.hwUncorrectable.isHardware = true ∧ Status.address.isProgram = true) := by
  refine ⟨?_, ?_, ?_, ?_, ?_, ?_, ?_, ?_, ?_⟩ <;> decide +kernel

/-- States and operands that meet the hypotheses of each clause of `Obligations.RoundCommits`. -/
theorem witness_RoundCommits :
    (running.dev.pins.clocks = true ∧ running.dev.round? roundNo = some (firstRound running) ∧ (firstRound running).peerGroup = 0 ∧
      running.dev.commitReady (firstRound running) = false) ∧
    (commit0.dev.pins.clocks = true ∧ commit0.dev.round? roundNo = some (firstRound commit0) ∧ (firstRound commit0).peerGroup = 0 ∧
      commit0.dev.commitReady (firstRound commit0) = true) := by
  refine ⟨?_, ?_⟩ <;> decide +kernel

/-- States and operands that meet the hypotheses of each clause of `Obligations.RoundRestarts`. -/
theorem witness_RoundRestarts :
    (restoring.dev.pins.clocks = true ∧ List.find? (fun e => decide (e.round = roundNo)) restoring.dev.restores = some restore0 ∧
      restoring.dev.trafficOf restore0 = false ∧ (∀ i ∈ restore0.increments, restoring.dev.isHere i.node = true) ∧
      (∀ q ∈ restoring.dev.saeri.outstanding, q.use ≠ SaeriUse.restore roundNo restore0.rslot) ∧ 7 < 4096) ∧
    (restoreWaits.dev.pins.clocks = true ∧ List.find? (fun e => decide (e.round = roundNo)) restoreWaits.dev.restores = some restoreNone ∧
      restoreWaits.dev.trafficOf restoreNone = false ∧ restoreNone.increments = [] ∧
      (∃ q ∈ restoreWaits.dev.saeri.outstanding, q.use = SaeriUse.restore roundNo restoreNone.rslot)) ∧
    (restoring.dev.pins.clocks = true ∧ restoring.dev.round? roundNo = some (firstRound restoring) ∧ (firstRound restoring).peerGroup = 0 ∧
      ((firstRound restoring).phase ≠ RoundPhase.restored ∨ (firstRound restoring).hold ≠ Hold.none ∨ (firstRound restoring).cause ≠ none)) ∧
    (restored.dev.pins.clocks = true ∧ restored.dev.round? roundNo = some (firstRound restored) ∧ (firstRound restored).peerGroup = 0 ∧
      (firstRound restored).phase = RoundPhase.restored ∧ (firstRound restored).hold = Hold.none ∧ (firstRound restored).cause = none ∧
      run0 ∈ (firstRound restored).runs ∧ 0 < 65536 ∧ 0 ∈ restored.dev.runSlots run0 ∧ (List.map Run.stream (firstRound restored).runs).Nodup) := by
  refine ⟨?_, ?_, ?_, ?_⟩ <;> decide +kernel

/-- States and operands that meet the hypotheses of each clause of `Obligations.RoundTimers`. -/
theorem witness_RoundTimers :
    (running.dev.pins.clocks = true ∧ running.dev.round? roundNo = some (firstRound running) ∧ (firstRound running).phase = RoundPhase.running ∧
      leNat (objIn (firstRound running).settings 8288 1) ≤ 2000 ∧ running.dev.timersStand roundNo = false) ∧
    (running.dev.pins.clocks = true ∧ running.dev.round? roundNo = some (firstRound running) ∧
      (1999 < leNat (objIn (firstRound running).settings 8288 1) ∨ running.dev.timersStand roundNo = true)) ∧
    (stuckQuiet.dev.pins.clocks = true ∧ stuckQuiet.dev.round? roundNo = some (firstRound stuckQuiet) ∧
      stuckQuiet.dev.quiescent (firstRound stuckQuiet) = some (stuckRecords stuckQuiet) ∧ (firstRound stuckQuiet).peerGroup = 0 ∧ 65536 ≤ 65536) ∧
    (running.dev.pins.clocks = true ∧ running.dev.round? roundNo = some (firstRound running) ∧
      (running.dev.quiescent (firstRound running) = none ∨ 2000 < 65536)) := by
  refine ⟨?_, ?_, ?_, ?_⟩ <;> decide +kernel

/-- States and operands that meet the hypotheses of each clause of `Obligations.TallyBus`. -/
theorem witness_TallyBus :
    (commit3.dev.pins.clocks = true ∧ commit3.dev.round? roundNo = some (firstRound commit3) ∧ (firstRound commit3).peerGroup ≠ 0 ∧
      ((firstRound commit3).phase = RoundPhase.running ∨ true = false) ∧ (roundNo, true, Status.ofCode (34)) ∉ commit3.dev.tally.frames) ∧
    (frameSent.dev.pins.clocks = true ∧ frameSent.dev.round? roundNo = some (firstRound frameSent) ∧ (firstRound frameSent).peerGroup ≠ 0 ∧
      ((firstRound frameSent).phase = RoundPhase.running ∨ true = false) ∧ (roundNo, true, Status.ofCode (34)) ∈ frameSent.dev.tally.frames) ∧
    (peerRestored.dev.pins.clocks = true ∧ peerRestored.dev.round? roundNo = some (firstRound peerRestored) ∧
      (roundNo, true, Status.ofCode (34)) ∉ peerRestored.dev.tally.frames ∧
      ((firstRound peerRestored).peerGroup = 0 ∨ (firstRound peerRestored).phase ≠ RoundPhase.running ∧ true = true)) ∧
    (commit3.dev.pins.clocks = true ∧ commit3.dev.round? roundNo = some (firstRound commit3) ∧ (firstRound commit3).peerGroup = 3 ∧
      (firstRound commit3).peerGroup ≠ 0 ∧ commit3.dev.commitReady (firstRound commit3) = true) ∧
    (commit3.dev.pins.clocks = true ∧ commit3.dev.round? roundNo = some (firstRound commit3) ∧ (firstRound commit3).peerGroup ≠ 34) ∧
    (peerRestored.dev.pins.clocks = true ∧ peerRestored.dev.round? roundNo = some (firstRound peerRestored) ∧ (firstRound peerRestored).peerGroup = 3 ∧
      (firstRound peerRestored).peerGroup ≠ 0 ∧ (firstRound peerRestored).phase = RoundPhase.restored ∧ (firstRound peerRestored).hold = Hold.none ∧
      (firstRound peerRestored).cause = none) ∧
    (commit3.dev.pins.clocks = true ∧ commit3.dev.round? roundNo = some (firstRound commit3) ∧ 64 ≤ 64 ∧ commit3.dev.tally.stuck0 = false ∧
      (List.map Round.number commit3.dev.rounds).Nodup) ∧
    (running.dev.pins.clocks = true ∧ running.dev.round? roundNo = some (firstRound running) ∧ 64 ≤ 64 ∧ running.dev.tally.stuck1 = false ∧
      (∀ q ∈ running.dev.rounds, q.peerGroup = 0)) ∧
    (commit3.dev.pins.clocks = true ∧ commit3.dev.round? roundNo = some (firstRound commit3) ∧ 64 ≤ 64 ∧ commit3.dev.tally.stuck1 = false ∧
      commit3.dev.rounds = [firstRound commit3] ∧ (firstRound commit3).peerGroup ≠ 0 ∧ (firstRound commit3).phase = RoundPhase.running) ∧
    (tallyStuck0.dev.pins.clocks = true ∧ tallyStuck0.dev.round? roundNo = some (firstRound tallyStuck0) ∧ 64 ≤ 64 ∧
      tallyStuck0.dev.tally.stuck0 = true) ∧
    (tallyStuck1.dev.pins.clocks = true ∧ tallyStuck1.dev.round? roundNo = some (firstRound tallyStuck1) ∧ 64 ≤ 64 ∧
      tallyStuck1.dev.tally.stuck1 = true) ∧
    (commit3.dev.pins.clocks = true ∧ commit3.dev.round? roundNo = some (firstRound commit3) ∧ 63 < 64) := by
  refine ⟨?_, ?_, ?_, ?_, ?_, ?_, ?_, ?_, ?_, ?_, ?_, ?_⟩ <;> decide +kernel

/-- States and operands that meet the hypotheses of each clause of `Obligations.PatchesStopsAndHalts`. -/
theorem witness_PatchesStopsAndHalts :
    (patchDue.dev.pins.clocks = true ∧ (patchDue.dev.core core0.toNat).patchQ = key0 :: noKeys ∧ patchDue.dev.desc? key0 = some (firstDesc patchDue) ∧
      (firstDesc patchDue).stage = Stage.patching ∧ (patchDue.dev.core core0.toNat).rk.mode = RkMode.running ∧
      (patchDue.dev.core core0.toNat).rk.inShadow = false ∧ patchDue.dev.awake core0.toNat = true) ∧
    (frozenState.dev.pins.clocks = true ∧
      List.find? (fun x => x.core == core0.toNat && x.stage == Stage.frozen) frozenState.dev.descs = some (firstDesc frozenState) ∧
      frozenState.dev.round? (firstDesc frozenState).round = some (firstRound frozenState) ∧ (firstRound frozenState).active = true) ∧
    (swapStopping.dev.pins.clocks = true ∧ (swapStopping.dev.core core0.toNat).rk.mode = RkMode.running ∧
      (swapStopping.dev.core core0.toNat).rk.waiting = true ∧ (swapStopping.dev.core core0.toNat).rk.inShadow = false ∧
      (swapStopping.dev.core core0.toNat).patchQ = [] ∧ (swapStopping.dev.core core0.toNat).rk.swap = some true ∧
      (swapStopping.dev.core core0.toNat).rk.stopReq = true) ∧
    (stopping.dev.pins.clocks = true ∧ (stopping.dev.core core0.toNat).rk.mode = RkMode.running ∧ (stopping.dev.core core0.toNat).rk.waiting = true ∧
      (stopping.dev.core core0.toNat).rk.inShadow = false ∧ (stopping.dev.core core0.toNat).patchQ = [] ∧
      (stopping.dev.core core0.toNat).rk.swap = none) ∧
    (stopping.dev.pins.clocks = true ∧ (stopping.dev.core core0.toNat).rk.mode = RkMode.running ∧ (stopping.dev.core core0.toNat).rk.waiting = true ∧
      (stopping.dev.core core0.toNat).rk.inShadow = false ∧ (stopping.dev.core core0.toNat).patchQ = [] ∧
      (stopping.dev.core core0.toNat).rk.swap = none ∧ (stopping.dev.core core0.toNat).rk.stopReq = true) ∧
    (halting.dev.pins.clocks = true ∧ (halting.dev.core core0.toNat).halt = 1 ∧ (halting.dev.core core0.toNat).array.job = none ∧
      (halting.dev.core core0.toNat).slate.job = none ∧
      (∀ x ∈ halting.dev.descs, x.core = core0.toNat → x.stage ≠ Stage.running ∧ (x.stage = Stage.ready → x.begun = false))) := by
  refine ⟨?_, ?_, ?_, ?_, ?_, ?_⟩ <;> decide +kernel

/-- States and operands that meet the hypotheses of each clause of `Obligations.ResetsLeaveTheResetState`. -/
theorem witness_ResetsLeaveTheResetState :
    (1000 ≤ 1000) ∧
    (1000 < 1001) := by
  refine ⟨?_, ?_⟩ <;> decide +kernel

/-- States and operands that meet the hypotheses of each clause of `Obligations.ClocksAndSupplies`. -/
theorem witness_ClocksAndSupplies :
    (atReset.dev.pins.thermTrip = false ∧ atReset.dev.pins.pllLocked = false ∧ atReset.dev.pins.oscillator = false) ∧
    (unclocked.dev.pins.thermTrip = false ∧ unclocked.dev.pins.pllLocked = false ∧ unclocked.dev.pins.oscillator = true) ∧
    ((active.dev.pins.thermTrip = true ∨ active.dev.pins.pllLocked = true)) ∧
    (active.dev.pins.clocks = true) ∧
    (atReset.dev.pins.clocks = false) ∧
    (110 ≤ 110 ∧ active.dev.pins.powered = true ∧ 0 < 0x4800000000) ∧
    (110 ≤ 110 ∧ active.dev.pins.powered = true ∧ 0x4800000000 ≤ 0x4800000000) ∧
    (110 ≤ 110 ∧ active.dev.pins.powered = true ∧ 0x4800000000 ≠ cluster0.toNat) ∧
    ((109 < 110 ∨ active.dev.pins.powered = false)) ∧
    (active.dev.pins.vddIo = true) ∧
    (noIo.dev.pins.vddIo = false) ∧
    ((active.dev.pins.clocks = true ∨ active.dev.pins.oscillator = true)) ∧
    (atReset.dev.pins.clocks = false ∧ atReset.dev.pins.oscillator = false) := by
  refine ⟨?_, ?_, ?_, ?_, ?_, ?_, ?_, ?_, ?_, ?_, ?_, ?_, ?_⟩ <;> decide +kernel

/-- States and operands that meet the hypotheses of each clause of `Obligations.ConfigurationAndStartUp`. -/
theorem witness_ConfigurationAndStartUp1 :
    (fromFlash.dev.pins.clocks = true ∧ fullHeader.length = 64 ∧ fromFlash.dev.cfg.load = none ∧ fromFlash.dev.mayBring flash = true ∧
      fromFlash.dev.cfg.state = 0 ∧ fromFlash.dev.fullSource flash none = true ∧ headerBad fullHeader = false ∧ field fullHeader 5 1 = 0 ∧
      (keyOf fromFlash.fuses fromFlash.dev (field fullHeader 6 1)).isSome = true) ∧
    (fromFlash2.dev.pins.clocks = true ∧ repairHeader.length = 64 ∧ fromFlash2.dev.cfg.load = none ∧ fromFlash2.dev.mayBring flash = true ∧
      fromFlash2.dev.cfg.state = 0 ∧ fromFlash2.dev.fullSource flash none = true ∧ (flash ≠ LoadSource.flash ∨ fromFlash2.dev.cfg.second = true) ∧
      (headerBad repairHeader = true ∨ field repairHeader 5 1 ≠ 0 ∨ keyOf fromFlash2.fuses fromFlash2.dev (field repairHeader 6 1) = none)) ∧
    (fromFlash.dev.pins.clocks = true ∧ repairHeader.length = 64 ∧ fromFlash.dev.cfg.load = none ∧ fromFlash.dev.mayBring flash = true ∧
      fromFlash.dev.cfg.state = 0 ∧ fromFlash.dev.fullSource flash none = true ∧ flash = LoadSource.flash ∧ fromFlash.dev.cfg.second = false ∧
      (headerBad repairHeader = true ∨ field repairHeader 5 1 ≠ 0 ∨ keyOf fromFlash.fuses fromFlash.dev (field repairHeader 6 1) = none)) ∧
    (cfg3.dev.pins.clocks = true ∧ zeros64.length = 64 ∧ cfg3.dev.cfg.load = none ∧ cfg3.dev.mayBring flash = true ∧
      if cfg3.dev.cfg.state = 0 then cfg3.dev.fullSource flash none = false else flash = LoadSource.flash ∨ flash = LoadSource.icp ∧
      cfg3.dev.isolated 0 = true) ∧
    (userPart.dev.pins.clocks = true ∧ fullHeader.length = 64 ∧ userPart.dev.cfg.load = none ∧ userPart.dev.mayBring icp = true ∧
      userPart.dev.cfg.state ≠ 0 ∧ icp ≠ LoadSource.flash ∧ (icp = LoadSource.icp → userPart.dev.isolated 0 = false) ∧
      (headerBad fullHeader = true ∨ field fullHeader 5 1 = 0 ∨ userPart.dev.cfg.state ≠ 5)) ∧
    (userPart.dev.pins.clocks = true ∧ repairHeader.length = 64 ∧ userPart.dev.cfg.load = none ∧ userPart.dev.mayBring icp = true ∧
      userPart.dev.cfg.state ≠ 0 ∧ icp ≠ LoadSource.flash ∧ (icp = LoadSource.icp → userPart.dev.isolated 0 = false) ∧ userPart.dev.cfg.state = 5 ∧
      headerBad repairHeader = false ∧ field repairHeader 5 1 = 2 ∧ (keyOf userPart.fuses userPart.dev (field repairHeader 6 1)).isSome = true) ∧
    (userPart.dev.pins.clocks = true ∧ keyRepair.length = 64 ∧ userPart.dev.cfg.load = none ∧ userPart.dev.mayBring icp = true ∧
      userPart.dev.cfg.state ≠ 0 ∧ icp ≠ LoadSource.flash ∧ (icp = LoadSource.icp → userPart.dev.isolated 0 = false) ∧ userPart.dev.cfg.state = 5 ∧
      headerBad keyRepair = false ∧ field keyRepair 5 1 ≠ 0 ∧ keyOf userPart.fuses userPart.dev (field keyRepair 6 1) = none) ∧
    (userPart.dev.pins.clocks = true ∧ narrowHeader.length = 64 ∧ userPart.dev.cfg.load = none ∧ userPart.dev.mayBring icp = true ∧
      userPart.dev.cfg.state ≠ 0 ∧ icp ≠ LoadSource.flash ∧ (icp = LoadSource.icp → userPart.dev.isolated 0 = false) ∧ userPart.dev.cfg.state = 5 ∧
      headerBad narrowHeader = false ∧ field narrowHeader 5 1 = 1 ∧ (keyOf userPart.fuses userPart.dev (field narrowHeader 6 1)).isSome = true ∧
      tabFind userPart.dev.cfg.design.partitions (field narrowHeader 7 1) = some partition3 ∧ field narrowHeader 7 1 ≠ 0 ∧
      (field narrowHeader 12 1 ≠ partition3.die ∨ field narrowHeader 13 1 ≠ partition3.region ∨ field narrowHeader 14 1 ≠ partition3.colLo ∨ field narrowHeader 15 1 ≠ partition3.colHi)) ∧
    (userPartUsed.dev.pins.clocks = true ∧ partHeader.length = 64 ∧ userPartUsed.dev.cfg.load = none ∧ userPartUsed.dev.mayBring icp = true ∧
      userPartUsed.dev.cfg.state ≠ 0 ∧ icp ≠ LoadSource.flash ∧ (icp = LoadSource.icp → userPartUsed.dev.isolated 0 = false) ∧
      userPartUsed.dev.cfg.state = 5 ∧ headerBad partHeader = false ∧ field partHeader 5 1 = 1 ∧
      (keyOf userPartUsed.fuses userPartUsed.dev (field partHeader 6 1)).isSome = true ∧
      tabFind userPartUsed.dev.cfg.design.partitions (field partHeader 7 1) = some partition3 ∧ field partHeader 7 1 ≠ 0 ∧
      field partHeader 12 1 = partition3.die ∧ field partHeader 13 1 = partition3.region ∧ field partHeader 14 1 = partition3.colLo ∧
      field partHeader 15 1 = partition3.colHi ∧ ∃ r ∈ userPartUsed.dev.rounds, r.phase = RoundPhase.running ∧ field partHeader 7 1 ∈ r.deps) ∧
    (userPart.dev.pins.clocks = true ∧ partHeader.length = 64 ∧ userPart.dev.cfg.load = none ∧ userPart.dev.mayBring icp = true ∧
      userPart.dev.cfg.state ≠ 0 ∧ icp ≠ LoadSource.flash ∧ (icp = LoadSource.icp → userPart.dev.isolated 0 = false) ∧ userPart.dev.cfg.state = 5 ∧
      headerBad partHeader = false ∧ field partHeader 5 1 = 1 ∧ (keyOf userPart.fuses userPart.dev (field partHeader 6 1)).isSome = true ∧
      tabFind userPart.dev.cfg.design.partitions (field partHeader 7 1) = some partition3 ∧ field partHeader 7 1 ≠ 0 ∧
      field partHeader 12 1 = partition3.die ∧ field partHeader 13 1 = partition3.region ∧ field partHeader 14 1 = partition3.colLo ∧
      field partHeader 15 1 = partition3.colHi ∧ (∀ r ∈ userPart.dev.rounds, r.phase = RoundPhase.running → field partHeader 7 1 ∉ r.deps)) ∧
    (cfg3.dev.pins.clocks = true ∧ (zeros16.length ≠ 64 ∨ cfg3.dev.cfg.load.isSome = true)) ∧
    (cfg3.dev.pins.clocks = true ∧ (zeros16.length ≠ 576 ∨ cfg3.dev.cfg.load = none)) ∧
    (cfg3.dev.pins.clocks = true ∧ (zeros16.length ≠ 16 ∨ cfg3.dev.cfg.load = none)) ∧
    (cfg3.dev.pins.clocks = true ∧ cfg3.dev.cfg.load = none) := by
  refine ⟨?_, ?_, ?_, ?_, ?_, ?_, ?_, ?_, ?_, ?_, ?_, ?_, ?_, ?_⟩ <;> decide +kernel

/-- States and operands that meet the hypotheses of each clause of `Obligations.ConfigurationAndStartUp`. -/
theorem witness_ConfigurationAndStartUp2 :
    (fullIn.dev.pins.clocks = true ∧ fullIn.dev.cfg.load = some loadFull ∧ fullIn.dev.mayBring loadFull.src = true ∧ loadFull.failed = 0 ∧
      loadFull.keySrc = 0 ∧ loadFull.kind = 0 ∧ (loadFull.src ≠ LoadSource.flash ∨ fullIn.dev.cfg.second = true) ∧ goodRecord.length = 576 ∧
      loadFull.clearing = false ∧ loadFull.taken < loadFull.frames ∧ frameValid (field (slice goodRecord 0 576) 0 3 % 2 ^ 18) = true ∧
      recordOk (slice goodRecord 0 576) = true ∧ (frameDie (field (slice goodRecord 0 576) 0 3 % 2 ^ 18) = 0 ∨ NetworkWhole fullIn.dev) ∧
      frameDie (field (slice goodRecord 0 576) 0 3 % 2 ^ 18) = 0) ∧
    (fullIn.dev.pins.clocks = true ∧ fullIn.dev.cfg.load = some loadFull ∧ fullIn.dev.mayBring loadFull.src = true ∧ loadFull.failed = 0 ∧
      loadFull.keySrc = 0 ∧ loadFull.kind = 0 ∧ (loadFull.src ≠ LoadSource.flash ∨ fullIn.dev.cfg.second = true) ∧ badRecord.length = 576 ∧
      loadFull.clearing = false ∧ loadFull.taken < loadFull.frames ∧ frameValid (field (slice badRecord 0 576) 0 3 % 2 ^ 18) = true ∧
      recordOk (slice badRecord 0 576) = false) ∧
    (fullIn.dev.pins.clocks = true ∧ fullIn.dev.cfg.load = some loadFull ∧ fullIn.dev.mayBring loadFull.src = true ∧ loadFull.failed = 0 ∧
      loadFull.keySrc = 0 ∧ loadFull.kind = 0 ∧ (loadFull.src ≠ LoadSource.flash ∨ fullIn.dev.cfg.second = true) ∧ noFrame.length = 576 ∧
      loadFull.clearing = false ∧ loadFull.taken < loadFull.frames ∧ frameValid (field (slice noFrame 0 576) 0 3 % 2 ^ 18) = false) ∧
    (fullDone.dev.pins.clocks = true ∧ fullDone.dev.cfg.load = some loadTaken ∧ fullDone.dev.mayBring loadTaken.src = true ∧ loadTaken.failed = 0 ∧
      loadTaken.keySrc = 0 ∧ loadTaken.kind = 0 ∧ (loadTaken.src ≠ LoadSource.flash ∨ fullDone.dev.cfg.second = true) ∧ zeros576.length = 576 ∧
      (loadTaken.clearing = true ∨ loadTaken.frames ≤ loadTaken.taken)) ∧
    (fullDone.dev.pins.clocks = true ∧ fullDone.dev.cfg.load = some loadTaken ∧ fullDone.dev.mayBring loadTaken.src = true ∧ loadTaken.failed = 0 ∧
      loadTaken.keySrc = 0 ∧ loadTaken.kind = 0 ∧ (loadTaken.src ≠ LoadSource.flash ∨ fullDone.dev.cfg.second = true) ∧ zeros16.length = 16 ∧
      loadTaken.clearing = false ∧ loadTaken.frames ≤ loadTaken.taken ∧ (∀ i < 16, zeros16.getD i 0 = 0)) ∧
    (fullDone.dev.pins.clocks = true ∧ fullDone.dev.cfg.load = some loadTaken ∧ fullDone.dev.mayBring loadTaken.src = true ∧ loadTaken.failed = 0 ∧
      loadTaken.keySrc = 0 ∧ loadTaken.kind = 0 ∧ (loadTaken.src ≠ LoadSource.flash ∨ fullDone.dev.cfg.second = true) ∧ badTag.length = 16 ∧
      loadTaken.clearing = false ∧ loadTaken.frames ≤ loadTaken.taken ∧ (∃ i < 16, badTag.getD i 0 ≠ 0)) ∧
    (fullIn.dev.pins.clocks = true ∧ fullIn.dev.cfg.load = some loadFull ∧ fullIn.dev.mayBring loadFull.src = true ∧ loadFull.failed = 0 ∧
      loadFull.keySrc = 0 ∧ loadFull.kind = 0 ∧ (loadFull.src ≠ LoadSource.flash ∨ fullIn.dev.cfg.second = true) ∧ zeros16.length = 16 ∧
      (loadFull.clearing = true ∨ loadFull.taken < loadFull.frames)) ∧
    (partIn.dev.pins.clocks = true ∧ partIn.dev.cfg.load = some loadPart ∧ partIn.dev.mayBring loadPart.src = true ∧ loadPart.failed = 0 ∧
      loadPart.keySrc = 0 ∧ loadPart.kind = 1 ∧ loadPart.clearing = false ∧ loadPart.frames ≤ loadPart.taken ∧ zeros16.length = 16 ∧
      (∀ i < 16, zeros16.getD i 0 = 0)) ∧
    (fullClears.dev.pins.clocks = true ∧ fullClears.dev.cfg.load = some loadClears ∧ loadClears.clearing = true ∧ loadClears.feeder = none) ∧
    (fullFed.dev.pins.clocks = true ∧ fullFed.dev.cfg.load = some loadFed ∧ loadFed.clearing = true ∧ loadFed.feeder = some feederWho) ∧
    (partIn.dev.pins.clocks = true ∧ partIn.dev.cfg.load = some loadPart ∧ loadPart.clearing = false) ∧
    (partIn.dev.pins.clocks = true ∧ partIn.dev.cfg.load = some loadPart ∧ partIn.dev.cfg.state = 5 ∧ partIn.dev.isolated 0 = false ∧
      loadPart.failed = 0 ∧ loadPart.kind ≠ 0) ∧
    (cfg0.dev.pins.clocks = true ∧ cfg0.dev.cfg.state = 0) ∧
    (cfg3.dev.pins.clocks = true ∧ cfg3.dev.cfg.state ≠ 0) := by
  refine ⟨⟨by decide +kernel, by decide +kernel, by decide +kernel, by decide +kernel, by decide +kernel, by decide +kernel, by decide +kernel, by decide +kernel, by decide +kernel, by decide +kernel, by decide +kernel, good_record, by decide +kernel, by decide +kernel⟩, ?_, ?_, ?_, ?_, ?_, ?_, ?_, ?_, ?_, ?_, ?_, ?_, ?_⟩ <;> decide +kernel

/-- States and operands that meet the hypotheses of each clause of `Obligations.ConfigurationAndStartUp`. -/
theorem witness_ConfigurationAndStartUp3 :
    (cfg3.dev.pins.clocks = true ∧ cfg3.dev.cfg.state = 3) ∧
    (cfg0.dev.pins.clocks = true ∧ cfg0.dev.cfg.state ≠ 3) ∧
    (start1.dev.pins.clocks = true ∧ start1.dev.cfg.state = 4 ∧ start1.dev.cfg.phase = 1) ∧
    (retention.dev.pins.clocks = true ∧ retention.dev.cfg.state = 4 ∧ retention.dev.cfg.phase = 2 ∧ retention.dev.objNat 16737 2 = 0) ∧
    (start2.dev.pins.clocks = true ∧ start2.dev.cfg.state = 4 ∧ start2.dev.cfg.phase = 2 ∧ start2.dev.objNat 16737 2 ≠ 0) ∧
    (start3.dev.pins.clocks = true ∧ start3.dev.cfg.state = 4 ∧ start3.dev.cfg.phase = 3 ∧ tileBase ≤ 0x200000000000 ∧
      0x200000000000 < tileBase + 0x10000000 ∧ (stateAfter Instr.startupStepEnd start3).dev.regionOf 0x200000000000 ≠ Region.reserved) ∧
    (start3.dev.pins.clocks = true ∧ start3.dev.cfg.state = 4 ∧ start3.dev.cfg.phase = 3 ∧ rkBase ≤ 0x300000000001 ∧
      0x300000000001 < rkBase + 33554432) ∧
    (start3.dev.pins.clocks = true ∧ start3.dev.cfg.state = 4 ∧ start3.dev.cfg.phase = 3 ∧ 0 < tileBase) ∧
    (start4.dev.pins.clocks = true ∧ start4.dev.cfg.state = 4 ∧ start4.dev.cfg.phase = 4 ∧ start4.dev.hbm.waiting = [] ∧ pc3 ∈ twoPcs) ∧
    (start4.dev.pins.clocks = true ∧ start4.dev.cfg.state = 4 ∧ start4.dev.cfg.phase = 4 ∧ start4.dev.hbm.waiting = [] ∧ 0 < 0x4800000000) ∧
    (start4.dev.pins.clocks = true ∧ start4.dev.cfg.state = 4 ∧ start4.dev.cfg.phase = 4 ∧ start4.dev.hbm.waiting = [] ∧ 0x4800000000 ≤ 0x200000000000) := by
  refine ⟨?_, ?_, ?_, ?_, ?_, ?_, ?_, ?_, ?_, ?_, ?_⟩ <;> decide +kernel

/-- States and operands that meet the hypotheses of each clause of `Obligations.Scrubbing`. -/
theorem witness_Scrubbing :
    (userMode.dev.pins.clocks = true ∧ userMode.dev.objNat 16704 1 ≠ 0) ∧
    (scrubOff.dev.pins.clocks = true ∧ scrubOff.dev.objNat 16704 1 = 0) ∧
    (partInvalid.dev.pins.clocks = true ∧ frameValid framePart.toNat = true ∧
      tabGet (2 ^ 18) partInvalid.dev.cfg.scrubAt (frameDie framePart.toNat) ≤ framePart.toNat ∧ frameDie framePart.toNat = 0 ∧
      (∀ (w : BitVec 6), scrubGood.badWord = some w → w.toNat < 36) ∧ partInvalid.dev.frameOwner framePart.toNat ≠ 0 ∧
      (partInvalid.dev.regionState (partInvalid.dev.frameOwner framePart.toNat)).1 ≠ 1) ∧
    (scrubbed5.dev.pins.clocks = true ∧ frameValid framePart.toNat = true ∧
      tabGet (2 ^ 18) scrubbed5.dev.cfg.scrubAt (frameDie framePart.toNat) ≤ framePart.toNat ∧ frameDie framePart.toNat = 0 ∧
      (∀ (w : BitVec 6), scrubGood.badWord = some w → w.toNat < 36) ∧
      (scrubbed5.dev.frameOwner framePart.toNat = 0 ∨ (scrubbed5.dev.regionState (scrubbed5.dev.frameOwner framePart.toNat)).1 = 1) ∧
      (scrubGood.badWord = none ∧ scrubGood.crcBad = false ∨ (tabGet Frame.clear scrubbed5.dev.cfg.frames framePart.toNat).bad = true)) ∧
    (scrubbed5.dev.pins.clocks = true ∧ frameValid framePart.toNat = true ∧
      tabGet (2 ^ 18) scrubbed5.dev.cfg.scrubAt (frameDie framePart.toNat) ≤ framePart.toNat ∧ frameDie framePart.toNat = 0 ∧
      (∀ (w : BitVec 6), scrubCrc.badWord = some w → w.toNat < 36) ∧
      (scrubbed5.dev.frameOwner framePart.toNat = 0 ∨ (scrubbed5.dev.regionState (scrubbed5.dev.frameOwner framePart.toNat)).1 = 1) ∧
      (tabGet Frame.clear scrubbed5.dev.cfg.frames framePart.toNat).bad = false ∧ scrubCrc.badWord = none ∧ scrubCrc.crcBad = true) ∧
    (scrubbed5.dev.pins.clocks = true ∧ frameValid framePart.toNat = true ∧
      tabGet (2 ^ 18) scrubbed5.dev.cfg.scrubAt (frameDie framePart.toNat) ≤ framePart.toNat ∧ frameDie framePart.toNat = 0 ∧
      (∀ (w : BitVec 6), scrubWord.badWord = some w → w.toNat < 36) ∧
      (scrubbed5.dev.frameOwner framePart.toNat = 0 ∨ (scrubbed5.dev.regionState (scrubbed5.dev.frameOwner framePart.toNat)).1 = 1) ∧
      (tabGet Frame.clear scrubbed5.dev.cfg.frames framePart.toNat).bad = false ∧ scrubWord.badWord = some word35) ∧
    (userMode.dev.pins.clocks = true ∧ frameDie frameOther.toNat = 1) ∧
    (userMode.dev.pins.clocks = true ∧
      (frameValid frame0.toNat = false ∨ frame0.toNat < tabGet (2 ^ 18) userMode.dev.cfg.scrubAt (frameDie frame0.toNat) ∨ ∃ w, scrubGood.badWord = some w ∧ 36 ≤ w.toNat)) := by
  refine ⟨?_, ?_, ?_, ?_, ?_, ?_, ?_, ?_⟩ <;> decide +kernel

/-- States and operands that meet the hypotheses of each clause of `Obligations.PowerStates`. -/
theorem witness_PowerStates :
    (active.dev.pins.clocks = true ∧ (active.dev.choose cluster0.toNat).clusterIdle cluster0.toNat = true ∧
      (active.dev.cluster cluster0.toNat).state < active.dev.chosenState cluster0.toNat ∧
      heldLong (active.dev.chosenState cluster0.toNat) 4000000 = true ∧ (active.dev.cluster cluster0.toNat).wake = false) ∧
    (active.dev.pins.clocks = true ∧
      ((active.dev.choose cluster0.toNat).clusterIdle cluster0.toNat = false ∨ active.dev.chosenState cluster0.toNat ≤ (active.dev.cluster cluster0.toNat).state ∨ heldLong (active.dev.chosenState cluster0.toNat) 0 = false ∨ (active.dev.cluster cluster0.toNat).wake = true)) ∧
    (active.dev.pins.clocks = true ∧ (active.dev.cluster cluster0.toNat).state = 0) ∧
    (asking.dev.pins.clocks = true ∧ (asking.dev.cluster cluster0.toNat).state ≠ 0) ∧
    (asking.dev.pins.clocks = true ∧ (asking.dev.cluster cluster0.toNat).wake = true ∧ (asking.dev.cluster cluster0.toNat).granted = false ∧
      (asking.dev.cluster cluster0.toNat).state ≠ 0 ∧ asking.dev.slotsWithin 1 1000000 = true ∧
      (∀ q < 16, (asking.dev.cluster q).wake = true → (asking.dev.cluster q).granted = false → asking.dev.rankOf cluster0.toNat ≤ asking.dev.rankOf q)) ∧
    (twoAsking.dev.pins.clocks = true ∧ (twoAsking.dev.cluster cluster1.toNat).wake = true ∧ (twoAsking.dev.cluster cluster1.toNat).granted = false ∧
      (twoAsking.dev.cluster cluster1.toNat).state ≠ 0 ∧ twoAsking.dev.slotsWithin 1 4000000 = true ∧ ∃ q < 16, (twoAsking.dev.cluster q).wake = true ∧
      (twoAsking.dev.cluster q).granted = false ∧ twoAsking.dev.rankOf q < twoAsking.dev.rankOf cluster1.toNat) ∧
    (granted.dev.pins.clocks = true ∧ (granted.dev.cluster cluster0.toNat).granted = true ∧ (granted.dev.cluster cluster0.toNat).noRetention = false ∧
      (granted.dev.cluster cluster0.toNat).waiting = [] ∧ exitNs (granted.dev.cluster cluster0.toNat).state true ≤ 1000000) ∧
    (active.dev.pins.clocks = true ∧ (active.dev.cluster cluster0.toNat).granted = false) := by
  refine ⟨?_, ?_, ?_, ?_, ?_, ?_, ?_, ?_⟩ <;> decide +kernel

/-- States and operands that meet the hypotheses of each clause of `Obligations.AllowancesAndAgeing`. -/
theorem witness_AllowancesAndAgeing :
    (active.dev.pins.clocks = true ∧ 0 < 16) ∧
    (active.dev.pins.clocks = true ∧ 10000 ≠ cluster0.toNat) ∧
    (active.dev.pins.clocks = true ∧ 1 ≤ (active.dev.cluster cluster0.toNat).capAllowance ∧ (active.dev.cluster cluster0.toNat).capAllowance ≤ 16 ∧
      1 ≤ (active.dev.cluster cluster0.toNat).allowance ∧ (active.dev.cluster cluster0.toNat).allowance ≤ 16) ∧
    (drawing.dev.pins.clocks = true ∧ drawing.dev.objNat 8544 3 * 1000 < drawing.dev.power.average ∧
      1 < (drawing.dev.cluster cluster0.toNat).capAllowance) ∧
    (active.dev.pins.clocks = true ∧ 100 ≤ 105 ∧ 1 < (active.dev.cluster cluster0.toNat).allowance) ∧
    (allowed9.dev.pins.clocks = true ∧ 98 ≤ 98 ∧ (allowed9.dev.cluster cluster0.toNat).allowance < 16) ∧
    (active.dev.pins.clocks = true ∧ 105 ≤ 105 ∧ 0 / 8 = cluster0.toNat) ∧
    (active.dev.pins.clocks = true ∧ active.dev.clusterIdle cluster0.toNat = true ∧ (active.dev.cluster cluster0.toNat).state ≤ 1 ∧ 10000 ≤ 10000) ∧
    (active.dev.pins.clocks = true ∧ (active.dev.clusterIdle cluster0.toNat = false ∨ 2 ≤ (active.dev.cluster cluster0.toNat).state ∨ 9999 < 10000)) ∧
    (active.dev.pins.clocks = true ∧ active.dev.objNat 16737 4 ≤ 10000) ∧
    (active.dev.pins.clocks = true ∧ 0 < active.dev.objNat 16737 4) ∧
    (active.dev.pins.clocks = true ∧ (∀ q < 16, (active.dev.cluster q).measurements = 0)) ∧
    (active.dev.pins.clocks = true ∧ active.dev.power.setpoint = active.dev.power.target) ∧
    (rising.dev.pins.clocks = true ∧ true = true ∧ rising.dev.power.setpoint + 5 < rising.dev.power.target) ∧
    (falling.dev.pins.clocks = true ∧ true = true ∧ falling.dev.power.target + 5 < falling.dev.power.setpoint) ∧
    (rising.dev.pins.clocks = true ∧ false = false ∧ rising.dev.objNat 16737 2 ≠ 0 ∧ rising.dev.power.setpoint ≠ rising.dev.power.target ∧
      rising.dev.power.tries < 2) ∧
    (falling.dev.pins.clocks = true ∧ false = false ∧ falling.dev.objNat 16737 2 ≠ 0 ∧ falling.dev.power.setpoint ≠ falling.dev.power.target ∧
      2 ≤ falling.dev.power.tries) := by
  refine ⟨?_, ?_, ?_, ?_, ?_, ?_, ?_, ?_, ?_, ?_, ?_, ?_, ?_, ?_, ?_, ?_, ?_⟩ <;> decide +kernel

/-- States and operands that meet the hypotheses of each clause of `Obligations.DictionaryObjects`. -/
theorem witness_DictionaryObjects :
    (Reaches upState mgmt ∧ objInfo (8190) (1) = none) ∧
    (Reaches upState mgmt ∧ four.length = 4 ∧ 1 ≤ leNat four ∧ leNat four ≤ 1000000) ∧
    (Reaches upState mgmt ∧ [0, 0, 0, 0].length = 4 ∧ (leNat [0, 0, 0, 0] = 0 ∨ 1000000 < leNat [0, 0, 0, 0])) ∧
    (Reaches upState mgmt ∧ [1].length ≠ 4) ∧
    (Reaches upState mgmt ∧ 4095 < 4096 ∧ four.length = 4 ∧ upState.dev.pins.clocks = true) ∧
    (Reaches fenceStaged mgmt ∧ objInfo (16736) (1) = some (info fenceStaged) ∧ (info fenceStaged).access = OAccess.staged ∧
      (info fenceStaged).type.lengthOk [1].length = true ∧ ObjReached fenceStaged.dev (16736) (1)) ∧
    (Reaches seamless mgmt ∧ objInfo (16497) (101) = some (infoRing seamless) ∧ (infoRing seamless).access = OAccess.staged ∧
      (infoRing seamless).type.lengthOk ring128.length = true ∧ seamless.dev.seamCauses (16497) (101) ≠ []) ∧
    (Reaches fenceBad mgmt ∧ 16736 ∈ groups ∧ lowest (fenceBad.dev.commitCauses (16736) fenceBad.dev.staged) = some (lowestCause fenceBad)) ∧
    (Reaches seamless mgmt ∧ 16497 ∈ groups ∧ seamless.dev.commitCauses (16497) seamless.dev.staged = [] ∧ 1 ∈ groupSubs (16497)) ∧
    (Reaches seamless mgmt ∧ 16497 ∈ groups ∧ seamless.dev.commitCauses (16497) seamless.dev.staged = [] ∧ 1 < 256 ∧ 1 ≠ 16497) ∧
    (Reaches translatorBad mgmt ∧ translatorBad.dev.translatorCommit = Except.error (refusedWith translatorBad)) ∧
    (Reaches translatorStaged mgmt ∧ translatorStaged.dev.translatorCommit = Except.ok (committed translatorStaged) ∧
      (List.map Prod.fst translatorStaged.dev.staging).Nodup ∧ translatorGood ∈ translatorStaged.dev.staging ∧ isEntryKey translatorGood.1 = true) ∧
    (Reaches fused1 mgmt ∧ fused1.fuses.security.getLsbD 0 = true) ∧
    (Reaches upState mgmt ∧ upState.fuses.security.getLsbD 0 = false ∧ upState.dev.cfg.load = none ∧ upState.dev.cfg.feeds = [] ∧ four.length < 64) := by
  refine ⟨?_, ?_, ?_, ?_, ?_, ?_, ?_, ?_, ?_, ?_, ?_, ?_, ?_, ?_⟩ <;> decide +kernel

/-- States and operands that meet the hypotheses of each clause of `Obligations.ProfilesRestoreDefaults`. -/
theorem witness_ProfilesRestoreDefaults :
    Reaches upState mgmt ∧ upState.dev.rounds = [] ∧ (∀ n : Nat, upState.dev.ringsBusy n = false) ∧ (∀ e ∈ upState.dev.streams, e.2.enable = false) ∧
      budgetOk (topoOf (upState.dev.obj 16657 1)) upState.dev.saeri.departed.contains (upState.dev.objNat 4368 1) 4000 = true ∧
      16736 ∈ (Instr.powerProfile Transport.mgmt 0, [16736, 16737]).2 ∧ 1 ∈ groupSubs 16736 := by
  and_intros <;> first | decide +kernel | exact fun _ => rfl

/-- States and operands that meet the hypotheses of each clause of `Obligations.DictionaryControls`. -/
theorem witness_DictionaryControls :
    (Reaches upState mgmt ∧ (core0.toNat < 64 ∨ NetworkWhole upState.dev) ∧ core0.toNat < 64) ∧
    (Reaches idleState mgmt ∧ (core0.toNat < 64 ∨ NetworkWhole idleState.dev) ∧ key32.length = 32 ∧ idleState.dev.cfg.state = 0 ∧
      idleState.fuses.security.getLsbD 5 = false) ∧
    (Reaches upState mgmt ∧ (core0.toNat < 64 ∨ NetworkWhole upState.dev) ∧
      (key32.length ≠ 32 ∨ upState.dev.cfg.state ≠ 0 ∨ upState.fuses.security.getLsbD 5 = true)) ∧
    (Reaches idleState mgmt ∧ (core0.toNat < 64 ∨ NetworkWhole idleState.dev) ∧ mgmt = Transport.mgmt ∧ idleState.dev.cfg.state = 0) ∧
    (Reaches upState pcie ∧ (core0.toNat < 64 ∨ NetworkWhole upState.dev) ∧ pcie ≠ Transport.mgmt) ∧
    (Reaches idleState mgmt ∧ (core0.toNat < 64 ∨ NetworkWhole idleState.dev) ∧ mgmt = Transport.mgmt ∧ idleState.dev.cfg.state = 0 ∧
      idleState.fuses.security.getLsbD 4 = false ∧ idleState.fuses.efuseKey = none ∧ key32.length = 32) ∧
    (Reaches upState mgmt ∧ (core0.toNat < 64 ∨ NetworkWhole upState.dev) ∧
      (mgmt ≠ Transport.mgmt ∨ upState.dev.cfg.state ≠ 0 ∨ upState.fuses.security.getLsbD 4 = true ∨ key32.length ≠ 32)) ∧
    (Reaches upState mgmt ∧ (core0.toNat < 64 ∨ NetworkWhole upState.dev) ∧ (upState.dev.core core0.toNat).rk.mode ≠ RkMode.running ∧
      (upState.dev.core core0.toNat).rk.abank = false) ∧
    (Reaches rkRunning mgmt ∧ (core0.toNat < 64 ∨ NetworkWhole rkRunning.dev) ∧ (rkRunning.dev.core core0.toNat).rk.mode = RkMode.running ∧
      (rkRunning.dev.core core0.toNat).rk.abank = false) ∧
    (Reaches bankOne mgmt ∧ (core0.toNat < 64 ∨ NetworkWhole bankOne.dev) ∧ (bankOne.dev.core core0.toNat).rk.abank = true) ∧
    (Reaches upState mgmt ∧ (core0.toNat < 64 ∨ NetworkWhole upState.dev) ∧ upState.dev.rounds = []) ∧
    (Reaches openRound mgmt ∧ (core0.toNat < 64 ∨ NetworkWhole openRound.dev) ∧ openRound.dev.rounds ≠ []) := by
  refine ⟨?_, ?_, ?_, ?_, ?_, ?_, ?_, ?_, ?_, ?_, ?_, ?_⟩ <;> decide +kernel

/-- States and operands that meet the hypotheses of each clause of `Obligations.PortControls`. -/
theorem witness_PortControls :
    (Reaches upState mgmt ∧ (port0.toNat < 8 ∧ lane0.toNat < 64 ∨ NetworkWhole upState.dev) ∧ port0.toNat < 8) ∧
    (Reaches upState mgmt ∧ (port0.toNat < 8 ∧ lane0.toNat < 64 ∨ NetworkWhole upState.dev) ∧ lane0.toNat < 64) ∧
    (Reaches upState mgmt ∧ (port0.toNat < 8 ∧ lane0.toNat < 64 ∨ NetworkWhole upState.dev) ∧ upState.dev.cfg.state = 5 ∧
      (upState.dev.port port0.toNat).enabled = false ∧ 1 ≠ port0.toNat) ∧
    (Reaches port3State mgmt ∧ (port0.toNat < 8 ∧ lane0.toNat < 64 ∨ NetworkWhole port3State.dev) ∧ port3State.dev.cfg.state = 5 ∧
      (port3State.dev.port port0.toNat).enabled = true) ∧
    (Reaches idleState mgmt ∧ (port0.toNat < 8 ∧ lane0.toNat < 64 ∨ NetworkWhole idleState.dev) ∧ idleState.dev.cfg.state ≠ 5) ∧
    (Reaches upState mgmt ∧ (port0.toNat < 8 ∧ lane0.toNat < 64 ∨ NetworkWhole upState.dev) ∧ upState.dev.cfg.state = 5 ∧
      (upState.dev.port port0.toNat).step ≠ 7) ∧
    (Reaches port7State mgmt ∧ (port0.toNat < 8 ∧ lane0.toNat < 64 ∨ NetworkWhole port7State.dev) ∧ port7State.dev.cfg.state = 5 ∧
      (port7State.dev.port port0.toNat).step = 7) ∧
    (Reaches port3State mgmt ∧ (port0.toNat < 8 ∧ lane0.toNat < 64 ∨ NetworkWhole port3State.dev) ∧ 1 ≤ 66 ∧ 66 ≤ 66 ∧
      (port3State.dev.port (lane0.toNat / 8)).step = 3) ∧
    (Reaches upState mgmt ∧ (port0.toNat < 8 ∧ lane0.toNat < 64 ∨ NetworkWhole upState.dev) ∧ 1 ≤ 66 ∧ 66 ≤ 66 ∧
      (upState.dev.port (lane0.toNat / 8)).step ≠ 3) ∧
    (Reaches upState mgmt ∧ (port0.toNat < 8 ∧ lane0.toNat < 64 ∨ NetworkWhole upState.dev) ∧ (67 = 0 ∨ 66 < 67)) ∧
    (Reaches upState mgmt ∧ (port0.toNat < 8 ∧ lane0.toNat < 64 ∨ NetworkWhole upState.dev) ∧ (upState.dev.port (lane0.toNat / 8)).enabled = false) ∧
    (Reaches port3State mgmt ∧ (port0.toNat < 8 ∧ lane0.toNat < 64 ∨ NetworkWhole port3State.dev) ∧
      (port3State.dev.port (lane0.toNat / 8)).enabled = true) ∧
    (Reaches testedLane mgmt ∧ (port0.toNat < 8 ∧ lane0.toNat < 64 ∨ NetworkWhole testedLane.dev) ∧ testedLane.dev.pins.clocks = true ∧
      (testedLane.dev.lane lane0.toNat).test = true) ∧
    (Reaches upState mgmt ∧ (port0.toNat < 8 ∧ lane0.toNat < 64 ∨ NetworkWhole upState.dev) ∧ upState.dev.rounds = [] ∧
      (∀ m < 16, (upState.dev.port m).step ≠ 7) ∧ 0 < 16) ∧
    (Reaches upState mgmt ∧ (port0.toNat < 8 ∧ lane0.toNat < 64 ∨ NetworkWhole upState.dev) ∧ upState.dev.rounds = [] ∧ 0 < 16) ∧
    (Reaches peerRound mgmt ∧ (port0.toNat < 8 ∧ lane0.toNat < 64 ∨ NetworkWhole peerRound.dev) ∧ peerRound.dev.rounds ≠ []) ∧
    (Reaches peerRound mgmt ∧ (port0.toNat < 8 ∧ lane0.toNat < 64 ∨ NetworkWhole peerRound.dev) ∧
      peerRound.dev.round? roundNo = some (firstRound peerRound) ∧ (firstRound peerRound).hold = Hold.peer ∧
      (firstRound peerRound).phase ≠ RoundPhase.running) ∧
    (Reaches upState mgmt ∧ (port0.toNat < 8 ∧ lane0.toNat < 64 ∨ NetworkWhole upState.dev) ∧ upState.dev.round? roundNo = none) ∧
    (Reaches openRound mgmt ∧ (port0.toNat < 8 ∧ lane0.toNat < 64 ∨ NetworkWhole openRound.dev) ∧
      openRound.dev.round? roundNo = some (firstRound openRound) ∧
      ((firstRound openRound).hold ≠ Hold.peer ∨ (firstRound openRound).phase = RoundPhase.running)) := by
  refine ⟨?_, ?_, ?_, ?_, ?_, ?_, ?_, ?_, ?_, ?_, ?_, ?_, ?_, ?_, ?_, ?_, ?_, ?_, ?_⟩ <;> decide +kernel

/-- States and operands that meet the hypotheses of each clause of `Obligations.Transfers`. -/
theorem witness_Transfers :
    (upState.dev.pins.clocks = true ∧ readFrame.cmd = 1 ∧ BitVec.toNat readFrame.flags < 4 ∧
      upState.dev.findTransfer Transport.mgmt readFrame.tid = none ∧
      (List.filter (fun t => sameBus t.via Transport.mgmt) upState.dev.dict.transfers).length < 4 ∧ 4 + length2000.length ≤ 56 ∧
      Dev.objRead upState.fuses upState.dev Transport.mgmt readFrame.index.toNat (BitVec.toNat readFrame.sub) (BitVec.getLsbD readFrame.flags 1) = Except.ok length2000) ∧
    (upState.dev.pins.clocks = true ∧ noObject.cmd = 1 ∧ BitVec.toNat noObject.flags < 4 ∧ upState.dev.findTransfer Transport.mgmt noObject.tid = none ∧
      (List.filter (fun t => sameBus t.via Transport.mgmt) upState.dev.dict.transfers).length < 4 ∧
      Dev.objRead upState.fuses upState.dev Transport.mgmt noObject.index.toNat (BitVec.toNat noObject.sub) (BitVec.getLsbD noObject.flags 1) = Except.error 16777217) ∧
    (fourTransfers.dev.pins.clocks = true ∧ readFrame.cmd = 1 ∧ BitVec.toNat readFrame.flags < 4 ∧
      fourTransfers.dev.findTransfer Transport.mgmt readFrame.tid = none ∧
      ¬(List.filter (fun t => sameBus t.via Transport.mgmt) fourTransfers.dev.dict.transfers).length < 4) ∧
    (upState.dev.pins.clocks = true ∧ writeFrame.cmd = 2 ∧ BitVec.toNat writeFrame.flags = 1 ∧ writeFrame.seq = 0 ∧
      upState.dev.findTransfer Transport.mgmt writeFrame.tid = none ∧
      (List.filter (fun t => sameBus t.via Transport.mgmt) upState.dev.dict.transfers).length < 4 ∧ writeFrame.data = leBytes 4 four.length ++ four ∧
      four.length ≤ 52 ∧ ¬(writeFrame.index.toNat = 8512 ∧ BitVec.toNat writeFrame.sub = 2) ∧
      dictWrite upState.fuses upState.dev Transport.mgmt writeFrame.index.toNat (BitVec.toNat writeFrame.sub) four = Except.ok (fusesBy upState, devBy upState)) ∧
    (transferState.dev.pins.clocks = true ∧ frame4.cmd = 4 ∧ BitVec.toNat frame4.flags = 0 ∧
      transferState.dev.findTransfer Transport.mgmt frame4.tid = some transfer0 ∧ transfer0.write = false ∧ frame4.seq.toNat + 1 = transfer0.next) ∧
    (transferState.dev.pins.clocks = true ∧ frame5.cmd = 5 ∧ BitVec.toNat frame5.flags = 0 ∧
      transferState.dev.findTransfer Transport.mgmt frame5.tid = some transfer0 ∧ ¬(transfer0.index.toNat = 8512 ∧ BitVec.toNat transfer0.sub = 2)) ∧
    (upState.dev.pins.clocks = true ∧ frame5.cmd = 5 ∧ BitVec.toNat frame5.flags = 0 ∧ upState.dev.findTransfer Transport.mgmt frame5.tid = none) ∧
    (transferState.dev.pins.clocks = true ∧ transferState.dev.findTransfer Transport.mgmt 7 = some transfer0 ∧
      ¬(transfer0.index.toNat = 8512 ∧ BitVec.toNat transfer0.sub = 2) ∧ 100 ≤ 100) ∧
    (outState.dev.pins.clocks = true ∧ 5 < 100) ∧
    (upState.dev.pins.clocks = true ∧ (7 < 8 ∨ 2048 < 7)) ∧
    (upState.dev.pins.clocks = true ∧ 8 ≤ 8 ∧ 8 ≤ 2048) ∧
    (upState.dev.pins.clocks = true ∧ upState.dev.dict.out = []) ∧
    (outState.dev.pins.clocks = true ∧ outState.dev.dict.out = (Transport.pcie, readFrame) :: noFrames) := by
  refine ⟨?_, ?_, ?_, ?_, ?_, ?_, ?_, ?_, ?_, ?_, ?_, ?_, ?_⟩ <;> decide +kernel

/-- States and operands that meet the hypotheses of each clause of `Obligations.HostPort`. -/
theorem witness_HostPort :
    (plain.dev.pins.clocks = true ∧ FreshIds plain.dev ∧ MemoryReady plain.dev (4096) 4) ∧
    (plain.dev.pins.clocks = true ∧ FreshIds plain.dev ∧ MemoryWritable plain.dev (4096) bytes4.length) ∧
    (plain.dev.pins.clocks = true ∧ FreshIds plain.dev ∧ plain.dev.imports = [] ∧ 0 < 4 ∧ plain.dev.regionOfRange (0x4800000000) 4 = Region.reserved) ∧
    (noWindow.dev.pins.clocks = true ∧ FreshIds noWindow.dev ∧ noWindow.dev.objNat 8560 2 ≠ 1) ∧
    (plain.dev.pins.clocks = true ∧ FreshIds plain.dev ∧ (List.map Round.number plain.dev.rounds).Nodup ∧ plain.dev.objNat 8560 2 = 1) := by
  refine ⟨?_, ?_, ?_, ?_, ?_⟩ <;> decide +kernel

/-- States and operands that meet the hypotheses of each clause of `Obligations.FabricPortCommands`. -/
theorem witness_FabricPortCommands1 :
    (PortAccepts liveState core0 fabZero 0 ∧ (0 = 0 ∨ 6 < 0)) ∧
    (PortAccepts liveState core0 fabRsvd 0 ∧ fabRsvd.rsvd ≠ 0) ∧
    (PortAccepts liveState core0 fabRound 0 ∧ fabRound.rsvd = 0 ∧ fabRound.rvalid = true ∧ liveState.dev.round? fabRound.round = none) ∧
    (PortAccepts endedPort core0 fabRound 0 ∧ fabRound.rsvd = 0 ∧ fabRound.rvalid = true ∧
      endedPort.dev.round? fabRound.round = some (firstRound endedPort) ∧
      ((firstRound endedPort).phase ≠ RoundPhase.running ∨ fabRound.attempt.toNat ≠ min (firstRound endedPort).attempt 7) ∧
      List.find? (fun e => decide (fabRound.attempt.toNat = min e.1 7)) (firstRound endedPort).endings = some ended0) ∧
    (2 ≠ 1 ∧ 2 ≠ 0 ∧ 2 ≤ 6) ∧
    (FreshIds ringEmpty.dev ∧ PortTakes ringEmpty core0 fabZero 0 ∧
      fabZero.addr.toNat / 4096 = (fabZero.addr.toNat + (BitVec.toNat fabZero.lenm1 + 1) - 1) / 4096 ∧
      MemoryReady ringEmpty.dev fabZero.addr.toNat (BitVec.toNat fabZero.lenm1 + 1)) ∧
    (FreshIds peeredAll.dev ∧ PortTakes peeredAll core0 addHere ((BitVec.toNat addHere.lenm1 + 1 + 63) / 64) ∧
      addHere.addr.toNat / 4096 = (addHere.addr.toNat + (BitVec.toNat addHere.lenm1 + 1) - 1) / 4096 ∧
      MemoryWritable peeredAll.dev addHere.addr.toNat (BitVec.toNat addHere.lenm1 + 1)) ∧
    (FreshIds portMem.dev ∧ PortTakes portMem core0 fabCross 0 ∧
      fabCross.addr.toNat / 4096 ≠ (fabCross.addr.toNat + (BitVec.toNat fabCross.lenm1 + 1) - 1) / 4096) ∧
    (FreshIds portMem.dev ∧ PortTakes portMem core0 fabCross3 ((BitVec.toNat fabCross3.lenm1 + 1 + 63) / 64) ∧
      fabCross3.addr.toNat / 4096 ≠ (fabCross3.addr.toNat + (BitVec.toNat fabCross3.lenm1 + 1) - 1) / 4096) ∧
    (FreshIds injectOff.dev ∧ PortTakes injectOff core0 injectCmd 2 ∧ injectCmd.lenm1 = 0 ∧ injectCmd.addr.toNat < 256 ∧
      (injectOff.dev.fabricStream injectCmd.addr.toNat = false ∨ (injectOff.dev.stream injectCmd.addr.toNat).enable = false)) ∧
    (FreshIds injectFull.dev ∧ PortTakes injectFull core0 injectCmd 2 ∧ injectCmd.lenm1 = 0 ∧ injectCmd.addr.toNat < 256 ∧
      injectFull.dev.fabricStream injectCmd.addr.toNat = true ∧ (injectFull.dev.stream injectCmd.addr.toNat).enable = true ∧
      (injectFull.dev.stream injectCmd.addr.toNat).full = true) ∧
    (FreshIds injectOn.dev ∧ PortTakes injectOn core0 injectCmd 2 ∧ injectCmd.lenm1 = 0 ∧ injectCmd.addr.toNat < 256 ∧
      injectOn.dev.fabricStream injectCmd.addr.toNat = true ∧ (injectOn.dev.stream injectCmd.addr.toNat).enable = true ∧
      (injectOn.dev.stream injectCmd.addr.toNat).full = false ∧ injectOn.dev.injecting injectCmd.addr.toNat = false ∧
      injectOn.dev.injectLate core0.toNat injectCmd.addr.toNat = false ∧
      MemoryWritable injectOn.dev ((injectOn.dev.stream injectCmd.addr.toNat).ringBase.toNat + 128 * (injectOn.dev.stream injectCmd.addr.toNat).tail.toNat) 128) ∧
    (FreshIds portMem.dev ∧ portMem.dev.pins.clocks = true ∧
      (∀ q ∈ (portMem.dev.core core0.toNat).port.injects, portMem.dev.injectOpen q.addr.toNat = true ∧ (portMem.dev.stream q.addr.toNat).full = true)) ∧
    (FreshIds resumeOn.dev ∧ resumeOn.dev.pins.clocks = true ∧ (resumeOn.dev.core core0.toNat).port.injects = injectCmd :: none0 ∧
      resumeOn.dev.fabricStream injectCmd.addr.toNat = true ∧ (resumeOn.dev.stream injectCmd.addr.toNat).enable = true ∧
      (resumeOn.dev.stream injectCmd.addr.toNat).full = false ∧ resumeOn.dev.injecting injectCmd.addr.toNat = false ∧
      resumeOn.dev.injectLate core0.toNat injectCmd.addr.toNat = false ∧ (3, injectCmd) ∈ (resumeOn.dev.core core0.toNat).port.outstanding ∧
      injectCmd.beats.length = 128 ∧
      MemoryWritable resumeOn.dev ((resumeOn.dev.stream injectCmd.addr.toNat).ringBase.toNat + 128 * (resumeOn.dev.stream injectCmd.addr.toNat).tail.toNat) 128) := by
  refine ⟨?_, ?_, ?_, ?_, ?_, ?_, ?_, ?_, ?_, ?_, ?_, ?_, ?_, ?_⟩ <;> decide +kernel

/-- States and operands that meet the hypotheses of each clause of `Obligations.FabricPortCommands`. -/
theorem witness_FabricPortCommands2 :
    (FreshIds resumeOff.dev ∧ resumeOff.dev.pins.clocks = true ∧ (resumeOff.dev.core core0.toNat).port.injects = injectCmd :: none0 ∧
      resumeOff.dev.injectOpen injectCmd.addr.toNat = false ∧ (3, injectCmd) ∈ (resumeOff.dev.core core0.toNat).port.outstanding) ∧
    (FreshIds resumeGone.dev ∧ resumeGone.dev.pins.clocks = true ∧ (resumeGone.dev.core core0.toNat).port.injects = injectCmd :: none0 ∧
      resumeGone.dev.injectOpen injectCmd.addr.toNat = false ∧ (3, injectCmd) ∉ (resumeGone.dev.core core0.toNat).port.outstanding) ∧
    (PortTakes liveState core0 fabZero 0 ∧ fabZero.lenm1 = 0 ∧ fabZero.addr.toNat < 16 ∧
      (liveState.dev.ringCfg core0.toNat fabZero.addr.toNat).port = false) ∧
    (PortTakes ringEmpty core0 fabZero 0 ∧ fabZero.lenm1 = 0 ∧ fabZero.addr.toNat < 16 ∧
      (ringEmpty.dev.ringCfg core0.toNat fabZero.addr.toNat).port = true ∧ (ringEmpty.dev.ring core0.toNat fabZero.addr.toNat).queue = []) ∧
    (PortTakes ringOpen core0 fabZero 0 ∧ fabZero.lenm1 = 0 ∧ fabZero.addr.toNat < 16 ∧
      (ringOpen.dev.ringCfg core0.toNat fabZero.addr.toNat).port = true ∧
      (ringOpen.dev.ring core0.toNat fabZero.addr.toNat).queue = handle0 :: noHandles ∧ handle0.committed = false) ∧
    (PortTakes ringReady core0 fabZero 0 ∧ fabZero.lenm1 = 0 ∧ fabZero.addr.toNat < 16 ∧
      (ringReady.dev.ringCfg core0.toNat fabZero.addr.toNat).port = true ∧
      (ringReady.dev.ring core0.toNat fabZero.addr.toNat).queue = handle1 :: noHandles ∧ handle1.committed = true) ∧
    (PortTakes ringEmpty core0 fabZero 0 ∧ fabZero.lenm1 = 0 ∧ fabZero.addr.toNat < 128 ∧
      (∀ e ∈ (ringEmpty.dev.ring core0.toNat (fabZero.addr.toNat % 16)).held, e.ofPort (fabZero.addr.toNat / 16) = false)) ∧
    (PortTakes ringHeld core0 fabZero 0 ∧ fabZero.lenm1 = 0 ∧ fabZero.addr.toNat < 128 ∧
      held1 ∈ (ringHeld.dev.ring core0.toNat (fabZero.addr.toNat % 16)).held ∧ held1.ofPort (fabZero.addr.toNat / 16) = true) ∧
    (PortTakes peeredAll core0 addHere 1 ∧ addHere.lenm1 = 0 ∧ addHere.addr.toNat < 2 ^ 24 ∧
      peeredAll.dev.isHere (BitVec.ofNat 12 (addHere.addr.toNat / 2 ^ 12)) = true) ∧
    (PortTakes peeredAll core0 addUnlisted 1 ∧ addUnlisted.lenm1 = 0 ∧ addUnlisted.addr.toNat < 2 ^ 24 ∧
      peeredAll.dev.isHere (BitVec.ofNat 12 (addUnlisted.addr.toNat / 2 ^ 12)) = false ∧
      (topoOf (peeredAll.dev.obj 16657 1)).pos? (addUnlisted.addr.toNat / 2 ^ 12) = none) ∧
    (PortTakes peeredLost core0 addPeer 1 ∧ addPeer.lenm1 = 0 ∧ addPeer.addr.toNat < 2 ^ 24 ∧
      peeredLost.dev.isHere (BitVec.ofNat 12 (addPeer.addr.toNat / 2 ^ 12)) = false ∧
      (topoOf (peeredLost.dev.obj 16657 1)).pos? (addPeer.addr.toNat / 2 ^ 12) ≠ none ∧
      peeredLost.dev.nodeLost (BitVec.ofNat 12 (addPeer.addr.toNat / 2 ^ 12)) = true) ∧
    (PortTakes peeredAll core0 addPeer 1 ∧ addPeer.lenm1 = 0 ∧ addPeer.addr.toNat < 2 ^ 24 ∧
      peeredAll.dev.isHere (BitVec.ofNat 12 (addPeer.addr.toNat / 2 ^ 12)) = false ∧
      (topoOf (peeredAll.dev.obj 16657 1)).pos? (addPeer.addr.toNat / 2 ^ 12) ≠ none ∧
      peeredAll.dev.nodeLost (BitVec.ofNat 12 (addPeer.addr.toNat / 2 ^ 12)) = false) ∧
    (delivered0.dev.pins.clocks = true ∧ (delivered0.dev.core core0.toNat).port.delivered = (1, part0) :: noDelivered ∧
      word0.toNat / 2 ^ 124 = 1 / 2 ^ 124 ∧ word0.toNat / 2 ^ 118 % 64 = 1 / 2 ^ 82 % 64 ∧ word0.toNat / 2 ^ 110 % 256 = 0 ∧
      beats64.length = if part0.data = none then 64 * ((part0.len + 63) / 64) else 0) ∧
    (delivered0.dev.pins.clocks = true ∧ (delivered0.dev.core core0.toNat).port.delivered = (1, part0) :: noDelivered ∧
      word0.toNat / 2 ^ 124 = 1 / 2 ^ 124 ∧ word0.toNat / 2 ^ 118 % 64 = 1 / 2 ^ 82 % 64 ∧ word0.toNat / 2 ^ 110 % 256 = 0 ∧
      ¬([] : List Byte).length = if part0.data = none then 64 * ((part0.len + 63) / 64) else 0) := by
  refine ⟨?_, ?_, ?_, ?_, ?_, ?_, ?_, ?_, ?_, ?_, ?_, ?_, ?_, ?_⟩ <;> decide +kernel

/-- States and operands that meet the hypotheses of each clause of `Obligations.FabricPortCommands`. -/
theorem witness_FabricPortCommands3 :
    (delivered0.dev.pins.clocks = true ∧ (delivered0.dev.core core0.toNat).port.delivered = (1, part0) :: noDelivered ∧
      wordFails.toNat / 2 ^ 124 = 1 / 2 ^ 124 ∧ wordFails.toNat / 2 ^ 118 % 64 = 1 / 2 ^ 82 % 64 ∧ wordFails.toNat / 2 ^ 110 % 256 ≠ 0) ∧
    (delivered0.dev.pins.clocks = true ∧ (delivered0.dev.core core0.toNat).port.delivered = (1, part0) :: noDelivered ∧
      65535 < delivered0.dev.objNat 16688 2) ∧
    (delivered0.dev.pins.clocks = true ∧ (delivered0.dev.core core0.toNat).port.delivered = (1, part0) :: noDelivered ∧
      delivered0.dev.objNat 16688 2 ≤ 65536) ∧
    ((∀ e ∈ (delivered0.dev.core core0.toNat).port.delivered, commandTag e.1 ≠ responseTag wordOther)) := by
  refine ⟨?_, ?_, ?_, ?_⟩ <;> decide +kernel

/-- States and operands that meet the hypotheses of each clause of `Obligations.NetworkPackets`. -/
theorem witness_NetworkPackets :
    (FreshIds netState.dev ∧ NocReaches netState nocTile 1 ∧ (List.filter (fun q => q.src == nocTile.src) netState.dev.noc.outstanding).length < 4096 ∧
      MemoryReady (netState.dev.strikes noErrors) nocTile.addr.toNat (BitVec.toNat nocTile.lenm1 + 1)) ∧
    (FreshIds netState.dev ∧ NocReaches netState nocTile 1 ∧ (List.filter (fun q => q.src == nocTile.src) netState.dev.noc.outstanding).length < 4096 ∧
      netState.dev.imports = [] ∧ netState.dev.regionOfRange nocTile.addr.toNat (BitVec.toNat nocTile.lenm1 + 1) = Region.tile 0 ∧
      netState.dev.sleeping? nocTile.addr.toNat (BitVec.toNat nocTile.lenm1 + 1) = none ∧
      tileWord ∈ wordsOf nocTile.addr.toNat (BitVec.toNat nocTile.lenm1 + 1) ∧ tileWord ∈ (netState.dev.strikes struckWord).badWords) ∧
    (FreshIds netState.dev ∧ NocReaches netState nocWr 2 ∧ (List.filter (fun q => q.src == nocWr.src) netState.dev.noc.outstanding).length < 4096 ∧
      nocWr.body = NocBody.bytes bytes4 ∧ bytes4.length = BitVec.toNat nocWr.lenm1 + 1 ∧
      MemoryWritable netState.dev nocWr.addr.toNat (BitVec.toNat nocWr.lenm1 + 1)) ∧
    (FreshIds bareAsked.dev ∧ NocReaches bareAsked ansBare 3 ∧ bareAsked.dev.nocRequestOf ansBare = some reqBare ∧ ansBare.rslot = 127 ∧
      statKey ansBare.dest ansBare.vc false = none) ∧
    (FreshIds readAsked.dev ∧ NocReaches readAsked nocData 3 ∧ readAsked.dev.nocRequestOf nocData = some reqRead ∧ nocData.rslot = 127 ∧
      statKey nocData.dest nocData.vc false = some 3) ∧
    (FreshIds readAsked.dev ∧ NocReaches readAsked ansBare 3 ∧ readAsked.dev.nocRequestOf ansBare = none) ∧
    (FreshIds writeAsked.dev ∧ NocReaches writeAsked nocAck 4 ∧ writeAsked.dev.nocRequestOf nocAck = some reqWrite ∧ nocAck.rslot = 127) ∧
    (FreshIds writeAsked.dev ∧ NocReaches writeAsked roundAck 4 ∧ writeAsked.dev.nocRequestOf roundAck = some reqWrite ∧ roundAck.rslot ≠ 127 ∧
      writeAsked.dev.slotRound roundAck.rslot.toNat = some (firstRound writeAsked) ∧ (firstRound writeAsked).phase = RoundPhase.running ∧
      (Status.ofCode (BitVec.toNat roundAck.status)).isSuccess = true) ∧
    (FreshIds writeAsked.dev ∧ NocReaches writeAsked failAck 4 ∧ writeAsked.dev.nocRequestOf failAck = some reqWrite ∧ failAck.rslot ≠ 127 ∧
      writeAsked.dev.slotRound failAck.rslot.toNat = some (firstRound writeAsked) ∧ (firstRound writeAsked).phase = RoundPhase.running ∧
      (Status.ofCode (BitVec.toNat failAck.status)).isSuccess = false) ∧
    (FreshIds abortedAsked.dev ∧ NocReaches abortedAsked roundAck 4 ∧ abortedAsked.dev.nocRequestOf roundAck = some (inRound reqWrite) ∧
      roundAck.rslot ≠ 127 ∧ abortedAsked.dev.slotRound roundAck.rslot.toNat = some (firstRound abortedAsked) ∧
      (firstRound abortedAsked).phase ≠ RoundPhase.running) ∧
    (FreshIds readAsked.dev ∧ NocReaches readAsked nocAck 4 ∧ readAsked.dev.nocRequestOf nocAck = none) ∧
    (FreshIds netState.dev ∧ NocReaches netState flagPacket 5 ∧ flagPacket.body = NocBody.bytes [7, 0, 0, 0] ∧ 7 < 4096 ∧
      flagPacket.addr.toNat = seqBase + 4 * 7) ∧
    (FreshIds netState.dev ∧ NocReaches netState carryPacket 6 ∧ carryPacket.body = NocBody.carry core0 partial_ ∧
      netState.dev.attemptRuns partial_.round = true ∧ (netState.dev.cluster (core0.toNat / 8)).state = 0) ∧
    (FreshIds abortedNet.dev ∧ NocReaches abortedNet carryPacket 6 ∧ carryPacket.body = NocBody.carry core0 partial_ ∧
      abortedNet.dev.attemptRuns partial_.round = false) ∧
    (FreshIds netState.dev ∧ NocReaches netState tile0Packet 7 ∧ tile0Packet.body = NocBody.tile 0 tileBytes256 ∧ coreOfEnd tile0Packet.dest = some 1 ∧
      netState.dev.slotRound tile0Packet.rslot.toNat = some (firstRound netState) ∧ (firstRound netState).phase = RoundPhase.running ∧
      (netState.dev.cluster (1 / 8)).state = 0 ∧ tileBytes256.length = BitVec.toNat tile0Packet.lenm1 + 1 ∧
      tileBytes256.length = min 256 (tileBytes (tileHdrOf tile0Packet.addr.toNat) - 256 * (tile0Packet.addr.toNat % 64)) ∧
      if tile0Packet.addr.toNat % 64 = 0 then noPart = { net := true, tile := { hdr := tileHdrOf tile0Packet.addr.toNat, chain := tile0Packet.addr.toNat / 2 ^ 20 % 64, round := (firstRound netState).number, ordinal := 0, tile := tile0Packet.addr.toNat / 2 ^ 8 % 4096, codes := [] }, bytes := [], next := 0 } else List.find? (fun p => (fun p => p.net && p.tile.chain == tile0Packet.addr.toNat / 2 ^ 20 % 64 && p.tile.round == (firstRound netState).number) p && p.next == tile0Packet.addr.toNat % 64 && p.tile == { hdr := tileHdrOf tile0Packet.addr.toNat, chain := tile0Packet.addr.toNat / 2 ^ 20 % 64, round := (firstRound netState).number, ordinal := 0, tile := tile0Packet.addr.toNat / 2 ^ 8 % 4096, codes := [] }) (netState.dev.core 1).chainParts = some noPart ∧
      tile0Packet.addr.toNat % 64 + 1 < tilePieces (tileHdrOf tile0Packet.addr.toNat)) ∧
    (FreshIds parted15.dev ∧ NocReaches parted15 tile15Packet 7 ∧ tile15Packet.body = NocBody.tile 0 tileBytes256 ∧
      coreOfEnd tile15Packet.dest = some 1 ∧ parted15.dev.slotRound tile15Packet.rslot.toNat = some (firstRound parted15) ∧
      (firstRound parted15).phase = RoundPhase.running ∧ (parted15.dev.cluster (1 / 8)).state = 0 ∧
      tileBytes256.length = BitVec.toNat tile15Packet.lenm1 + 1 ∧
      tileBytes256.length = min 256 (tileBytes (tileHdrOf tile15Packet.addr.toNat) - 256 * (tile15Packet.addr.toNat % 64)) ∧
      if tile15Packet.addr.toNat % 64 = 0 then part15 = { net := true, tile := { hdr := tileHdrOf tile15Packet.addr.toNat, chain := tile15Packet.addr.toNat / 2 ^ 20 % 64, round := (firstRound parted15).number, ordinal := 0, tile := tile15Packet.addr.toNat / 2 ^ 8 % 4096, codes := [] }, bytes := [], next := 0 } else List.find? (fun p => (fun p => p.net && p.tile.chain == tile15Packet.addr.toNat / 2 ^ 20 % 64 && p.tile.round == (firstRound parted15).number) p && p.next == tile15Packet.addr.toNat % 64 && p.tile == { hdr := tileHdrOf tile15Packet.addr.toNat, chain := tile15Packet.addr.toNat / 2 ^ 20 % 64, round := (firstRound parted15).number, ordinal := 0, tile := tile15Packet.addr.toNat / 2 ^ 8 % 4096, codes := [] }) (parted15.dev.core 1).chainParts = some part15 ∧
      tilePieces (tileHdrOf tile15Packet.addr.toNat) ≤ tile15Packet.addr.toNat % 64 + 1) ∧
    (FreshIds netState.dev ∧ NocReaches netState nocMgmt 8) ∧
    (FreshIds netState.dev ∧ netState.dev.pins.clocks = true ∧ (nocTile.op ≠ 8 ∨ nocOk nocTile = false ∨ netState.dev.nocFirst nocTile = false)) := by
  refine ⟨?_, ?_, ?_, ?_, ?_, ?_, ?_, ?_, ?_, ?_, ?_, ?_, ?_, ?_, ?_, ?_, ?_, ?_⟩ <;> decide +kernel

/-- States and operands that meet the hypotheses of each clause of `Obligations.NetworkFailures`. -/
theorem witness_NetworkFailures :
    (netState.dev.pins.clocks = true ∧ netState.dev.objNat 28928 1 ≠ 1 ∧ nocOk nocRd = true ∧ 0 ∈ bundlesOf nocRd ∧
      netState.dev.linkOf nocRd (0) = some (0) ∧ 2 < 3) ∧
    (netState.dev.pins.clocks = true ∧ netState.dev.objNat 28928 1 ≠ 1 ∧ nocOk nocRd = true ∧ 0 ∈ bundlesOf nocRd ∧
      netState.dev.linkOf nocRd (0) = some (0) ∧ 3 ≤ 3 ∧ netState.dev.noc.draining = []) ∧
    (netState.dev.pins.clocks = true ∧ netState.dev.objNat 28928 1 ≠ 1 ∧
      ¬(nocOk nocAway = true ∧ 0 ∈ bundlesOf nocAway ∧ netState.dev.linkOf nocAway (0) = some (0))) ∧
    (noLinks.dev.pins.clocks = true ∧ noLinks.dev.objNat 28928 1 ≠ 1 ∧ nocMgmt.op = 8 ∧ nocOk nocMgmt = true ∧ noLinks.dev.nocFirst nocMgmt = true ∧
      noLinks.dev.noc.draining = [] ∧ noLinks.dev.pathDead nocMgmt = true) ∧
    (draining.dev.pins.clocks = true ∧ draining.dev.objNat 28928 1 ≠ 1 ∧ (0, 0) ∈ draining.dev.noc.draining ∧ 0 < 52 ∧ 0 < 6 ∧
      (∀ q ∈ draining.dev.noc.flight, 0 ∉ bundlesOf q) ∧ 2 ≠ 0) ∧
    (draining.dev.pins.clocks = true ∧ draining.dev.objNat 28928 1 ≠ 1 ∧ (0, 0) ∈ draining.dev.noc.draining ∧ 0 < 52 ∧ 0 < 6 ∧
      (∀ q ∈ draining.dev.noc.flight, 0 ∉ bundlesOf q) ∧ draining.dev.noc.draining = [(0, 0)]) ∧
    (netState.dev.pins.clocks = true ∧ netState.dev.objNat 28928 1 ≠ 1 ∧
      ((0, 0) ∉ netState.dev.noc.draining ∨ 52 ≤ 0 ∨ 6 ≤ 0 ∨ ∃ q ∈ netState.dev.noc.flight, 0 ∈ bundlesOf q)) := by
  refine ⟨?_, ?_, ?_, ?_, ?_, ?_, ?_⟩ <;> decide +kernel

/-- States and operands that meet the hypotheses of each clause of `Obligations.HbmAccesses`. -/
theorem witness_HbmAccesses :
    (untrained.dev.pins.clocks = true ∧ (untrained.dev.hbm.trained = false ∨ untrained.dev.oneRow (4096) 4 = false)) ∧
    (plain.dev.pins.clocks = true ∧ MemoryReady (plain.dev.strikes noErrors) (4096) 4 ∧ plain.dev.oneRow (4096) 4 = true ∧ 1 < 2) ∧
    (plain.dev.pins.clocks = true ∧ plain.dev.hbm.trained = true ∧ plain.dev.oneRow (4096) 4 = true ∧ 1 < 2 ∧ 256 ∈ wordsOf (4096) 4 ∧
      256 ∈ (plain.dev.strikes struck1000).badWords ∧ (plain.dev.strikes struck1000).badWords.Nodup ∧
      List.filter (fun x => (plain.dev.strikes struck1000).badWords.contains x) (wordsOf (4096) 4) = [256]) ∧
    (plain.dev.pins.clocks = true ∧ MemoryWritable (plain.dev.strikes noErrors) (4096) 4 ∧ plain.dev.oneRow (4096) 4 = true ∧ 1 < 2 ∧
      bytes4.length = 4 ∧ (plain.dev.strikes noErrors).latent = []) ∧
    (protected4K.dev.pins.clocks = true ∧ protected4K.dev.hbm.trained = true ∧ protected4K.dev.oneRow (4096) 4 = true ∧ 1 < 2 ∧ bytes4.length = 4 ∧
      protected4K.dev.protectors (4096) 4 = [5] ∧ [5] ≠ []) ∧
    (plain.dev.pins.clocks = true ∧ plain.dev.hbm.trained = true ∧ plain.dev.oneRow (4096) 4 = true ∧ 2 ≤ 4 ∧
      (∀ (b : List Byte), none = some b → b.length = 4)) := by
  refine ⟨?_, ?_, ?_, ?_, ?_, ?_⟩ <;> decide +kernel

/-- States and operands that meet the hypotheses of each clause of `Obligations.HbmUpkeep`. -/
theorem witness_HbmUpkeep :
    (plain.dev.pins.clocks = true ∧ 47 < 48 ∧ plain.dev.hbm.trained = true) ∧
    (untrained.dev.pins.clocks = true ∧ (48 ≤ 47 ∨ untrained.dev.hbm.trained = false)) ∧
    (quietHbm.dev.pins.clocks = true ∧ quietHbm.dev.hbm.trained = true ∧
      (quietHbm.dev.objNat 17424 1 * 1000000 ≤ quietHbm.dev.timestamp - tabGet 0 quietHbm.dev.hbm.passTimes (0) ∨ 10 ≤ (BitVec.toInt (tabGet 0 quietHbm.dev.hbm.temps (0)) - BitVec.toInt (tabGet 0 quietHbm.dev.hbm.passTemps (0))).natAbs) ∧
      pc3.toNat / 32 = 0 ∧ 9 ∈ quietHbm.dev.hbm.failed) ∧
    (quietHbm.dev.pins.clocks = true ∧ quietHbm.dev.hbm.trained = true ∧
      (quietHbm.dev.objNat 17424 1 * 1000000 ≤ quietHbm.dev.timestamp - tabGet 0 quietHbm.dev.hbm.passTimes (0) ∨ 10 ≤ (BitVec.toInt (tabGet 0 quietHbm.dev.hbm.temps (0)) - BitVec.toInt (tabGet 0 quietHbm.dev.hbm.passTemps (0))).natAbs) ∧
      pc3.toNat / 32 = 0 ∧ pc3 ∈ [pc3] ∧ 2 ≤ tabGet 0 quietHbm.dev.hbm.passFails pc3.toNat) ∧
    (quietHbm.dev.pins.clocks = true ∧ quietHbm.dev.hbm.trained = true ∧
      (quietHbm.dev.objNat 17424 1 * 1000000 ≤ quietHbm.dev.timestamp - tabGet 0 quietHbm.dev.hbm.passTimes (0) ∨ 10 ≤ (BitVec.toInt (tabGet 0 quietHbm.dev.hbm.temps (0)) - BitVec.toInt (tabGet 0 quietHbm.dev.hbm.passTemps (0))).natAbs) ∧
      pc3.toNat / 32 = 0 ∧ pc3 ∈ [pc3]) ∧
    (quietHbm.dev.pins.clocks = true ∧ quietHbm.dev.hbm.trained = true ∧
      (quietHbm.dev.objNat 17424 1 * 1000000 ≤ quietHbm.dev.timestamp - tabGet 0 quietHbm.dev.hbm.passTimes (0) ∨ 10 ≤ (BitVec.toInt (tabGet 0 quietHbm.dev.hbm.temps (0)) - BitVec.toInt (tabGet 0 quietHbm.dev.hbm.passTemps (0))).natAbs) ∧
      pc3.toNat / 32 = 0 ∧ pc3 ∉ [4]) ∧
    (quietHbm.dev.pins.clocks = true ∧ quietHbm.dev.hbm.trained = true ∧
      (quietHbm.dev.objNat 17424 1 * 1000000 ≤ quietHbm.dev.timestamp - tabGet 0 quietHbm.dev.hbm.passTimes (0) ∨ 10 ≤ (BitVec.toInt (tabGet 0 quietHbm.dev.hbm.temps (0)) - BitVec.toInt (tabGet 0 quietHbm.dev.hbm.passTemps (0))).natAbs) ∧
      pc3.toNat / 32 = 0 ∧ pc3.toNat ∉ quietHbm.dev.hbm.failed ∧ (pc3 ∉ [4] ∨ tabGet 0 quietHbm.dev.hbm.passFails pc3.toNat < 2)) ∧
    (untrained.dev.pins.clocks = true ∧
      (untrained.dev.hbm.trained = false ∨ ¬(untrained.dev.objNat 17424 1 * 1000000 ≤ untrained.dev.timestamp - tabGet 0 untrained.dev.hbm.passTimes (0) ∨ 10 ≤ (BitVec.toInt (tabGet 0 untrained.dev.hbm.temps (0)) - BitVec.toInt (tabGet 0 untrained.dev.hbm.passTemps (0))).natAbs))) ∧
    (latentPlain.dev.pins.clocks = true ∧ latentPlain.dev.hbm.trained = true ∧ latentPlain.dev.objNat 17424 2 ≠ 0 ∧ 4096 < 0x4800000000 ∧
      4096 / 16 ∉ latentPlain.dev.badWords ∧ (noUpset.failed = false ∨ noUpset.failed = false) ∧ 4096 / 16 ∈ latentPlain.dev.latent) ∧
    (plain.dev.pins.clocks = true ∧ plain.dev.hbm.trained = true ∧ plain.dev.objNat 17424 2 ≠ 0 ∧ 4096 < 0x4800000000 ∧ 4096 / 16 ∉ plain.dev.badWords ∧
      (noUpset.failed = false ∨ noUpset.failed = false) ∧ 4096 / 16 ∉ plain.dev.latent ∧ noUpset.corrected = 0 ∧ noUpset.failed = false) ∧
    (plain.dev.pins.clocks = true ∧ plain.dev.hbm.trained = true ∧ plain.dev.objNat 17424 2 ≠ 0 ∧ 4096 < 0x4800000000 ∧ 4096 / 16 ∉ plain.dev.badWords ∧
      (twoFixed.failed = false ∨ noUpset.failed = false) ∧ 4096 / 16 ∉ plain.dev.latent ∧ (twoFixed.corrected ≠ 0 ∨ twoFixed.failed = true)) ∧
    (plain.dev.pins.clocks = true ∧ plain.dev.hbm.trained = true ∧ plain.dev.objNat 17424 2 ≠ 0 ∧ 4096 < 0x4800000000 ∧
      (4096 / 16 ∈ plain.dev.badWords ∨ oneFailed.failed = true ∧ oneFailed.failed = true)) ∧
    (plain.dev.pins.clocks = true ∧ (plain.dev.hbm.trained = false ∨ plain.dev.objNat 17424 2 = 0 ∨ 0x4800000000 ≤ 0x4800000000)) := by
  refine ⟨?_, ?_, ?_, ?_, ?_, ?_, ?_, ?_, ?_, ?_, ?_, ?_, ?_⟩ <;> decide +kernel

/-- States and operands that meet the hypotheses of each clause of `Obligations.ClusterCaches`. -/
theorem witness_ClusterCaches :
    (filling.dev.pins.clocks = true ∧ filling.dev.hbm.trained = true ∧ 4096 / 256 ∈ (filling.dev.cluster cluster0.toNat).fills ∧
      filling.dev.cacheWays cluster0.toNat ≠ 0 ∧ (filling.dev.cluster cluster0.toNat).state < 2 ∧
      ((∀ w ∈ wordsOf (256 * (4096 / 256)) 256, w ∉ filling.dev.badWords) ∧ filling.dev.hbmFailed (256 * (4096 / 256)) 256 = false) ∧
      0 ≠ cacheSet (4096 / 256)) ∧
    (filling.dev.pins.clocks = true ∧ filling.dev.hbm.trained = true ∧ 4096 / 256 ∈ (filling.dev.cluster cluster0.toNat).fills ∧
      filling.dev.cacheWays cluster0.toNat ≠ 0 ∧ (filling.dev.cluster cluster0.toNat).state < 2 ∧
      ((∀ w ∈ wordsOf (256 * (4096 / 256)) 256, w ∉ filling.dev.badWords) ∧ filling.dev.hbmFailed (256 * (4096 / 256)) 256 = false) ∧
      5 ≠ cluster0.toNat) ∧
    (fillBad.dev.pins.clocks = true ∧ fillBad.dev.hbm.trained = true ∧ 4096 / 256 ∈ (fillBad.dev.cluster cluster0.toNat).fills ∧
      fillBad.dev.cacheWays cluster0.toNat ≠ 0 ∧ (fillBad.dev.cluster cluster0.toNat).state < 2 ∧
      ¬((∀ w ∈ wordsOf (256 * (4096 / 256)) 256, w ∉ fillBad.dev.badWords) ∧ fillBad.dev.hbmFailed (256 * (4096 / 256)) 256 = false)) ∧
    (plain.dev.pins.clocks = true ∧
      ¬(plain.dev.hbm.trained = true ∧ 4096 / 256 ∈ (plain.dev.cluster cluster0.toNat).fills ∧ plain.dev.cacheWays cluster0.toNat ≠ 0 ∧ (plain.dev.cluster cluster0.toNat).state < 2)) ∧
    (plain.dev.pins.clocks = true ∧ 5 ≠ cluster0.toNat) ∧
    (plain.dev.pins.clocks = true ∧ MemoryReady plain.dev 0 5) ∧
    (plain.dev.pins.clocks = true ∧ plain.dev.regionOfRange 0 0 = Region.hbm ∧ (∀ l ∈ linesOf 0 0, plain.dev.resident (0 / 8) l = true) ∧
      (∀ e ∈ (plain.dev.cluster (0 / 8)).cacheErrors, e.2 = false)) ∧
    (plain.dev.pins.clocks = true ∧ plain.dev.regionOfRange 0 5 = Region.hbm ∧ 0 ∈ linesOf 0 5 ∧ plain.dev.resident (0 / 8) 0 = false ∧
      plain.dev.cacheWays (0 / 8) ≠ 0) := by
  refine ⟨?_, ?_, ?_, ?_, ?_, ?_, ?_, ?_⟩ <;> decide +kernel

/-- States and operands that meet the hypotheses of each clause of `Obligations.SaeriRequests`. -/
theorem witness_SaeriRequests :
    (FreshIds peer0.dev ∧ SaeriReaches peer0 peerRead 1 ∧ peer0.dev.mayPeer peerRead TEntry.rd = true ∧
      MemoryReady peer0.dev peerRead.addr.toNat (BitVec.toNat peerRead.lenm1 + 1)) ∧
    (FreshIds peer0.dev ∧ SaeriReaches peer0 peerWrite 2 ∧ BitVec.toNat peerWrite.lenm1 + 1 ≤ peerWrite.data.length ∧
      peer0.dev.mayPeer peerWrite TEntry.wr = true ∧ MemoryWritable peer0.dev peerWrite.addr.toNat (BitVec.toNat peerWrite.lenm1 + 1)) ∧
    (FreshIds upState.dev ∧ SaeriReaches upState peerRead 1 ∧ upState.dev.mayPeer peerRead TEntry.rd = false) ∧
    (FreshIds upState.dev ∧ SaeriReaches upState peerWrite 2 ∧ BitVec.toNat peerWrite.lenm1 + 1 ≤ peerWrite.data.length ∧
      upState.dev.mayPeer peerWrite TEntry.wr = false) ∧
    (FreshIds peer0.dev ∧ SaeriReaches peer0 peerAdd 5 ∧ (topoOf (peer0.dev.obj 16657 1)).pos? (BitVec.toNat peerAdd.snode) ≠ none) ∧
    (FreshIds peer0.dev ∧ SaeriReaches peer0 away7 5 ∧ (topoOf (peer0.dev.obj 16657 1)).pos? (BitVec.toNat away7.snode) = none) ∧
    (FreshIds peer0.dev ∧ SaeriReaches peer0 peerData 3 ∧ (∀ q ∈ peer0.dev.saeri.outstanding, q.tag ≠ peerData.tag ∨ q.node ≠ peerData.snode) ∧
      Status.ofCode (BitVec.toNat peerData.status) ≠ Status.linkLost) ∧
    (FreshIds peer0.dev ∧ SaeriReaches peer0 dataLost 3 ∧ (∀ q ∈ peer0.dev.saeri.outstanding, q.tag ≠ dataLost.tag ∨ q.node ≠ dataLost.snode) ∧
      Status.ofCode (BitVec.toNat dataLost.status) = Status.linkLost ∧ dataLost.tag = 4094) ∧
    (FreshIds askedRead.dev ∧ SaeriReaches askedRead peerData 3 ∧ askedRead.dev.saeri.outstanding = readReq :: noReqs ∧ readReq.tag = peerData.tag ∧
      readReq.node = peerData.snode ∧ readReq.isRead = true) ∧
    (FreshIds askedAdd.dev ∧ SaeriReaches askedAdd peerAck 4 ∧ askedAdd.dev.saeri.outstanding = addReq :: noReqs ∧ addReq.tag = peerAck.tag ∧
      addReq.node = peerAck.snode ∧ addReq.isRead = false) ∧
    (FreshIds upState.dev ∧ SaeriReaches upState peerMgmt 8 ∧ upState.dev.served (Transport.saeri peerMgmt.snode) = false) ∧
    (FreshIds peer0.dev ∧ SaeriReaches peer0 peerMgmt 8 ∧ peer0.dev.served (Transport.saeri peerMgmt.snode) = true) ∧
    (FreshIds peer0.dev ∧ SaeriReaches peer0 noticePacket 9) ∧
    (FreshIds followed.dev ∧ (∃ e ∈ followed.dev.saeriBefore peerRead, saeriFollows peerRead e = true)) ∧
    (FreshIds peer0.dev ∧ awayPacket.dnode ≠ peer0.dev.nodeId) ∧
    (FreshIds inbox1.dev ∧ inbox1.dev.saeri.inbox = (0, peerRead) :: noInbox) ∧
    (FreshIds switchingState.dev ∧ switchingState.dev.pins.clocks = true ∧ switchingState.dev.saeri.switching = true ∧
      switchingState.dev.saeri.outstanding = [] ∧ switchingState.dev.saeri.heldOut = []) ∧
    (FreshIds switchingState.dev ∧ switchingState.dev.pins.clocks = true ∧ switchingState.dev.saeri.switching = true ∧
      (∀ q ∈ switchingState.dev.saeri.outstanding, switchingState.dev.unsent q = true)) ∧
    (FreshIds peer0.dev ∧ (peer0.dev.saeri.switching = false ∨ ∃ q ∈ peer0.dev.saeri.outstanding, peer0.dev.unsent q = false)) := by
  refine ⟨?_, ?_, ?_, ?_, ?_, ?_, ?_, ?_, ?_, ?_, ?_, ?_, ?_, ?_, ?_, ?_, ?_, ?_, ?_⟩ <;> decide +kernel

/-- States and operands that meet the hypotheses of each clause of `Obligations.PortBringUp`. -/
theorem witness_PortBringUp1 :
    (portAt1.dev.pins.clocks = true ∧ (portAt1.dev.port port0.toNat).enabled = true ∧ (portAt1.dev.port port0.toNat).step = 1 ∧ 255 = 255 ∧
      1000 ≤ 1000 ∧ 1000 ≠ port0.toNat) ∧
    (portAt1.dev.pins.clocks = true ∧ (portAt1.dev.port port0.toNat).enabled = true ∧
      ((portAt1.dev.port port0.toNat).step ≠ 1 ∨ 255 ≠ 255 ∨ 64 < 1000)) ∧
    (upState.dev.pins.clocks = true ∧ (upState.dev.port port0.toNat).enabled = false) ∧
    (allCdr.dev.pins.clocks = true ∧ (allCdr.dev.port port0.toNat).step = 2 ∧
      (∀ j : Nat, j / 8 = port0.toNat → (allCdr.dev.lane j).cdr = true ∨ (255 : Byte).getLsbD (j % 8) = true) ∧ 1000 ≠ port0.toNat) ∧
    (portAt4.dev.pins.clocks = true ∧ 2 ≤ (portAt4.dev.port port0.toNat).step ∧ (portAt4.dev.port port0.toNat).step ≤ 7 ∧
      ((portAt4.dev.port port0.toNat).step ≠ 2 ∨ ¬∀ j : Nat, j / 8 = port0.toNat → (portAt4.dev.lane j).cdr = true ∨ (1 : Byte).getLsbD (j % 8) = true)) ∧
    (portAt1.dev.pins.clocks = true ∧ ((portAt1.dev.port port0.toNat).step < 2 ∨ 7 < (portAt1.dev.port port0.toNat).step)) ∧
    (allLocked.dev.pins.clocks = true ∧ (allLocked.dev.port (lane0.toNat / 8)).step = 3 ∧ 64 ≤ 1000 ∧
      (∀ j : Nat, j / 8 = lane0.toNat / 8 → j ≠ lane0.toNat → (allLocked.dev.lane j).lock = true) ∧ 1000 ≠ lane0.toNat / 8) ∧
    (portAt4.dev.pins.clocks = true ∧ 3 ≤ (portAt4.dev.port (lane0.toNat / 8)).step ∧ (portAt4.dev.port (lane0.toNat / 8)).step ≤ 7 ∧ 64 ≤ 20001 ∧
      ((portAt4.dev.port (lane0.toNat / 8)).step ≠ 3 ∨ ∃ j, j / 8 = lane0.toNat / 8 ∧ j ≠ lane0.toNat ∧ (portAt4.dev.lane j).lock = false)) ∧
    (upState.dev.pins.clocks = true ∧ (0 < 64 ∨ (upState.dev.port (lane0.toNat / 8)).step < 3 ∨ 7 < (upState.dev.port (lane0.toNat / 8)).step)) ∧
    (portAt2.dev.pins.clocks = true ∧ 20000 < 20001 ∧ (portAt2.dev.port port0.toNat).step = 2) ∧
    (portAt4.dev.pins.clocks = true ∧ 20000 < 20001 ∧ (portAt4.dev.port port0.toNat).step = 4) ∧
    (portAt5.dev.pins.clocks = true ∧ 20000 < 20001 ∧ (portAt5.dev.port port0.toNat).step = 5) ∧
    (upState.dev.pins.clocks = true ∧
      (0 ≤ 20000 ∨ (upState.dev.port port0.toNat).step ≠ 2 ∧ (upState.dev.port port0.toNat).step ≠ 4 ∧ (upState.dev.port port0.toNat).step ≠ 5)) ∧
    (upState.dev.pins.clocks = true ∧ (true = true ∨ 16 ≤ 0) ∧
      ((upState.dev.port (lane0.toNat / 8)).step < 4 ∨ (upState.dev.port (lane0.toNat / 8)).step = 8)) := by
  refine ⟨?_, ?_, ?_, ?_, ?_, ?_, ?_, ?_, ?_, ?_, ?_, ?_, ?_, ?_⟩ <;> first | decide +kernel | (and_intros <;> first | decide +kernel | exact allLocked_lanes | exact allCdr_lanes | exact Or.inl (by decide +kernel))

/-- States and operands that meet the hypotheses of each clause of `Obligations.PortBringUp`. -/
theorem witness_PortBringUp2 :
    (portAt4.dev.pins.clocks = true ∧ (true = true ∨ 16 ≤ 20001) ∧ 4 ≤ (portAt4.dev.port (lane0.toNat / 8)).step ∧
      (portAt4.dev.port (lane0.toNat / 8)).step < 7) ∧
    (portAt7.dev.pins.clocks = true ∧ (true = true ∨ 16 ≤ 20001) ∧ (portAt7.dev.port (lane0.toNat / 8)).step = 7) ∧
    (portAt1.dev.pins.clocks = true ∧ false = false ∧ 0 < 16) ∧
    (portAt4.dev.pins.clocks = true ∧ (portAt4.dev.port (lane0.toNat / 8)).enabled = true ∧
      BitVec.getLsbD (portAt4.dev.port (lane0.toNat / 8)).inverted (lane0.toNat % 8) = false ∧ descramble blockFill = { header := 2, payload := 150 } ∧
      5 < 20001) ∧
    (portAt4.dev.pins.clocks = true ∧ (portAt4.dev.port (lane0.toNat / 8)).enabled = true ∧
      BitVec.getLsbD (portAt4.dev.port (lane0.toNat / 8)).inverted (lane0.toNat % 8) = false ∧ descramble blockFill = { header := 2, payload := 150 } ∧
      2 < 3) ∧
    (portAt2.dev.pins.clocks = true ∧ (portAt2.dev.port (lane0.toNat / 8)).enabled = true ∧
      BitVec.getLsbD (portAt2.dev.port (lane0.toNat / 8)).inverted (lane0.toNat % 8) = false ∧ descramble blockFill = { header := 2, payload := 150 } ∧
      3 ≤ 3 ∧ 3 ≤ 5) ∧
    (portAt1.dev.pins.clocks = true ∧ BitVec.getLsbD (portAt1.dev.port (lane0.toNat / 8)).inverted (lane0.toNat % 8) = false ∧
      descramble badBlock ≠ { header := 2, payload := 150 }) ∧
    (portAt1.dev.pins.clocks = true ∧ 0 < 64) ∧
    (laneTest.dev.pins.clocks = true ∧ (laneTest.dev.lane lane0.toNat).test = true) ∧
    (portAt1.dev.pins.clocks = true ∧ (portAt1.dev.lane lane0.toNat).test = false) ∧
    (portAt4.dev.pins.clocks = true ∧ (portAt4.dev.port (lane0.toNat / 8)).step = 4 ∧ (descramble badBlock).header ≠ 2 ∧
      (descramble badBlock).header ≠ 1) ∧
    (portAt1.dev.pins.clocks = true ∧ (portAt1.dev.port (lane0.toNat / 8)).step < 4) ∧
    (portAt4.dev.pins.clocks = true ∧ (portAt4.dev.port (lane0.toNat / 8)).step = 4 ∧ (descramble markBlock).header = 2 ∧
      BitVec.toNat (descramble markBlock).payload % 256 = 210 ∧
      Option.map (fun m => m.2.2.2.1) (portAt4.dev.lane lane0.toNat).mark ≠ some (BitVec.toNat (descramble markBlock).payload / 2 ^ 16 % 2 ^ 12, BitVec.toNat (descramble markBlock).payload / 2 ^ 11 % 2 ^ 4, BitVec.toNat (descramble markBlock).payload / 2 ^ 8 % 2 ^ 3, BitVec.toNat (descramble markBlock).payload / 2 ^ 28 % 2 ^ 12, decide (BitVec.toNat (descramble markBlock).payload / 2 ^ 15 % 2 = 1), false).2.2.2.1) ∧
    (portAt5.dev.pins.clocks = true ∧ ((portAt5.dev.port (lane0.toNat / 8)).step = 5 ∨ (portAt5.dev.port (lane0.toNat / 8)).step = 6) ∧
      BitVec.getLsbD (portAt5.dev.port (lane0.toNat / 8)).inverted (lane0.toNat % 8) = false ∧ (descramble markBlock).header = 2 ∧
      BitVec.toNat (descramble markBlock).payload % 256 = 210 ∧ 16 < 17) := by
  refine ⟨?_, ?_, ?_, ?_, ?_, ?_, ?_, ?_, ?_, ?_, ?_, ?_, ?_, ?_⟩ <;> decide +kernel

/-- States and operands that meet the hypotheses of each clause of `Obligations.PortBringUp`. -/
theorem witness_PortBringUp3 :
    (portAt5.dev.pins.clocks = true ∧ BitVec.getLsbD (portAt5.dev.port (lane0.toNat / 8)).inverted (lane0.toNat % 8) = false ∧
      (descramble markBlock).header = 2 ∧ BitVec.toNat (descramble markBlock).payload % 256 = 210 ∧ 0 ≤ 16 ∧
      Option.map (fun m => m.2.2.2.1) (portAt5.dev.lane lane0.toNat).mark ≠ some (BitVec.toNat (descramble markBlock).payload / 2 ^ 16 % 2 ^ 12, BitVec.toNat (descramble markBlock).payload / 2 ^ 11 % 2 ^ 4, BitVec.toNat (descramble markBlock).payload / 2 ^ 8 % 2 ^ 3, BitVec.toNat (descramble markBlock).payload / 2 ^ 28 % 2 ^ 12, decide (BitVec.toNat (descramble markBlock).payload / 2 ^ 15 % 2 = 1), false).2.2.2.1 ∧
      (portAt5.dev.port (lane0.toNat / 8)).step = 5) ∧
    (portAt6.dev.pins.clocks = true ∧ BitVec.getLsbD (portAt6.dev.port (lane0.toNat / 8)).inverted (lane0.toNat % 8) = false ∧
      (descramble markBlock).header = 2 ∧ BitVec.toNat (descramble markBlock).payload % 256 = 210 ∧ 0 ≤ 16 ∧
      Option.map (fun m => m.2.2.2.1) (portAt6.dev.lane lane0.toNat).mark ≠ some (BitVec.toNat (descramble markBlock).payload / 2 ^ 16 % 2 ^ 12, BitVec.toNat (descramble markBlock).payload / 2 ^ 11 % 2 ^ 4, BitVec.toNat (descramble markBlock).payload / 2 ^ 8 % 2 ^ 3, BitVec.toNat (descramble markBlock).payload / 2 ^ 28 % 2 ^ 12, decide (BitVec.toNat (descramble markBlock).payload / 2 ^ 15 % 2 = 1), false).2.2.2.1 ∧
      (portAt6.dev.port (lane0.toNat / 8)).step = 6) ∧
    (portAt7.dev.pins.clocks = true ∧ BitVec.getLsbD (portAt7.dev.port (lane0.toNat / 8)).inverted (lane0.toNat % 8) = false ∧
      (descramble markBlock).header = 2 ∧ BitVec.toNat (descramble markBlock).payload % 256 = 210 ∧ 0 ≤ 16 ∧
      Option.map (fun m => m.2.2.2.1) (portAt7.dev.lane lane0.toNat).mark ≠ some (BitVec.toNat (descramble markBlock).payload / 2 ^ 16 % 2 ^ 12, BitVec.toNat (descramble markBlock).payload / 2 ^ 11 % 2 ^ 4, BitVec.toNat (descramble markBlock).payload / 2 ^ 8 % 2 ^ 3, BitVec.toNat (descramble markBlock).payload / 2 ^ 28 % 2 ^ 12, decide (BitVec.toNat (descramble markBlock).payload / 2 ^ 15 % 2 = 1), false).2.2.2.1 ∧
      (portAt7.dev.port (lane0.toNat / 8)).step = 7) ∧
    (upState.dev.pins.clocks = true ∧
      (∀ i < 8, (markedStraight.lane (8 * 0 + i)).mark = some (1, 2, oneMark i, period3 i, notReady i, second i) ∧ 2 ≤ (markedStraight.lane (8 * 0 + i)).marks) ∧
      (∀ i < 8, oneMark i = if false = true then 7 - i else i) ∧ 0 < 8) ∧
    (upState.dev.pins.clocks = true ∧
      (∀ i < 8, (markedMixed.lane (8 * 0 + i)).mark = some (1, 2, mixed i, period3 i, notReady i, second i) ∧ 2 ≤ (markedMixed.lane (8 * 0 + i)).marks) ∧
      (markedMixed.port 0).step = 4 ∧ ¬∃ o, ∀ i < 8, mixed i = if o = true then 7 - i else i) ∧
    (portAt6.dev.pins.clocks = true ∧ (∃ i < 8, (nodeOf6.lane (8 * 2 + i)).mark = none ∨ (nodeOf6.lane (8 * 2 + i)).marks < 2)) ∧
    (portAt6.dev.pins.clocks = true ∧ nodeOf6.nodeId ≠ 4095 ∧ (nodeOf6.port 0).step = 6 ∧ node5 = nodeOf6.nodeId) ∧
    (portAt6.dev.pins.clocks = true ∧ roleDev.nodeId ≠ 4095 ∧ (roleDev.port 0).step = 6 ∧ otherNode ≠ roleDev.nodeId ∧
      roleOf (roleDev.obj 16657 2) 0 ≠ 65535 ∧ (topoOf (roleDev.obj 16657 1)).nodeAt (roleOf (roleDev.obj 16657 2) 0) ≠ otherNode.toNat) ∧
    (portAt6.dev.pins.clocks = true ∧ nodeOf6.nodeId ≠ 4095 ∧ (nodeOf6.port 0).step = 6 ∧ node1 ≠ nodeOf6.nodeId ∧
      (roleOf (nodeOf6.obj 16657 2) 0 = 65535 ∨ (topoOf (nodeOf6.obj 16657 1)).nodeAt (roleOf (nodeOf6.obj 16657 2) 0) = node1.toNat) ∧
      nodeOf6.saeri.heldOut = [] ∧ 2 ≠ 0) := by
  refine ⟨?_, ?_, ?_, ?_, ?_, ?_, ?_, ?_, ?_⟩ <;> first | decide +kernel | (and_intros <;> first | decide +kernel | exact allLocked_lanes | exact allCdr_lanes | exact Or.inl (by decide +kernel) | exact mixed_marks | (intro i h; interval_cases i <;> decide +kernel))

/-- States and operands that meet the hypotheses of each clause of `Obligations.LinkFrames`. -/
theorem witness_LinkFrames1 :
    (link0.dev.pins.clocks = true ∧ (link0.dev.port port0.toNat).step = 7 ∧ badFrame.blocks.length = 72 ∧
      ((link0.dev.port port0.toNat).readFrame badFrame).bad = true) ∧
    (link0.dev.pins.clocks = true ∧ (link0.dev.port port0.toNat).step = 7 ∧ lateFrame.blocks.length = 72 ∧
      ((link0.dev.port port0.toNat).readFrame lateFrame).bad = false ∧ ((link0.dev.port port0.toNat).readFrame lateFrame).type = 1 ∧
      ((link0.dev.port port0.toNat).readFrame lateFrame).seq ≠ (link0.dev.port port0.toNat).rxSeq) ∧
    (link0.dev.pins.clocks = true ∧ (link0.dev.port port0.toNat).step = 7 ∧ departFrame.blocks.length = 72 ∧
      ((link0.dev.port port0.toNat).readFrame departFrame).bad = false ∧ ((link0.dev.port port0.toNat).readFrame departFrame).type ≠ 1) ∧
    (link0.dev.pins.clocks = true ∧ (link0.dev.port port0.toNat).step = 7 ∧ linkFrame.blocks.length = 72 ∧
      ((link0.dev.port port0.toNat).readFrame linkFrame).bad = false ∧ ((link0.dev.port port0.toNat).readFrame linkFrame).type ≠ 0) ∧
    (link0.dev.pins.clocks = true ∧ (link0.dev.port port0.toNat).step = 7 ∧ linkFrame.blocks.length = 72 ∧
      ((link0.dev.port port0.toNat).readFrame linkFrame).bad = false ∧ ((link0.dev.port port0.toNat).readFrame linkFrame).type ≠ 2) ∧
    (link0.dev.pins.clocks = true ∧ (link0.dev.port port0.toNat).step = 7 ∧ linkFrame.blocks.length = 72 ∧
      ((link0.dev.port port0.toNat).readFrame linkFrame).bad = false ∧ ((link0.dev.port port0.toNat).readFrame linkFrame).type ≠ 3) ∧
    (link0.dev.pins.clocks = true ∧ (link0.dev.port port0.toNat).step = 7 ∧ idleFrame0.blocks.length = 72 ∧
      ((link0.dev.port port0.toNat).readFrame idleFrame0).bad = false ∧ ((link0.dev.port port0.toNat).readFrame idleFrame0).nak = false ∧
      link0.dev.saeri.queue = [] ∧ link0.dev.saeri.recovering = [] ∧ ((link0.dev.port port0.toNat).readFrame idleFrame0).type = 0) ∧
    (link0.dev.pins.clocks = true ∧ (link0.dev.port port0.toNat).step = 7 ∧ linkFrame.blocks.length = 72 ∧
      ((link0.dev.port port0.toNat).readFrame linkFrame).bad = false ∧ ((link0.dev.port port0.toNat).readFrame linkFrame).nak = false ∧
      link0.dev.saeri.queue = [] ∧ link0.dev.saeri.recovering = [] ∧ ((link0.dev.port port0.toNat).readFrame linkFrame).type = 1 ∧
      ((link0.dev.port port0.toNat).readFrame linkFrame).seq = (link0.dev.port port0.toNat).rxSeq ∧
      (parsePackets 32 ((link0.dev.port port0.toNat).rxWords ++ ((link0.dev.port port0.toNat).readFrame linkFrame).words)).1 = []) ∧
    (link0.dev.pins.clocks = true ∧ (link0.dev.port port0.toNat).step = 7 ∧ packetFrame.blocks.length = 72 ∧
      ((link0.dev.port port0.toNat).readFrame packetFrame).bad = false ∧ ((link0.dev.port port0.toNat).readFrame packetFrame).nak = false ∧
      link0.dev.saeri.queue = [] ∧ link0.dev.saeri.recovering = [] ∧ ((link0.dev.port port0.toNat).readFrame packetFrame).type = 1 ∧
      ((link0.dev.port port0.toNat).readFrame packetFrame).seq = (link0.dev.port port0.toNat).rxSeq ∧
      (parsePackets 32 ((link0.dev.port port0.toNat).rxWords ++ ((link0.dev.port port0.toNat).readFrame packetFrame).words)).1 = [peerRead] ∧
      peerRead.dnode = link0.dev.nodeId ∧
      tabGet 0 (link0.dev.port port0.toNat).inUse (saeriClass peerRead.op) + tabGet 0 (link0.dev.port port0.toNat).owed (saeriClass peerRead.op) < 16) ∧
    (linkFull.dev.pins.clocks = true ∧ (linkFull.dev.port port0.toNat).step = 7 ∧ packetFrame.blocks.length = 72 ∧
      ((linkFull.dev.port port0.toNat).readFrame packetFrame).bad = false ∧ ((linkFull.dev.port port0.toNat).readFrame packetFrame).nak = false ∧
      linkFull.dev.saeri.queue = [] ∧ linkFull.dev.saeri.recovering = [] ∧ ((linkFull.dev.port port0.toNat).readFrame packetFrame).type = 1 ∧
      ((linkFull.dev.port port0.toNat).readFrame packetFrame).seq = (linkFull.dev.port port0.toNat).rxSeq ∧
      (parsePackets 32 ((linkFull.dev.port port0.toNat).rxWords ++ ((linkFull.dev.port port0.toNat).readFrame packetFrame).words)).1 = [peerRead] ∧
      16 ≤ tabGet 0 (linkFull.dev.port port0.toNat).inUse (saeriClass peerRead.op) + tabGet 0 (linkFull.dev.port port0.toNat).owed (saeriClass peerRead.op)) ∧
    (linkGone.dev.pins.clocks = true ∧ (linkGone.dev.port port0.toNat).step = 7 ∧ departFrame.blocks.length = 72 ∧
      ((linkGone.dev.port port0.toNat).readFrame departFrame).bad = false ∧ ((linkGone.dev.port port0.toNat).readFrame departFrame).nak = false ∧
      linkGone.dev.saeri.queue = [] ∧ linkGone.dev.saeri.recovering = [] ∧ ((linkGone.dev.port port0.toNat).readFrame departFrame).type = 3 ∧
      (((linkGone.dev.port port0.toNat).readFrame departFrame).departed = linkGone.dev.nodeId ∨ ((linkGone.dev.port port0.toNat).readFrame departFrame).departed ∈ linkGone.dev.saeri.departed)) ∧
    (link0.dev.pins.clocks = true ∧ (link0.dev.port port0.toNat).step = 7 ∧ departFrame.blocks.length = 72 ∧
      ((link0.dev.port port0.toNat).readFrame departFrame).bad = false ∧ ((link0.dev.port port0.toNat).readFrame departFrame).nak = false ∧
      link0.dev.saeri.queue = [] ∧ link0.dev.saeri.recovering = [] ∧ ((link0.dev.port port0.toNat).readFrame departFrame).type = 3 ∧
      ((link0.dev.port port0.toNat).readFrame departFrame).departed ≠ link0.dev.nodeId ∧
      ((link0.dev.port port0.toNat).readFrame departFrame).departed ∉ link0.dev.saeri.departed) ∧
    (link0.dev.pins.clocks = true ∧ (link0.dev.port port0.toNat).step = 7 ∧ leaveFrame0.blocks.length = 72 ∧
      ((link0.dev.port port0.toNat).readFrame leaveFrame0).bad = false ∧ ((link0.dev.port port0.toNat).readFrame leaveFrame0).nak = false ∧
      link0.dev.saeri.queue = [] ∧ link0.dev.saeri.recovering = [] ∧ ((link0.dev.port port0.toNat).readFrame leaveFrame0).type = 2) ∧
    (link0.dev.pins.clocks = true ∧ (link0.dev.port port0.toNat).step = 7 ∧ linkFrame.blocks.length = 72 ∧ linkFrame.fixes = []) := by
  refine ⟨?_, ?_, ?_, ?_, ?_, ?_, ?_, ?_, ?_, ?_, ?_, ?_, ?_, ?_⟩ <;> decide +kernel

/-- States and operands that meet the hypotheses of each clause of `Obligations.LinkFrames`. -/
theorem witness_LinkFrames2 :
    ([peerRead].length ≤ 32 ∧
      (∀ k ∈ [peerRead], k.op ≠ 0 ∧ k.data.length = if saeriDataWords k.op k.addr k.lenm1 = 0 then 0 else BitVec.toNat k.lenm1 + 1 + 16 * (saeriDataWords k.op k.addr k.lenm1 - (BitVec.toNat k.lenm1 + 16) / 16))) ∧
    (readyPort.replay = [sent 2 1] ++ [sent 3 1, sent 4 2] ∧ (sent 3 1).seq = readHeader.ack ∧ (∀ g ∈ [sent 2 1], g.seq ≠ readHeader.ack)) ∧
    (link0.dev.pins.clocks = true ∧ (link0.dev.port port0.toNat).step = 7 ∧ link0.dev.count 12577 2 < 2 ^ 64 ∧
      (∀ e ∈ (link0.dev.port port0.toNat).replay, e.seq ≠ 3) ∧ (∀ (e : SentFrame), (link0.dev.port port0.toNat).replay.head? = some e → e.sends < 3) ∧
      500 ≠ port0.toNat) ∧
    (link3.dev.pins.clocks = true ∧ (link3.dev.port port0.toNat).step = 7 ∧ link3.dev.count 12577 2 < 2 ^ 64 ∧
      (link3.dev.port port0.toNat).replay = [sent 2 1, sent 3 1, sent 4 2] ∧ (sent 2 1).seq = 2 ∧
      (∀ (g : SentFrame), [sent 3 1, sent 4 2].head? = some g → g.sends < 3) ∧ 500 ≠ port0.toNat) ∧
    (link3.dev.pins.clocks = true ∧ (link3.dev.port port0.toNat).step = 7 ∧ link3.dev.count 12577 2 < 2 ^ 64 ∧
      (link3.dev.port port0.toNat).replay = [sent 2 1, sent 3 1, sent 4 2] ∧ (sent 2 1).sends < 3 ∧ 500 ≤ 500 ∧ 500 ≠ port0.toNat) ∧
    (spentLink.dev.pins.clocks = true ∧ (spentLink.dev.port port0.toNat).step = 7 ∧ (spentLink.dev.port port0.toNat).replay = [spent4, sent 3 1] ∧
      3 ≤ spent4.sends ∧ 500 ≤ 500) ∧
    (link0.dev.pins.clocks = true ∧ (link0.dev.port port0.toNat).step = 7 ∧ 499 < 500) ∧
    (link0.dev.pins.clocks = true ∧ (link0.dev.port port0.toNat).step = 7 ∧ 500 < 1000) ∧
    (link0.dev.pins.clocks = true ∧ (link0.dev.port port0.toNat).step = 7 ∧ 1000 ≤ 1000) := by
  refine ⟨?_, ?_, ?_, ?_, ?_, ?_, ?_, ?_, ?_⟩ <;> decide +kernel

/-- States and operands that meet the hypotheses of each clause of `Obligations.SaeriReductions`. -/
theorem witness_SaeriReductions :
    (upState.dev.pins.clocks = true ∧ SaeriReaches upState askPacket 6 ∧ askPacket.addr.toNat / 2 ^ 46 % 2 = 1 ∧ upState.dev.saeri.rows = []) ∧
    (upState.dev.pins.clocks = true ∧ rowPacket.addr.toNat / 2 ^ 46 % 2 = 0 ∧ upState.dev.rowFor rowPacket = none) ∧
    (row0.dev.pins.clocks = true ∧ SaeriReaches row0 rowPacket 6 ∧ rowPacket.addr.toNat / 2 ^ 46 % 2 = 0 ∧
      row0.dev.rowFor rowPacket = some (nodeRow0, waitingJob row0, firstDesc row0, nodes0) ∧ rowPacket.addr.toNat / 2 ^ 47 % 2 = 0 ∧
      nodeRow0.isInt = false ∧ nodeRow0.levels + 1 < (row0.dev.nodeDues nodes0 (firstDesc row0)).length ∧ nodeRow0.sentUp = false) ∧
    (row0.dev.pins.clocks = true ∧ rowPacket.addr.toNat / 2 ^ 51 % 2 = 0 ∧
      row0.dev.chainTaker (rowPacket.addr.toNat / 2 ^ 32 % 2 ^ 6) rowPacket.snode = none) ∧
    (rowFirst.dev.pins.clocks = true ∧ SaeriReaches rowFirst weightPacket 7 ∧ weightPacket.addr.toNat / 2 ^ 51 % 2 = 0 ∧
      rowFirst.dev.chainTaker (weightPacket.addr.toNat / 2 ^ 32 % 2 ^ 6) weightPacket.snode = some (firstDesc rowFirst) ∧
      (∀ e ∈ (rowFirst.dev.core (firstDesc rowFirst).core).chainIn, e.chain ≠ weightPacket.addr.toNat / 2 ^ 32 % 2 ^ 6) ∧
      (rowFirst.dev.cluster ((firstDesc rowFirst).core / 8)).state = 0 ∧
      List.find? (fun p => !p.net && p.tile.chain == weightPacket.addr.toNat / 2 ^ 32 % 2 ^ 6) (rowFirst.dev.core (firstDesc rowFirst).core).chainParts = none) ∧
    (row63.dev.pins.clocks = true ∧ SaeriReaches row63 weightPacket 7 ∧ weightPacket.addr.toNat / 2 ^ 51 % 2 = 0 ∧
      row63.dev.chainTaker (weightPacket.addr.toNat / 2 ^ 32 % 2 ^ 6) weightPacket.snode = some (firstDesc row63) ∧
      (∀ e ∈ (row63.dev.core (firstDesc row63).core).chainIn, e.chain ≠ weightPacket.addr.toNat / 2 ^ 32 % 2 ^ 6) ∧
      (row63.dev.cluster ((firstDesc row63).core / 8)).state = 0 ∧
      List.find? (fun p => !p.net && p.tile.chain == weightPacket.addr.toNat / 2 ^ 32 % 2 ^ 6) (row63.dev.core (firstDesc row63).core).chainParts = some (firstPart row63) ∧
      0 < (firstPart row63).next ∧ (firstPart row63).next = 63) ∧
    (row5.dev.pins.clocks = true ∧ SaeriReaches row5 weightPacket 7 ∧ weightPacket.addr.toNat / 2 ^ 51 % 2 = 0 ∧
      row5.dev.chainTaker (weightPacket.addr.toNat / 2 ^ 32 % 2 ^ 6) weightPacket.snode = some (firstDesc row5) ∧
      (∀ e ∈ (row5.dev.core (firstDesc row5).core).chainIn, e.chain ≠ weightPacket.addr.toNat / 2 ^ 32 % 2 ^ 6) ∧
      (row5.dev.cluster ((firstDesc row5).core / 8)).state = 0 ∧
      List.find? (fun p => !p.net && p.tile.chain == weightPacket.addr.toNat / 2 ^ 32 % 2 ^ 6) (row5.dev.core (firstDesc row5).core).chainParts = some (firstPart row5) ∧
      0 < (firstPart row5).next ∧ (firstPart row5).next ≠ 63) := by
  refine ⟨?_, ?_, ?_, ?_, ?_, ?_, ?_⟩ <;> decide +kernel

/-- What the STORE of `storeState` hands over, and the device after its stores. -/
def handed (s : State) : List Val :=
  (List.range (firstDesc s).vl).map fun p => ofFp32 ((s.dev.core 0).slateAt ((firstDesc s).stepAt 0).a p)
def storedDev (s : State) : Dev :=
  let v := (firstDesc s).view 2
  (storeWalk v (round.settingNat 0x4020 1) (v.runs + 1) 0 ((handed s).take ((handed s).length / v.unit * v.unit))).foldl
    (fun d p => d.store s.fuses (firstDesc s) p) (slateChecked s.dev noUpset)

/-- The STORE clause of `Obligations.SlateBeamreadAndStore`, for FP32. -/
theorem witness_store :
    SlateAt storeState core0 61 slateJob (firstDesc storeState) round ∧ noUpset.failed = false ∧ ((firstDesc storeState).stepAt slateJob.pc).type = 0 ∧
      slateJob.isMat = false ∧ slateJob.buffer = [] ∧ slateJob.cursor = 0 ∧ (storedDev storeState).descOk slateJob.key = true ∧
      ((storedDev storeState).core core0.toNat).slate.job = some slateJob := by decide +kernel

/-- The clause of `Obligations.PortBringUp` about eight consistent marks in order. -/
theorem witness_lane_order :
    (∀ i, i < 8 → (markedStraight.lane (8 * 0 + i)).mark = some (1, 2, straight i, period3 i, notReady i, second i) ∧
      2 ≤ (markedStraight.lane (8 * 0 + i)).marks) ∧
    (∀ i, i < 8 → straight i = if false then 7 - i else i) := by
  constructor
  · intro i h
    interval_cases i <;> decide +kernel
  · intro i _
    rfl

/-- The clauses of `Obligations.PortBringUp` on a port that is up, and of `Obligations.PortControls` on a lane in test. -/
theorem witness_lane_loss_and_test :
    ((portState 7 id).dev.pins.clocks = true ∧ (true = true ∨ 16 ≤ 0) ∧ ((portState 7 id).dev.port (lane0.toNat / 8)).step = 7) ∧
    (Reaches laneTest mgmt ∧ laneTest.dev.pins.clocks = true ∧ (laneTest.dev.lane lane0.toNat).test = true) := by decide +kernel

/-- A command waits, none waits; memory in its form, with a step that answers; fuses blown and a key programmed. -/
def queuedState : State := { State.reset with pending := [.pllLock] }
theorem witness_steps :
    queuedState.pending = .pllLock :: [] ∧ State.reset.pending = [] ∧ memWf queuedState.dev.mem = true ∧ IsNext (step queuedState) = true ∧
      memWf [(3, 1), (9, 255)] = true := by decide +kernel
theorem witness_stopped_clocks :
    atReset.dev.pins.clocks = false ∧ atReset.dev.pins.oscillator = false ∧ (∀ x, Instr.abort roundNo ≠ .powerOn x) ∧
      (∀ x, Instr.abort roundNo ≠ .deviceReset x) ∧ (∀ x n, Instr.abort roundNo ≠ .railFault x n) ∧ Instr.abort roundNo ≠ .pciePerst ∧
      Instr.abort roundNo ≠ .pllLock ∧ (∀ c t, Instr.abort roundNo ≠ .thermalTrip c t) ∧ Instr.abort roundNo ≠ .vbattRemoval := by
  refine ⟨rfl, rfl, ?_⟩
  simp
theorem witness_fuses :
    (fusedState 0x21 up).fuses.security.getLsbD 0 = true ∧ (fusedState 0x21 up).fuses.security.getLsbD 5 = true ∧
      IsNext (step (fusedState 0x21 up)) = true := by decide +kernel

end Sys2Proof.Tests
end

section
/-! The issue of descriptors: when a wait is open, what DESCRIPTOR_ISSUE does with the oldest descriptor not issued, and flags after an
addition (R125, R131, R132). -/

namespace Sys2Proof.Machine

/-! ### Waits -/

/-- The sign bit of the difference `v − t` says that `v` lies behind `t` by the circle of 2^32 (R131). -/
theorem msb_sub_ofNat_iff (v : Word) (t : Nat) : (v - BitVec.ofNat 32 t).msb = true ↔ 2 ^ 31 ≤ (v.toNat + 2 ^ 32 - t % 2 ^ 32) % 2 ^ 32 := by
  have distance : (v - BitVec.ofNat 32 t).toNat = (v.toNat + 2 ^ 32 - t % 2 ^ 32) % 2 ^ 32 := by
    rw [BitVec.toNat_sub, BitVec.toNat_ofNat]
    congr 1
    omega
  rw [BitVec.msb_eq_decide, decide_eq_true_iff, distance]

/-- A wait is open when bit 63 makes it active and the flag of bits 43 to 32 lies behind the threshold of bits 31 to 0. -/
theorem Dev.waitOpen_iff (d : Dev) (w : Nat) :
    d.waitOpen w = true ↔ w / 2 ^ 63 % 2 = 1 ∧ 2 ^ 31 ≤ ((d.flag (w / 2 ^ 32 % 2 ^ 12)).toNat + 2 ^ 32 - w % 2 ^ 32) % 2 ^ 32 := by
  rw [Dev.waitOpen, Bool.and_eq_true, msb_sub_ofNat_iff]
  simp only [bit, bits, beq_iff_eq, Nat.reduceAdd, Nat.reduceSub]

/-- A descriptor has a first open wait where one of its four waits is open. -/
theorem Dev.firstWait_isSome_iff (d : Dev) (x : Desc) : (d.firstWait x).isSome = true ↔ ∃ i, i < 4 ∧ d.waitOpen (x.word (5 + i)) = true := by
  simp only [Dev.firstWait, List.find?_isSome, List.mem_range]

/-! ### DESCRIPTOR_ISSUE -/

/-- In an active round, with no slot to be fetched again before it, the oldest descriptor not issued is issued unless a wait of it is open. -/
theorem descriptorIssue_of_oldest {d : Dev} {n : Nat} {x : Desc} (oldest : d.oldestUnissued n = some x) (active : d.roundActive x.round = true)
    (inOrder : d.awaitsRestart n x.key.slot = false) :
    descriptorIssue n d = if (d.firstWait x).isSome then d else d.setStage x.key .issued := by
  cases held : d.firstWait x <;> simp [descriptorIssue, oldest, active, inOrder, held]

/-! ### Flags -/

/-- A flag after an addition to it: the sum modulo 2^32. -/
theorem flag_flagAdd_same (d : Dev) (f : Nat) (v : Word) : ((flagAdd f v d).flag f).toNat = ((d.flag f).toNat + v.toNat) % 2 ^ 32 := by
  rw [flagAdd, Dev.flag_setFlag, if_pos rfl, BitVec.toNat_add]

/-- Every other flag reads as before. -/
theorem flag_flagAdd_of_ne (d : Dev) {f g : Nat} (v : Word) (h : g ≠ f) : (flagAdd f v d).flag g = d.flag g := by
  rw [flagAdd, Dev.flag_setFlag, if_neg h]

/-! ### The statement -/

/-- Settles O25: the issue takes place unless an open wait is found, and a wait is open as R131 states it on the circle of 2^32. -/
theorem waitsHoldIssue : Obligations.WaitsHoldIssue := by
  unfold Obligations.WaitsHoldIssue
  intro s stream x d n clocks oldest active inOrder holds
  have held : (d.firstWait x).isSome = true ↔ ∃ i, i < 4 ∧ holds i := by
    simp only [Dev.firstWait_isSome_iff, Dev.waitOpen_iff, holds]
  have issue : Gives (.descriptorIssue stream) s (if (d.firstWait x).isSome then d else d.setStage x.key .issued) := by
    rw [← descriptorIssue_of_oldest oldest active inOrder]
    exact onClock_gives clocks
  refine ⟨fun none_holds => ?_, fun some_holds => ?_, fun f v => ?_⟩
  · have open_none : ¬(d.firstWait x).isSome = true := fun found =>
      let ⟨i, lt, hi⟩ := held.1 found
      none_holds i lt hi
    rwa [if_neg open_none] at issue
  · rwa [if_pos (held.2 some_holds)] at issue
  · exact ⟨flagAdd f.toNat v d, onClock_gives clocks, flag_flagAdd_same d f.toNat v, fun g _ other => flag_flagAdd_of_ne d v other⟩

end Sys2Proof.Machine
end

section
/-! Register results, register names and the instruction fetch of the Reckoner (R175, R176, R182, R197): what each changes and what it
leaves. The fetch clause of `Obligations.ReckonerResultFrame` holds where the counter ReckonerCorrected is a number of 64 bits
(`count_rkFetched`), and fails at a table that lists a greater one, which a fetch that corrects nothing leaves as it is. -/

namespace Sys2Proof.Machine

/-! ### What a register result changes -/

/-- An instruction that acts on the bank in use changes the cores alone. -/
theorem rkThen_eq_with_cores (d : Dev) (c : CoreId) (f : Bank → Bank) : rkThen d c f = { d with cores := (rkThen d c f).cores } := rfl

/-- An instruction that acts on the bank in use leaves every other core as it is. -/
theorem core_rkThen_of_ne (d : Dev) {c : CoreId} (f : Bank → Bank) {n : Nat} (other : n ≠ c.toNat) : (rkThen d c f).core n = d.core n :=
  (Dev.core_updCore ..).trans (if_neg other)

/-- An instruction that acts on the bank in use changes, in its own core, the Reckoner alone. -/
theorem core_rkThen_same (d : Dev) (c : CoreId) (f : Bank → Bank) :
    (rkThen d c f).core c.toNat = { d.core c.toNat with rk := (d.core c.toNat).rk.updBank f } :=
  (Dev.core_updCore ..).trans (if_pos rfl)

theorem Reckoner.bank_updBank (k : Reckoner) (f : Bank → Bank) : (k.updBank f).bank = f k.bank := by
  cases shadow : k.inShadow <;> simp [Reckoner.bank, Reckoner.updBank, shadow]

/-- An update of the bank in use leaves the other bank and the rest of the Reckoner. -/
theorem Reckoner.updBank_eq (k : Reckoner) (f : Bank → Bank) :
    k.updBank f = if k.inShadow then { k with shadow := f k.bank } else { k with main := f k.bank } := by
  cases shadow : k.inShadow <;> simp [Reckoner.bank, Reckoner.updBank, shadow]

theorem rkBankOf_rkThen (d : Dev) (c : CoreId) (f : Bank → Bank) : rkBankOf (rkThen d c f) c = f (rkBankOf d c) := by
  rw [rkBankOf, core_rkThen_same, Reckoner.bank_updBank, rkBankOf]

/-- A write of a register changes the register table alone. -/
theorem Bank.set_eq_with_regs (b : Bank) (r : Nat) (v : Word) : b.set r v = { b with regs := (b.set r v).regs } := by
  unfold Bank.set
  split <;> rfl

/-- A register result leaves the accumulators, ROT and SAT of the bank in use (R182). -/
theorem rkBankOf_rkWrites (d : Dev) (c : CoreId) (v : Word) : rkBankOf (rkWrites d c v) c =
    { rkBankOf d c with regs := ((rkBankOf d c).set (rkFirst d c) v).regs, pc := (rkBankOf d c).pc + 4 } := by
  rw [rkWrites, rkBankOf_rkThen, Bank.set_eq_with_regs]

/-- The registers of the bank in use after a register result: g0 reads 0 and every other name as before (R175, R176). -/
theorem get_rkWrites (d : Dev) (c : CoreId) (v : Word) {r : Nat} (name : r < 32) :
    (rkBankOf (rkWrites d c v) c).get r = if r = rkFirst d c then (if rkFirst d c = 0 then 0 else v) else (rkBankOf d c).get r := by
  rw [← Bank.get_set _ _ _ _ (rkFirst_lt d c) name, rkBankOf_rkWrites, Bank.set_eq_with_regs]
  rfl

/-! ### Register names under ROT -/

/-- The physical register that g16 + i names. -/
theorem Bank.phys_upper (b : Bank) (i : Nat) : b.phys (16 + i) = 16 + (i + b.rot.toNat) % 16 := by
  rw [Bank.phys, if_neg (by omega), Nat.add_sub_cancel_left]

theorem Bank.get_upper (b : Bank) (i : Nat) : b.get (16 + i) = tabGet 0 b.regs (16 + (i + b.rot.toNat) % 16) := by
  rw [Bank.get, if_neg (by omega), Bank.phys_upper]

theorem Bank.set_upper (b : Bank) (i : Nat) (v : Word) :
    b.set (16 + i) v = { b with regs := tabSet b.regs (16 + (i + b.rot.toNat) % 16) v } := by
  rw [Bank.set, if_neg (by omega), Bank.phys_upper]

/-- Advancing ROT by one moves each value of g16 to g31 down one name, around the circle (R176). -/
theorem Bank.get_upper_rot_succ (b : Bank) (i : Nat) : Bank.get { b with rot := b.rot + 1 } (16 + i) = b.get (16 + (i + 1) % 16) := by
  have rot_succ : (b.rot + 1).toNat = (b.rot.toNat + 1) % 16 := BitVec.toNat_add ..
  have same_register : (i + (b.rot + 1).toNat) % 16 = ((i + 1) % 16 + b.rot.toNat) % 16 := by omega
  rw [Bank.get_upper, Bank.get_upper, same_register]

/-- ROT does not rename g0 to g15. -/
theorem Bank.get_lower_of_rot (b : Bank) (rot : BitVec 4) {r : Nat} (lower : r < 16) : Bank.get { b with rot := rot } r = b.get r := by
  simp only [Bank.get, Bank.phys, lower, if_true]

/-! ### What a fetch corrects -/

/-- Growing a counter twice is growing it once by the sum. -/
theorem Dev.bump_bump (d : Dev) (i s m n : Nat) : (d.bump i s m).bump i s n = d.bump i s (m + n) := by
  by_cases hm : m = 0
  · rw [hm, Dev.bump_zero, Nat.zero_add]
  by_cases hn : n = 0
  · rw [hn, Dev.bump_zero, Nat.add_zero]
  have sum : m + n ≠ 0 := by omega
  simp only [Dev.bump, Dev.count, hm, hn, sum, if_false, tabGet_tabSet, if_true, tabSet_tabSet, Nat.mod_add_mod, Nat.add_assoc]

/-- Corrected words that all count at one object grow its counter by their number. -/
theorem foldl_bump_correctedObj (o : Nat × Nat) (l : List Nat) (d : Dev)
    (counted : ∀ w ∈ l, ∀ e : Dev, (e.regionOf (w * 16)).correctedObj = o) :
    l.foldl (fun d w => let p := (d.regionOf (w * 16)).correctedObj; d.bump p.1 p.2 1) d = d.bump o.1 o.2 l.length := by
  induction l generalizing d with
  | nil => exact (Dev.bump_zero ..).symm
  | cons w l ih =>
    rw [List.foldl_cons, ih _ fun x hx => counted x (List.mem_cons_of_mem w hx), counted w List.mem_cons_self, Dev.bump_bump,
      List.length_cons, Nat.add_comm]

/-- Corrections in a core's Reckoner memory count at 0x3081.04 (R197). -/
theorem correctedObj_of_rkWindow (d : Dev) {a n : Nat} (core : n < 128) (above : rkWindow n ≤ a) (below : a < rkWindow n + 0x18000) :
    (d.regionOf a).correctedObj = (0x3081, 4) := by
  simp only [rkWindow, rkBase] at above below
  have region : d.regionOf a = .rk ((a - rkBase) / 0x40000) := by
    unfold Dev.regionOf scratchBase tileBase rkBase
    rw [if_neg (by omega), if_neg (by omega), if_neg (by omega), if_pos (by omega), if_pos (by omega)]
  rw [region]
  rfl

theorem bounds_of_mem_wordsOf {a n w : Nat} (touched : w ∈ wordsOf a n) : a / 16 ≤ w ∧ w ≤ (a + n - 1) / 16 := by
  unfold wordsOf at touched
  split at touched
  · exact absurd touched List.not_mem_nil
  · obtain ⟨i, inside, rfl⟩ := List.mem_map.1 touched
    have := List.mem_range.1 inside
    omega

/-- The words of an instruction lie in the core's Reckoner memory. -/
theorem correctedObj_of_mem_fetch {k : Reckoner} {c : CoreId} {pc w : Nat} (within : pc ≤ 0x3FFC)
    (touched : w ∈ wordsOf (k.ibase c.toNat + pc) 4) (e : Dev) : (e.regionOf (w * 16)).correctedObj = (0x3081, 4) := by
  have offset : k.ibase c.toNat = rkWindow c.toNat + 0x10000 ∨ k.ibase c.toNat = rkWindow c.toNat + 0x14000 := by
    cases bank : k.abank <;> simp [Reckoner.ibase, bank]
  have whole_words : rkWindow c.toNat % 16 = 0 := by
    simp only [rkWindow, rkBase]
    omega
  obtain ⟨first, last⟩ := bounds_of_mem_wordsOf touched
  exact correctedObj_of_rkWindow e c.isLt (by omega) (by omega)

/-- The guard-code words of the instruction at the PC. -/
def fetchWords (d : Dev) (c : CoreId) : List Nat := wordsOf ((d.core c.toNat).rk.ibase c.toNat + (rkBankOf d c).pc.toNat) 4

/-- The device without the correctable errors of some words. -/
def Dev.withoutLatent (d : Dev) (ws : List Nat) : Dev := { d with latent := d.latent.filter fun w => !ws.contains w }

/-- A fetch takes the correctable errors out of the instruction's words, counts each at 0x3081.04 and changes nothing else (R197). -/
theorem rkFetched_eq_bump (s : State) (c : CoreId) (within : (rkBankOf s.dev c).pc.toNat ≤ 0x3FFC) :
    rkFetched s c = (s.dev.withoutLatent (fetchWords s.dev c)).bump 0x3081 4
      (s.dev.latent.filter fun w => (fetchWords s.dev c).contains w).length :=
  foldl_bump_correctedObj (0x3081, 4) _ _ fun _ met =>
    correctedObj_of_mem_fetch within (List.contains_iff_mem.1 (List.mem_filter.1 met).2)

/-- ReckonerCorrected after a fetch, where it was a number of 64 bits. -/
theorem count_rkFetched (s : State) (c : CoreId) (within : (rkBankOf s.dev c).pc.toNat ≤ 0x3FFC) (bits64 : s.dev.count 0x3081 4 < 2 ^ 64) :
    (rkFetched s c).count 0x3081 4 =
      (s.dev.count 0x3081 4 + (s.dev.latent.filter fun w => (fetchWords s.dev c).contains w).length) % 2 ^ 64 := by
  rw [rkFetched_eq_bump s c within]
  generalize (s.dev.latent.filter fun w => (fetchWords s.dev c).contains w).length = corrected
  by_cases none : corrected = 0
  · rw [none, Dev.bump_zero, Nat.add_zero, Nat.mod_eq_of_lt bits64]
    rfl
  · exact (Dev.count_bump _ _ _ _ (0x3081, 4) none).trans (if_pos rfl)

/-- A fetch from a device without correctable errors leaves every counter. -/
theorem count_rkFetched_of_latent_nil (s : State) (c : CoreId) (i k : Nat) (within : (rkBankOf s.dev c).pc.toNat ≤ 0x3FFC)
    (sound : s.dev.latent = []) : (rkFetched s c).count i k = s.dev.count i k := by
  rw [rkFetched_eq_bump s c within, sound, List.filter_nil, List.length_nil, Dev.bump_zero]
  rfl

/-! ### The statement -/

/-- The state after reset, but with 2^64 listed for ReckonerCorrected. -/
def correctedPast64 : State := { State.reset with dev := { Dev.reset with counters := [(okey 0x3081 4, 2 ^ 64)] } }

/-- Refutes O6: where the table of counters lists 2^64 for 0x3081.04, a fetch that meets no error leaves 2^64 there, and the fetch clause
asks for (2^64 + 0) modulo 2^64, which is 0. -/
theorem not_reckonerResultFrame : ¬ Obligations.ReckonerResultFrame := by
  unfold Obligations.ReckonerResultFrame
  rintro ⟨-, -, fetch⟩
  have within : (rkBankOf correctedPast64.dev 0).pc.toNat ≤ 0x3FFC := by decide
  have kept : (rkFetched correctedPast64 0).count 0x3081 4 = 2 ^ 64 := count_rkFetched_of_latent_nil correctedPast64 0 0x3081 4 within rfl
  obtain ⟨-, -, counted, -⟩ := fetch correctedPast64 0 within
  rw [kept] at counted
  exact absurd counted (by decide)

end Sys2Proof.Machine
end

section
/-! The ports and lanes of the Saeri fabric as state: reads after an update of the eight lanes of a port, the beginning of a bring-up step,
and the fall of a port (R278, R281, R284). -/

namespace Sys2Proof.Machine

/-! ### Commands on the clock -/

/-- With the clocks running a command gives what its meaning answers. -/
theorem onClock_gives_of_eq {s : State} {f : Dev → Dev} {t : Dev} (clocks : s.dev.pins.clocks = true) (meaning : f s.dev = t) :
    s.onClock f = .next (s.withDev t) := by
  rw [onClock_gives clocks, meaning]

/-- A command whose meaning leaves the device is ignored. -/
theorem onClock_ignored {s : State} {f : Dev → Dev} (same : f s.dev = s.dev) : s.onClock f = .next s := by
  cases clocks : s.dev.pins.clocks with
  | true => exact onClock_gives_of_eq clocks same
  | false => exact State.onClock_stopped f clocks

/-! ### Reads of ports and lanes -/

@[simp] theorem Dev.lane_updPort (d : Dev) (p m : Nat) (f : Port → Port) : (d.updPort p f).lane m = d.lane m := rfl

theorem Dev.port_updPort_same (d : Dev) (p : Nat) (f : Port → Port) : (d.updPort p f).port p = f (d.port p) := by
  rw [Dev.port_updPort, if_pos rfl]

theorem Dev.port_updPort_of_ne (d : Dev) {p m : Nat} (f : Port → Port) (other : m ≠ p) : (d.updPort p f).port m = d.port m := by
  rw [Dev.port_updPort, if_neg other]

/-! ### The eight lanes of a port -/

/-- `t` is `d` with `f` applied to each lane of port `p`. -/
structure LanesUpdated (d t : Dev) (p : Nat) (f : Nat → Lane → Lane) : Prop where
  rest : t = { d with lanes := t.lanes }
  lane : ∀ m, t.lane m = if m / 8 = p then f m (d.lane m) else d.lane m

section
variable {d t : Dev} {p : Nat} {f : Nat → Lane → Lane} (h : LanesUpdated d t p f)
include h
theorem LanesUpdated.ports : t.ports = d.ports := by rw [h.rest]
theorem LanesUpdated.mem : t.mem = d.mem := by rw [h.rest]
theorem LanesUpdated.saeri : t.saeri = d.saeri := by rw [h.rest]
theorem LanesUpdated.objs : t.objs = d.objs := by rw [h.rest]
theorem LanesUpdated.port (m : Nat) : t.port m = d.port m := by rw [Dev.port, h.ports, Dev.port]
theorem LanesUpdated.obj (i k : Nat) : t.obj i k = d.obj i k := by rw [Dev.obj, h.objs, Dev.obj]
end

/-- A pass over the lanes of a port, each step of which acts on its own lane. -/
theorem lanesUpdated_foldl {d : Dev} {p : Nat} {g : Dev → Nat → Dev} {f : Nat → Lane → Lane}
    (only : ∀ e i, g e i = { e with lanes := (g e i).lanes })
    (reads : ∀ e i m, i < 8 → e.objs = d.objs → (g e i).lane m = if m = 8 * p + i then f m (e.lane m) else e.lane m) :
    LanesUpdated d ((List.range 8).foldl g d) p f := by
  have pass : ∀ n, n ≤ 8 →
      (List.range n).foldl g d = { d with lanes := ((List.range n).foldl g d).lanes } ∧
      ∀ m, ((List.range n).foldl g d).lane m = if m / 8 = p ∧ m % 8 < n then f m (d.lane m) else d.lane m := by
    intro n
    induction n with
    | zero => exact fun _ => ⟨rfl, fun m => (if_neg (by omega)).symm⟩
    | succ n ih =>
      intro le
      obtain ⟨rest, lane⟩ := ih (by omega)
      have objs : ((List.range n).foldl g d).objs = d.objs := by rw [rest]
      rw [List.range_succ, List.foldl_append, List.foldl_cons, List.foldl_nil]
      refine ⟨?_, fun m => ?_⟩
      · rw [only, rest]
      · rw [reads _ _ _ (by omega) objs, lane]
        by_cases own : m = 8 * p + n
        · rw [if_pos own, if_neg (by omega), if_pos (by omega)]
        · rw [if_neg own]
          exact if_congr (by omega) rfl rfl
  obtain ⟨rest, lane⟩ := pass 8 le_rfl
  refine ⟨rest, fun m => ?_⟩
  rw [lane]
  exact if_congr (by omega) rfl rfl

theorem foldl_lanesOf (p : Nat) (g : Dev → Nat → Dev) (d : Dev) :
    (lanesOf p).foldl g d = (List.range 8).foldl (fun e i => g e (8 * p + i)) d := by
  rw [lanesOf, List.foldl_map]

theorem lanesUpdated_mapLanes (d : Dev) (p : Nat) (f : Lane → Lane) : LanesUpdated d (d.mapLanes p f) p fun _ => f := by
  rw [Dev.mapLanes, foldl_lanesOf]
  refine lanesUpdated_foldl (fun _ _ => rfl) fun e i m _ _ => ?_
  rw [Dev.lane_updLane]
  split <;> simp_all

theorem mem_lanesOf {p m : Nat} : m ∈ lanesOf p ↔ m / 8 = p := by
  simp only [lanesOf, List.mem_map, List.mem_range]
  exact ⟨fun ⟨i, _, _⟩ => by omega, fun _ => ⟨m % 8, by omega, by omega⟩⟩

theorem Dev.allLanes_iff (d : Dev) (p : Nat) (f : Lane → Bool) : d.allLanes p f = true ↔ ∀ m, m / 8 = p → f (d.lane m) = true := by
  simp only [Dev.allLanes, List.all_eq_true, mem_lanesOf]

/-! ### A bring-up step begins -/

theorem Dev.port_portStep (d : Dev) (p k m : Nat) :
    (d.portStep p k).port m = if m = p then { d.port p with step := k, readyMarks := 0 } else d.port m := by
  rw [Dev.portStep, (lanesUpdated_mapLanes ..).port, Dev.port_updPort]

theorem Dev.lane_portStep (d : Dev) (p k m : Nat) :
    (d.portStep p k).lane m = if m / 8 = p then { d.lane m with marks := 0, mark := none } else d.lane m := by
  rw [Dev.portStep, (lanesUpdated_mapLanes ..).lane, Dev.lane_updPort]

@[simp] theorem Dev.mem_portStep (d : Dev) (p k : Nat) : (d.portStep p k).mem = d.mem := (lanesUpdated_mapLanes ..).mem
@[simp] theorem Dev.saeri_portStep (d : Dev) (p k : Nat) : (d.portStep p k).saeri = d.saeri := (lanesUpdated_mapLanes ..).saeri

/-- A step begins on a device whose lanes an event has changed: `f` touches neither a lane's MARK nor its count. -/
theorem portStep_of_lanesUpdated {d e : Dev} {p : Nat} {f : Nat → Lane → Lane} (h : LanesUpdated d e p f) (k : Nat)
    (marks : ∀ j y, { f j y with marks := 0, mark := none } = f j { y with marks := 0, mark := none }) :
    (e.portStep p k).port p = { d.port p with step := k, readyMarks := 0 } ∧ (∀ j, j ≠ p → (e.portStep p k).port j = d.port j) ∧
    (∀ j, (e.portStep p k).lane j = if j / 8 = p then f j { d.lane j with marks := 0, mark := none } else d.lane j) ∧
    (e.portStep p k).mem = d.mem ∧ (e.portStep p k).saeri = d.saeri := by
  refine ⟨?_, fun j other => ?_, fun j => ?_, ?_, ?_⟩
  · rw [Dev.port_portStep, if_pos rfl, h.port]
  · rw [Dev.port_portStep, if_neg other, h.port]
  · rw [Dev.lane_portStep, h.lane]
    split
    · exact marks ..
    · rfl
  · rw [Dev.mem_portStep, h.mem]
  · rw [Dev.saeri_portStep, h.saeri]

/-- No step begins: only the lanes have changed. -/
theorem LanesUpdated.stays {d e : Dev} {p : Nat} {f : Nat → Lane → Lane} (h : LanesUpdated d e p f) :
    (∀ j, e.port j = d.port j) ∧ (∀ j, e.lane j = if j / 8 = p then f j (d.lane j) else d.lane j) ∧ e.mem = d.mem ∧ e.saeri = d.saeri :=
  ⟨h.port, h.lane, h.mem, h.saeri⟩

/-! ### A port goes down -/

/-- A port that is down, with its cause (R281, R284). -/
def Port.fallen (q : Port) (cause : Nat) : Port :=
  { q with step := 8, cause := cause, replay := [], nak := false, inUse := [], owed := [], rxWords := [] }

/-- In bring-up a port goes down without more ado. -/
theorem Dev.portDown_of_bringUp {d : Dev} {p : Nat} (cause : Nat) (begun : 0 < (d.port p).step) (bringUp : (d.port p).step < 7) :
    d.portDown p cause = d.updPort p fun q => q.fallen cause := by
  unfold Dev.portDown
  dsimp only
  rw [if_neg (by omega), if_neg (by omega)]
  rfl

/-- A port that was up hands its packets on (R267, R289). -/
theorem Dev.portDown_of_up {d : Dev} {p : Nat} (cause : Nat) (up : (d.port p).step = 7) :
    d.portDown p cause = (d.updPort p fun q => q.fallen cause).afterDown (d.port p).peerNode p (framePackets (d.port p).replay) := by
  unfold Dev.portDown
  dsimp only
  rw [if_neg (by omega), if_pos up]
  rfl

/-- A port that is down already stays as it is. -/
theorem Dev.portDown_of_down {d : Dev} {p : Nat} (cause : Nat) (down : (d.port p).step = 8) : d.portDown p cause = d := by
  unfold Dev.portDown
  exact if_pos (.inr down)

end Sys2Proof.Machine
end

section
/-! The bring-up events of a port (R278 to R281), a FILL (R275), the descrambler (R272) and the test of a lane (R291). -/

namespace Sys2Proof.Machine

/-! ### SIGNAL_DETECT and CDR_LOCK -/

/-- A lane after SIGNAL_DETECT and after CDR_LOCK, by the bit for it. -/
def withEnergy (lanes : Byte) (j : Nat) (y : Lane) : Lane := { y with signal := lanes.getLsbD (j % 8) }
def withCdr (lanes : Byte) (j : Nat) (y : Lane) : Lane := { y with cdr := y.cdr || lanes.getLsbD (j % 8) }

theorem signalDetect_of_disabled {d : Dev} {p : Nat} (lanes : Byte) (ns : Nat) (off : (d.port p).enabled = false) :
    signalDetect p lanes ns d = d := by
  simp [signalDetect, off]

/-- On an enabled port the lanes' signal bits are as the event says; energy on all lanes for 1 µs ends step 1. -/
theorem signalDetect_of_enabled {d : Dev} {p : Nat} (lanes : Byte) (ns : Nat) (on : (d.port p).enabled = true) :
    ∃ e, LanesUpdated d e p (withEnergy lanes) ∧
      signalDetect p lanes ns d = if (d.port p).step = 1 ∧ lanes = 0xFF ∧ 1000 ≤ ns then e.portStep p 2 else e := by
  refine ⟨(List.range 8).foldl (fun d i => d.updLane (8 * p + i) fun l => { l with signal := lanes.getLsbD i }) d,
    lanesUpdated_foldl (fun _ _ => rfl) fun e i m lt _ => ?_, by simp [signalDetect, on]⟩
  rw [Dev.lane_updLane]
  refine if_ctx_congr Iff.rfl (fun own => ?_) fun _ => rfl
  rw [own, withEnergy, Nat.mul_add_mod_self_left, Nat.mod_eq_of_lt lt]

theorem cdrLock_outside {d : Dev} {p : Nat} (lanes : Byte) (outside : (d.port p).step < 2 ∨ 7 < (d.port p).step) : cdrLock p lanes d = d :=
  if_pos outside

/-- The device once those lanes of a port that `lanes` names have locked to their data. -/
def Dev.lockCdr (d : Dev) (p : Nat) (lanes : Byte) : Dev :=
  (List.range 8).foldl (fun d i => if lanes.getLsbD i then d.updLane (8 * p + i) fun l => { l with cdr := true } else d) d

theorem lanesUpdated_lockCdr (d : Dev) (p : Nat) (lanes : Byte) : LanesUpdated d (d.lockCdr p lanes) p (withCdr lanes) := by
  refine lanesUpdated_foldl (fun e i => ?_) fun e i m lt _ => ?_
  · split <;> rfl
  · have bit : (8 * p + i) % 8 = i := by omega
    cases set : lanes.getLsbD i with
    | true =>
      rw [if_pos rfl, Dev.lane_updLane]
      refine if_ctx_congr Iff.rfl (fun own => ?_) fun _ => rfl
      rw [own, withCdr, bit, set, Bool.or_true]
    | false =>
      rw [if_neg Bool.false_ne_true]
      split
      · next own => rw [own, withCdr, bit, set, Bool.or_false]
      · rfl

/-- From step 2 on the lanes' CDR bits are as the event says; all eight end step 2. -/
theorem cdrLock_of_begun {d : Dev} {p : Nat} (lanes : Byte) (lo : 2 ≤ (d.port p).step) (hi : (d.port p).step ≤ 7) :
    let ends := (d.port p).step = 2 ∧ ∀ j, j / 8 = p → (d.lane j).cdr = true ∨ lanes.getLsbD (j % 8) = true
    (ends → cdrLock p lanes d = (d.lockCdr p lanes).portStep p 3) ∧ (¬ends → cdrLock p lanes d = d.lockCdr p lanes) := by
  have inside : ¬((d.port p).step < 2 ∨ 7 < (d.port p).step) := by omega
  have every_iff : (d.lockCdr p lanes).allLanes p Lane.cdr = true ↔
      ∀ j, j / 8 = p → (d.lane j).cdr = true ∨ lanes.getLsbD (j % 8) = true := by
    rw [Dev.allLanes_iff]
    refine forall₂_congr fun j own => ?_
    rw [(lanesUpdated_lockCdr d p lanes).lane, if_pos own]
    simp only [withCdr, Bool.or_eq_true]
  rw [← every_iff]
  exact ⟨fun ends => (if_neg inside).trans (if_pos ends), fun not => (if_neg inside).trans (if_neg not)⟩

/-! ### BLOCK_LOCK, BRINGUP_TIMEOUT and LANE_LOCK_LOSS -/

theorem blockLock_outside {d : Dev} {l headers : Nat} (outside : headers < 64 ∨ (d.port (l / 8)).step < 3 ∨ 7 < (d.port (l / 8)).step) :
    blockLock l headers d = d :=
  if_pos (by unfold portOfLane; tauto)

/-- 64 valid headers lock the lane; where the seven others are locked, step 3 ends. -/
theorem blockLock_of_begun {d : Dev} {l headers : Nat} (lo : 3 ≤ (d.port (l / 8)).step) (hi : (d.port (l / 8)).step ≤ 7) (valid : 64 ≤ headers) :
    let e := d.updLane l fun y => { y with lock := true }
    let ends := (d.port (l / 8)).step = 3 ∧ ∀ j, j / 8 = l / 8 → j ≠ l → (d.lane j).lock = true
    (ends → blockLock l headers d = e.portStep (l / 8) 4) ∧ (¬ends → blockLock l headers d = e) := by
  have inside : ¬((d.port (l / 8)).step < 3 ∨ 7 < (d.port (l / 8)).step ∨ headers < 64) := by omega
  have every_iff : (d.updLane l fun y => { y with lock := true }).allLanes (l / 8) Lane.lock = true ↔
      ∀ j, j / 8 = l / 8 → j ≠ l → (d.lane j).lock = true := by
    rw [Dev.allLanes_iff]
    refine forall₂_congr fun j _ => ?_
    rw [Dev.lane_updLane]
    by_cases own : j = l <;> simp [own]
  rw [← every_iff]
  exact ⟨fun ends => (if_neg inside).trans (if_pos ends), fun not => (if_neg inside).trans (if_neg not)⟩

/-- Where the seven other lanes are locked, all eight lanes of the port read as locked. -/
theorem lanesUpdated_lock {d : Dev} {l : Nat} (others : ∀ j, j / 8 = l / 8 → j ≠ l → (d.lane j).lock = true) :
    LanesUpdated d (d.updLane l fun y => { y with lock := true }) (l / 8) fun _ y => { y with lock := true } := by
  refine ⟨rfl, fun m => ?_⟩
  rw [Dev.lane_updLane]
  by_cases own : m = l
  · rw [if_pos own, own, if_pos rfl]
  · rw [if_neg own]
    split
    · next same => rw [← others m same own]
    · rfl

theorem bringupTimeout_of_soon {d : Dev} {p ns : Nat} (soon : ns ≤ 20000) : bringupTimeout p ns d = d := if_pos soon

/-- A step other than 2, 4 and 5 has no limit. -/
theorem bringupTimeout_of_other {d : Dev} {p : Nat} (ns : Nat) (other : (d.port p).step ≠ 2 ∧ (d.port p).step ≠ 4 ∧ (d.port p).step ≠ 5) :
    bringupTimeout p ns d = d := by
  obtain ⟨two, four, five⟩ := other
  unfold bringupTimeout
  split
  · rfl
  · split
    · next step => exact absurd step two
    · next step => exact absurd step four
    · next step => exact absurd step five
    · rfl

/-- Steps 2, 4 and 5 that exceed 20 µs take the port down with CAUSE 1, 2 and 3. -/
theorem bringupTimeout_of_late {d : Dev} {p ns : Nat} (late : 20000 < ns) :
    ((d.port p).step = 2 → bringupTimeout p ns d = d.updPort p fun q => q.fallen 1) ∧
    ((d.port p).step = 4 → bringupTimeout p ns d = d.updPort p fun q => q.fallen 2) ∧
    ((d.port p).step = 5 → bringupTimeout p ns d = d.updPort p fun q => q.fallen 3) := by
  have exceeded : ¬ns ≤ 20000 := by omega
  refine ⟨fun step => ?_, fun step => ?_, fun step => ?_⟩ <;>
  · rw [← Dev.portDown_of_bringUp _ (by omega) (by omega)]
    simp only [bringupTimeout, exceeded, step, if_false]

theorem laneLockLoss_of_few {d : Dev} {l bad : Nat} {cdr : Bool} (held : cdr = false) (few : bad < 16) : laneLockLoss l cdr bad d = d := by
  simp [laneLockLoss, held, few]

/-- The device once a lane has left block lock, or lost CDR lock. -/
def Dev.loseLock (d : Dev) (l : Nat) (cdr : Bool) : Dev := d.updLane l fun y => { y with lock := false, cdr := y.cdr && !cdr }

/-- A lane that leaves block lock or loses CDR lock takes its port down from step 4 on (R281). -/
theorem laneLockLoss_of_lost {d : Dev} {l bad : Nat} {cdr : Bool} (lost : cdr = true ∨ 16 ≤ bad) :
    laneLockLoss l cdr bad d = if 4 ≤ (d.port (l / 8)).step then (d.loseLock l cdr).portDown (l / 8) 7 else d.loseLock l cdr := by
  refine if_neg ?_
  rintro ⟨held, few⟩
  rcases lost with rfl | many
  · exact absurd held (by decide)
  · omega

/-! ### FILL_RECEIVE -/

theorem Port.upright_of_not_inverted {q : Port} {i : Nat} (b : Block) (upright : q.inverted.getLsbD i = false) : q.upright i b = b := by
  simp [Port.upright, upright]

theorem isFill_iff (b : Block) : isFill b = true ↔ b = { header := 0b10, payload := 0x96 } := by
  cases b
  simp [isFill]

/-- On a lane that is not inverted, a block other than FILL changes nothing. -/
theorem fillReceive_of_other {d : Dev} {l : Nat} {line : LineBlock} (depth : Nat) (upright : (d.port (l / 8)).inverted.getLsbD (l % 8) = false)
    (other : descramble line ≠ { header := 0b10, payload := 0x96 }) : fillReceive l line depth d = d := by
  have not_fill : isFill (descramble line) = false := by rwa [← Bool.not_eq_true, isFill_iff]
  refine if_pos (.inr ?_)
  rw [portOfLane, Port.upright_of_not_inverted _ upright, not_fill]
  rfl

/-- A FILL on a lane of an enabled port is deleted above a depth of 5 blocks and repeated below 3 (R275). -/
theorem fillReceive_of_fill {d : Dev} {l : Nat} {line : LineBlock} (depth : Nat) (on : (d.port (l / 8)).enabled = true)
    (upright : (d.port (l / 8)).inverted.getLsbD (l % 8) = false) (fill : descramble line = { header := 0b10, payload := 0x96 }) :
    fillReceive l line depth d =
      if 5 < depth then d.updLane l fun y => { y with deleted := y.deleted + 1 }
      else if depth < 3 then d.updLane l fun y => { y with repeated := y.repeated + 1 } else d := by
  have is_fill : isFill (descramble line) = true := (isFill_iff _).2 fill
  simp only [fillReceive, portOfLane, on, Port.upright_of_not_inverted _ upright, is_fill, Bool.not_true, Bool.false_eq_true, or_self, if_false]

/-! ### The descrambler -/

/-- Bit `i` of the line's bits in order, the 58 before the block first. -/
theorem testBit_line (before : BitVec 58) (payload : BitVec 64) (i : Nat) :
    (before.toNat + 2 ^ 58 * payload.toNat).testBit i = if i < 58 then before.getLsbD i else payload.getLsbD (i - 58) := by
  rw [Nat.add_comm, Nat.testBit_two_pow_mul_add _ before.isLt]
  rfl

/-- Each bit of a payload is descrambled with the bits 39 and 58 places before it on the line (R272). -/
theorem getLsbD_descramble (b : LineBlock) {i : Nat} (inside : i < 64) :
    (descramble b).payload.getLsbD i =
      (b.block.payload.getLsbD i ^^ (if i < 39 then b.before.getLsbD (i + 19) else b.block.payload.getLsbD (i - 39)) ^^
        (if i < 58 then b.before.getLsbD i else b.block.payload.getLsbD (i - 58))) := by
  have nearer : (i + 19 < 58) = (i < 39) := by simp only [eq_iff_iff]; omega
  have own : ¬i + 58 < 58 := by omega
  have offset : i + 19 - 58 = i - 39 := by omega
  unfold descramble
  dsimp only
  rw [BitVec.getLsbD_ofNat, decide_eq_true inside, Bool.true_and]
  change Nat.testBit ((_ ^^^ _) ^^^ _) i = _
  simp only [Nat.testBit_xor, Nat.testBit_div_two_pow, testBit_line, nearer, own, offset, if_false, Nat.add_sub_cancel]

/-! ### The test of a lane -/

/-- A lane in test counts a bit in error, up to 2^32 − 1 (R291). -/
theorem laneTestError_of_test {d : Dev} {l : Nat} (test : (d.lane l).test = true) :
    laneTestError l d = d.updLane l fun y => { y with testErrors := min (y.testErrors + 1) (2 ^ 32 - 1) } := by
  simp only [laneTestError, Dev.updLane, test, if_true]

/-- A lane that is not in test reads as before. -/
theorem lane_laneTestError_of_no_test {d : Dev} {l : Nat} (test : (d.lane l).test = false) (j : Nat) :
    (laneTestError l d).lane j = d.lane j := by
  rw [laneTestError, Dev.lane_updLane, test]
  split
  · next own => exact own ▸ rfl
  · rfl

end Sys2Proof.Machine
end

section
/-! MARKs (R273, R279, R280, R283): a block read as a MARK, the order and inversion of the lanes in step 4, and the checks of link start. -/

namespace Sys2Proof.Machine

/-! ### MARK_RECEIVE -/

theorem markOf_of_mark {b : Block} (header : b.header = 0b10) (type : b.payload.toNat % 256 = 0xD2) :
    markOf b = some (markFields b.payload.toNat false) := by
  simp [markOf, header, type]

theorem markOf_of_other_header {b : Block} (straight : b.header ≠ 0b10) (inverted : b.header ≠ 0b01) : markOf b = none := by
  simp only [markOf, straight, inverted, false_and, if_false]

/-- Before step 4 no block is read as a MARK. -/
theorem markReceive_early {d : Dev} {l : Nat} (line : LineBlock) (skew : Nat) (early : (d.port (l / 8)).step < 4) :
    markReceive l line skew d = d := by
  unfold markReceive portOfLane
  dsimp only
  split
  · rfl
  · exact if_pos (.inl early)

/-- A block that is no MARK changes nothing in step 4. -/
theorem markReceive_of_no_mark {d : Dev} {l : Nat} {line : LineBlock} (skew : Nat) (step : (d.port (l / 8)).step = 4)
    (straight : (descramble line).header ≠ 0b10) (inverted : (descramble line).header ≠ 0b01) : markReceive l line skew d = d := by
  unfold markReceive portOfLane
  simp only [step, Nat.reduceLeDiff, if_false, markOf_of_other_header straight inverted]

/-- The device once a lane has noted a MARK. -/
def Dev.noteMark (d : Dev) (l : Nat) (m : Nat × Nat × Nat × Nat × Bool × Bool) : Dev :=
  d.updLane l fun x => { x with mark := some m, marks := x.marks + 1 }

/-- A MARK on a lane that is not inverted, in steps 4 to 7. -/
theorem markReceive_of_mark {d : Dev} {l : Nat} {line : LineBlock} (skew : Nat) (lo : 4 ≤ (d.port (l / 8)).step) (hi : (d.port (l / 8)).step ≤ 7)
    (upright : 5 ≤ (d.port (l / 8)).step → (d.port (l / 8)).inverted.getLsbD (l % 8) = false) (header : (descramble line).header = 0b10)
    (type : (descramble line).payload.toNat % 256 = 0xD2) :
    let m := markFields (descramble line).payload.toNat false
    markReceive l line skew d =
      if 5 ≤ (d.port (l / 8)).step ∧ 16 < skew then d.portDown (l / 8) 3
      else if (d.lane l).mark.map (·.2.2.2.1) = some m.2.2.2.1 then d
      else if (d.port (l / 8)).step = 4 then (d.noteMark l m).resolveLanes (l / 8)
      else if (d.port (l / 8)).step = 5 then
        (if (d.noteMark l m).onePeriod (l / 8) then (d.noteMark l m).portStep (l / 8) 6 else d.noteMark l m)
      else if (d.port (l / 8)).step = 6 then (d.noteMark l m).countReady (l / 8)
      else d.noteMark l m := by
  have read : (if 5 ≤ (d.port (l / 8)).step then (d.port (l / 8)).upright (l % 8) (descramble line) else descramble line) = descramble line := by
    split
    · next late => exact Port.upright_of_not_inverted _ (upright late)
    · rfl
  have inside : ¬((d.port (l / 8)).step < 4 ∨ 7 < (d.port (l / 8)).step ∨ (4 < (d.port (l / 8)).step ∧
      (markFields (descramble line).payload.toNat false).2.2.2.2.2 = true)) := by
    rintro (early | late | ⟨-, inverted⟩)
    · omega
    · omega
    · exact Bool.false_ne_true inverted
  unfold markReceive portOfLane
  simp only [read, markOf_of_mark header type]
  exact if_neg inside

section
variable {d : Dev} {l skew : Nat} {line : LineBlock} (header : (descramble line).header = 0b10)
  (type : (descramble line).payload.toNat % 256 = 0xD2)
include header type

/-- In step 4 a MARK of a new period is noted, and the lanes may be decided (R280). -/
theorem markReceive_in_step_four (four : (d.port (l / 8)).step = 4)
    (new : (d.lane l).mark.map (·.2.2.2.1) ≠ some (markFields (descramble line).payload.toNat false).2.2.2.1) :
    markReceive l line skew d = (d.noteMark l (markFields (descramble line).payload.toNat false)).resolveLanes (l / 8) := by
  rw [markReceive_of_mark skew (by omega) (by omega) (by omega) header type, if_neg (by omega), if_neg new, if_pos four]

/-- In steps 5 and 6 a skew above 16 blocks takes the port down with CAUSE 3 (R279). -/
theorem markReceive_of_skewed (step : (d.port (l / 8)).step = 5 ∨ (d.port (l / 8)).step = 6)
    (upright : (d.port (l / 8)).inverted.getLsbD (l % 8) = false) (skewed : 16 < skew) :
    markReceive l line skew d = d.updPort (l / 8) fun q => q.fallen 3 := by
  rw [markReceive_of_mark skew (by omega) (by omega) (fun _ => upright) header type, if_pos (by omega),
    Dev.portDown_of_bringUp 3 (by omega) (by omega)]

/-- From step 5 on a MARK of a new period is noted, and counts for the step that the port is in. -/
theorem markReceive_of_aligned (lo : 5 ≤ (d.port (l / 8)).step) (hi : (d.port (l / 8)).step ≤ 7)
    (upright : (d.port (l / 8)).inverted.getLsbD (l % 8) = false) (aligned : skew ≤ 16)
    (new : (d.lane l).mark.map (·.2.2.2.1) ≠ some (markFields (descramble line).payload.toNat false).2.2.2.1) :
    let e := d.noteMark l (markFields (descramble line).payload.toNat false)
    markReceive l line skew d =
      if (d.port (l / 8)).step = 5 then (if e.onePeriod (l / 8) then e.portStep (l / 8) 6 else e)
      else if (d.port (l / 8)).step = 6 then e.countReady (l / 8) else e := by
  rw [markReceive_of_mark skew (by omega) hi (fun _ => upright) header type, if_neg (by omega), if_neg new, if_neg (by omega)]

end

/-! ### The MARKs of a port's lanes (R280) -/

/-- Where all eight lanes have a MARK, they stand in the order of the lanes. -/
theorem markList_of_all {d : Dev} {p : Nat} {f : Nat → Nat × Nat × Nat × Nat × Bool × Bool}
    (marked : ∀ i, i < 8 → (d.lane (8 * p + i)).mark = some (f i)) : d.markList p = (List.range 8).map f := by
  rw [Dev.markList, lanesOf, List.filterMap_map, ← List.filterMap_eq_map]
  exact List.filterMap_congr fun i inside => marked i (List.mem_range.1 inside)

/-- A lane without a MARK leaves the list short. -/
theorem length_markList_of_none {d : Dev} {p i : Nat} (inside : i < 8) (unmarked : (d.lane (8 * p + i)).mark = none) :
    (d.markList p).length < 8 :=
  List.length_filterMap_lt_length_iff_exists.2 ⟨8 * p + i, mem_lanesOf.2 (by omega), unmarked⟩

/-- Step 4 goes on while a lane has met fewer than two MARKs. -/
theorem resolveLanes_of_few {d : Dev} {p i : Nat} (inside : i < 8)
    (few : (d.lane (8 * p + i)).mark = none ∨ (d.lane (8 * p + i)).marks < 2) : d.resolveLanes p = d := by
  refine if_pos ?_
  rcases few with unmarked | few
  · exact .inl (length_markList_of_none inside unmarked)
  · refine .inr ?_
    rw [Bool.not_eq_true', ← Bool.not_eq_true, Dev.allLanes_iff]
    intro enough
    have two := of_decide_eq_true (enough (8 * p + i) (by omega))
    omega

/-- The number that lane `i` gives itself on a port that is straight, and on one that is crossed. -/
def laneNumber (crossed : Bool) (i : Nat) : Nat := if crossed then 7 - i else i

theorem map_range_laneNumber : (List.range 8).map (laneNumber false) = List.range 8 ∧ (List.range 8).map (laneNumber true) = (List.range 8).reverse := by
  decide

theorem map_range_eq_iff {f g : Nat → Nat} : (List.range 8).map f = (List.range 8).map g ↔ ∀ i, i < 8 → f i = g i := by
  simp only [List.map_inj_left, List.mem_range]

/-- The lanes that are inverted on the line, one bit for each. -/
def invertedMask (inv : Nat → Bool) : Byte := BitVec.ofNat 8 ((List.range 8).foldl (fun n i => if inv i then n + 2 ^ i else n) 0)

/-- A number put together from its bits. -/
theorem testBit_foldl_bits (inv : Nat → Bool) (n : Nat) :
    (List.range n).foldl (fun k i => if inv i then k + 2 ^ i else k) 0 < 2 ^ n ∧
    ∀ i, i < n → Nat.testBit ((List.range n).foldl (fun k i => if inv i then k + 2 ^ i else k) 0) i = inv i := by
  induction n with
  | zero => exact ⟨Nat.one_pos, fun i lt => absurd lt (Nat.not_lt_zero i)⟩
  | succ n ih =>
    rw [List.range_succ, List.foldl_append, List.foldl_cons, List.foldl_nil]
    generalize (List.range n).foldl (fun k i => if inv i then k + 2 ^ i else k) 0 = k at ih
    obtain ⟨below, bits⟩ := ih
    have twice : 2 ^ (n + 1) = 2 ^ n + 2 ^ n := by rw [pow_succ, mul_two]
    refine ⟨by split <;> omega, fun i lt => ?_⟩
    cases set : inv n with
    | true =>
      rw [if_pos rfl, Nat.add_comm]
      rcases Nat.lt_succ_iff_lt_or_eq.1 lt with lower | rfl
      · rw [Nat.testBit_two_pow_add_gt lower, bits i lower]
      · rw [Nat.testBit_two_pow_add_eq, Nat.testBit_eq_false_of_lt below, set, Bool.not_false]
    | false =>
      rw [if_neg Bool.false_ne_true]
      rcases Nat.lt_succ_iff_lt_or_eq.1 lt with lower | rfl
      · exact bits i lower
      · rw [Nat.testBit_eq_false_of_lt below, set]

theorem getLsbD_invertedMask (inv : Nat → Bool) {i : Nat} (inside : i < 8) : (invertedMask inv).getLsbD i = inv i := by
  rw [invertedMask, BitVec.getLsbD_ofNat, decide_eq_true inside, Bool.true_and, (testBit_foldl_bits inv 8).2 i inside]

/-- The eight lanes of a port have each met two MARKs, of one node and one port. -/
def Consistent (d : Dev) (p node port : Nat) (lane period : Nat → Nat) (ready inv : Nat → Bool) : Prop :=
  ∀ i, i < 8 → (d.lane (8 * p + i)).mark = some (node, port, lane i, period i, ready i, inv i) ∧ 2 ≤ (d.lane (8 * p + i)).marks

section
variable {d : Dev} {p node port : Nat} {lane period : Nat → Nat} {ready inv : Nat → Bool} (marked : Consistent d p node port lane period ready inv)
include marked

theorem Consistent.markList : d.markList p = (List.range 8).map fun i => (node, port, lane i, period i, ready i, inv i) :=
  markList_of_all fun i inside => (marked i inside).1

theorem Consistent.allLanes : d.allLanes p (fun l => 2 ≤ l.marks) = true := by
  refine (Dev.allLanes_iff ..).2 fun m own => decide_eq_true ?_
  have lane_eq : m = 8 * p + m % 8 := by omega
  rw [lane_eq]
  exact (marked _ (by omega)).2

/-- Two MARK periods that agree on node and port decide step 4 by the numbers of the lanes alone. -/
theorem Consistent.resolveLanes :
    let numbers := (List.range 8).map lane
    d.resolveLanes p =
      if numbers ≠ (List.range 8).map (laneNumber false) ∧ numbers ≠ (List.range 8).map (laneNumber true) then d.portDown p 2
      else (d.updPort p fun q =>
        { q with reversed := numbers == (List.range 8).map (laneNumber true), inverted := invertedMask inv }).portStep p 5 := by
  have mask : (((List.range 8).map fun i => (node, port, lane i, period i, ready i, inv i)).zip (List.range 8)).foldl
      (fun n e => if e.1.2.2.2.2.2 then n + 2 ^ e.2 else n) 0 = (List.range 8).foldl (fun n i => if inv i then n + 2 ^ i else n) 0 := rfl
  unfold Dev.resolveLanes
  dsimp only
  rw [marked.markList, marked.allLanes, mask, map_range_laneNumber.1, map_range_laneNumber.2]
  simp [invertedMask, Function.comp_def]

/-- Lanes numbered straight or crossed end step 4 (R280). -/
theorem Consistent.resolveLanes_of_numbered {crossed : Bool} (numbered : ∀ i, i < 8 → lane i = laneNumber crossed i) :
    d.resolveLanes p = (d.updPort p fun q => { q with reversed := crossed, inverted := invertedMask inv }).portStep p 5 := by
  rw [marked.resolveLanes, map_range_eq_iff.2 numbered]
  cases crossed <;> rfl

/-- Any other eight numbers end it with CAUSE 2 (R280). -/
theorem Consistent.resolveLanes_of_mixed (mixed : ∀ crossed : Bool, ¬∀ i, i < 8 → lane i = laneNumber crossed i) :
    d.resolveLanes p = d.portDown p 2 :=
  marked.resolveLanes.trans (if_pos ⟨mt map_range_eq_iff.1 (mixed false), mt map_range_eq_iff.1 (mixed true)⟩)

end

/-- Where no packet is held, letting the held ones go leaves ports and memory. -/
theorem ports_mem_released {d : Dev} (unheld : d.saeri.heldOut = []) :
    (if d.saeri.switching then d else d.sendHeld).ports = d.ports ∧ (if d.saeri.switching then d else d.sendHeld).mem = d.mem := by
  rw [Dev.sendHeld, unheld, List.foldl_nil]
  split <;> exact ⟨rfl, rfl⟩

/-- The device once the checks of link start have let a port up: a peer that Topology does not list, or that had departed, is joining (R265). -/
def Dev.linkUp (d : Dev) (p : Nat) (node : NodeId) (port : Nat) : Dev :=
  let d1 := (d.portStep p 7).updPort p fun q => { q with peerNode := node, peerPort := port, txSeq := 0, rxSeq := 0 }
  if (d.topo.pos? node.toNat).isNone ∨ d.saeri.departed.contains node then
    { d1 with saeri := { d1.saeri with nodeState := tabSet d1.saeri.nodeState node.toNat (2 <<< 5) } }
  else d1

theorem Dev.port_linkUp (d : Dev) (p : Nat) (node : NodeId) (port : Nat) (j : Nat) :
    (d.linkUp p node port).port j =
      if j = p then { d.port p with step := 7, readyMarks := 0, peerNode := node, peerPort := port, txSeq := 0, rxSeq := 0 } else d.port j := by
  have ports : (d.linkUp p node port).ports =
      ((d.portStep p 7).updPort p fun q => { q with peerNode := node, peerPort := port, txSeq := 0, rxSeq := 0 }).ports := by
    unfold Dev.linkUp
    dsimp only
    split <;> rfl
  have reads := congrArg (fun t => tabGet Port.reset t j) ports
  refine reads.trans ((Dev.port_updPort ..).trans ?_)
  rw [Dev.port_portStep, Dev.port_portStep, if_pos rfl]
  split <;> rfl

theorem Dev.linkUp_leaves (d : Dev) (p : Nat) (node : NodeId) (port : Nat) :
    (d.linkUp p node port).mem = d.mem ∧ (d.linkUp p node port).saeri.heldOut = d.saeri.heldOut := by
  unfold Dev.linkUp
  dsimp only
  split <;> simp

/-! ### Link start (R243, R252, R265, R283) -/

section
variable {d : Dev} {p : Nat} {node : NodeId} (port : Nat) (named : d.nodeId ≠ 0xFFF) (six : (d.port p).step = 6)
include named six

/-- A link to this node itself goes down with CAUSE 5. -/
theorem linkStart_of_self (self : node = d.nodeId) : d.linkStart p node port = (d.bumpSat32 0x3110 6).updPort p fun q => q.fallen 5 := by
  have step : ((d.bumpSat32 0x3110 6).port p).step = 6 := six
  rw [← Dev.portDown_of_bringUp _ (by omega) (by omega), Dev.linkStart, if_neg named, if_pos self]

/-- A peer that PortRole does not allow takes the port down with CAUSE 6. -/
theorem linkStart_of_wrong_peer (other : node ≠ d.nodeId) (used : roleOf (d.obj 0x4111 2) p ≠ 0xFFFF)
    (wrong : (topoOf (d.obj 0x4111 1)).nodeAt (roleOf (d.obj 0x4111 2) p) ≠ node.toNat) :
    d.linkStart p node port = (d.bumpSat32 0x3110 7).updPort p fun q => q.fallen 6 := by
  have step : ((d.bumpSat32 0x3110 7).port p).step = 6 := six
  rw [← Dev.portDown_of_bringUp _ (by omega) (by omega), Dev.linkStart, if_neg named, if_neg other, if_pos ⟨used, wrong⟩]

omit six in
/-- Another node that PortRole allows: where no packet is held, one port changes, which is up with SEQ 0, and the memory does not. -/
theorem linkStart_of_peer (other : node ≠ d.nodeId)
    (allowed : roleOf (d.obj 0x4111 2) p = 0xFFFF ∨ (topoOf (d.obj 0x4111 1)).nodeAt (roleOf (d.obj 0x4111 2) p) = node.toNat)
    (unheld : d.saeri.heldOut = []) :
    (∀ j, (d.linkStart p node port).port j =
      if j = p then { d.port p with step := 7, readyMarks := 0, peerNode := node, peerPort := port, txSeq := 0, rxSeq := 0 } else d.port j) ∧
    (d.linkStart p node port).mem = d.mem := by
  have right : ¬(roleOf (d.obj 0x4111 2) p ≠ 0xFFFF ∧ (topoOf (d.obj 0x4111 1)).nodeAt (roleOf (d.obj 0x4111 2) p) ≠ node.toNat) := by tauto
  have started : d.linkStart p node port =
      if (d.linkUp p node port).saeri.switching then d.linkUp p node port else (d.linkUp p node port).sendHeld := by
    rw [Dev.linkStart, if_neg named, if_neg other, if_neg right]
    rfl
  obtain ⟨mem, held⟩ := d.linkUp_leaves p node port
  obtain ⟨ports, released⟩ := ports_mem_released (held.trans unheld)
  rw [started]
  refine ⟨fun j => ?_, released.trans mem⟩
  rw [Dev.port, ports]
  exact Dev.port_linkUp ..

end

end Sys2Proof.Machine
end

section
/-! Bring-up of a port as one statement (R272 to R283, R291). -/

namespace Sys2Proof.Machine

/-- Settles O58: each clause is the lemma above that says what its event does to the port in that step. -/
theorem portBringUp : Obligations.PortBringUp := by
  unfold Obligations.PortBringUp
  refine ⟨?_, ?_⟩
  · intro s p l lanes b ns headers depth cdr clocks d n q m x steps stays fallen down energy locks all
    refine ⟨?_, ?_, ?_, ?_, ?_, ?_, ?_, ?_, ?_, ?_, ?_, ?_, ?_, ?_, ?_, ?_, ?_, ?_, ?_, ?_⟩
    · intro on one full long
      obtain ⟨e, lit, answer⟩ := signalDetect_of_enabled lanes ns on
      rw [if_pos ⟨one, full, long⟩] at answer
      exact ⟨_, onClock_gives_of_eq clocks answer, portStep_of_lanesUpdated lit 2 fun _ _ => rfl⟩
    · intro on short
      obtain ⟨e, lit, answer⟩ := signalDetect_of_enabled lanes ns on
      rw [if_neg (by rwa [not_and_or, not_and_or, not_le])] at answer
      exact ⟨_, onClock_gives_of_eq clocks answer, lit.stays⟩
    · exact fun off => onClock_ignored (signalDetect_of_disabled lanes ns off)
    · intro two every
      have answer := (cdrLock_of_begun lanes two.ge (two.le.trans (by decide))).1 ⟨two, every⟩
      exact ⟨_, onClock_gives_of_eq clocks answer, portStep_of_lanesUpdated (lanesUpdated_lockCdr d n lanes) 3 fun _ _ => rfl⟩
    · intro lo hi not
      have answer := (cdrLock_of_begun lanes lo hi).2 (by rintro ⟨two, every⟩; exact not.elim (· two) (· every))
      exact ⟨_, onClock_gives_of_eq clocks answer, (lanesUpdated_lockCdr d n lanes).stays⟩
    · exact fun outside => onClock_ignored (cdrLock_outside lanes outside)
    · intro three valid others
      have answer := (blockLock_of_begun three.ge (three.le.trans (by decide)) valid).1 ⟨three, others⟩
      exact ⟨_, onClock_gives_of_eq clocks answer, portStep_of_lanesUpdated (lanesUpdated_lock others) 4 fun _ _ => rfl⟩
    · intro lo hi valid not
      refine onClock_gives_of_eq clocks ((blockLock_of_begun lo hi valid).2 ?_)
      rintro ⟨three, others⟩
      rcases not with other | ⟨j, own, ne, unlocked⟩
      · exact other three
      · exact Bool.false_ne_true (unlocked.symm.trans (others j own ne))
    · exact fun outside => onClock_ignored (blockLock_outside outside)
    · intro late
      obtain ⟨two, four, five⟩ := bringupTimeout_of_late (d := d) (p := n) late
      exact ⟨fun step => onClock_gives_of_eq clocks (two step), fun step => onClock_gives_of_eq clocks (four step),
        fun step => onClock_gives_of_eq clocks (five step)⟩
    · rintro (soon | other)
      · exact onClock_ignored (bringupTimeout_of_soon soon)
      · exact onClock_ignored (bringupTimeout_of_other ns other)
    · intro lost step
      refine onClock_gives_of_eq clocks ((laneLockLoss_of_lost lost).trans ?_)
      rcases step with early | fallen
      · exact if_neg (show ¬4 ≤ (d.port m).step by omega)
      · exact (if_pos (show 4 ≤ (d.port m).step by omega)).trans (Dev.portDown_of_down 7 fallen)
    · intro lost lo hi
      refine onClock_gives_of_eq clocks ((laneLockLoss_of_lost lost).trans ((if_pos lo).trans ?_))
      exact Dev.portDown_of_bringUp 7 (show 0 < (d.port m).step by omega) hi
    · intro lost up
      refine onClock_gives_of_eq clocks ((laneLockLoss_of_lost lost).trans ((if_pos (show 4 ≤ (d.port m).step by omega)).trans ?_))
      exact Dev.portDown_of_up 7 up
    · exact fun held few => onClock_ignored (laneLockLoss_of_few held few)
    · intro on upright fill
      have answer := fillReceive_of_fill depth on upright fill
      refine ⟨fun deep => ?_, fun shallow => ?_, fun lo hi => ?_⟩
      · rw [if_pos deep] at answer
        exact onClock_gives_of_eq clocks answer
      · rw [if_neg (by omega), if_pos shallow] at answer
        exact onClock_gives_of_eq clocks answer
      · rw [if_neg (by omega), if_neg (by omega)] at answer
        exact onClock_ignored answer
    · exact fun upright other => onClock_ignored (fillReceive_of_other depth upright other)
    · exact fun i inside => getLsbD_descramble b inside
    · exact fun test => onClock_gives_of_eq clocks (laneTestError_of_test test)
    · exact fun test => ⟨_, onClock_gives clocks, lane_laneTestError_of_no_test test, rfl⟩
  · intro s l line skew clocks b fallen d p q v upright mark
    refine ⟨?_, ?_, ?_, ?_, ?_, ?_, ?_, ?_⟩
    · exact fun four straight inverted => onClock_ignored (markReceive_of_no_mark skew four straight inverted)
    · exact fun early => onClock_ignored (markReceive_early line skew early)
    · exact fun four header type new => onClock_gives_of_eq clocks (markReceive_in_step_four header type four new)
    · exact fun step right header type skewed => onClock_gives_of_eq clocks (markReceive_of_skewed header type step right skewed)
    · intro right header type aligned new e
      have answer (lo : 5 ≤ (d.port p).step) (hi : (d.port p).step ≤ 7) := markReceive_of_aligned header type lo hi right aligned new
      refine ⟨fun five => ?_, fun six => ?_, fun seven => ?_⟩ <;> refine onClock_gives_of_eq clocks ((answer ?_ ?_).trans ?_)
      · exact five.ge
      · exact five.le.trans (by decide)
      · exact if_pos five
      · exact six.ge.trans' (by decide)
      · exact six.le.trans (by decide)
      · exact (if_neg (show ¬(d.port p).step = 5 from six ▸ by decide)).trans (if_pos six)
      · exact seven.ge.trans' (by decide)
      · exact seven.le
      · exact (if_neg (show ¬(d.port p).step = 5 from seven ▸ by decide)).trans (if_neg (show ¬(d.port p).step = 6 from seven ▸ by decide))
    · intro e k node port order lane period ready inv marked
      have consistent : Consistent e k node port lane period ready inv := marked
      refine ⟨fun numbered => ?_, fun four mixed => ?_⟩
      · have answer := consistent.resolveLanes_of_numbered numbered
        rw [answer, Dev.port_portStep, if_pos rfl, Dev.port_updPort_same]
        exact ⟨rfl, rfl, fun i inside => getLsbD_invertedMask inv inside, Dev.mem_portStep ..⟩
      · rw [consistent.resolveLanes_of_mixed fun crossed numbered => mixed ⟨crossed, numbered⟩]
        exact Dev.portDown_of_bringUp 2 (by omega) (by omega)
    · rintro e k ⟨i, inside, few⟩
      exact resolveLanes_of_few inside few
    · intro e k node port named six role t
      refine ⟨fun self => ?_, fun other used wrong => ?_, fun other allowed unheld => ?_⟩
      · have answer : t = _ := linkStart_of_self port named six self
        rw [answer, Dev.port_updPort_same]
        exact ⟨rfl, rfl⟩
      · have answer : t = _ := linkStart_of_wrong_peer port named six other used wrong
        rw [answer, Dev.port_updPort_same]
        exact ⟨rfl, rfl⟩
      · obtain ⟨ports, mem⟩ := linkStart_of_peer port named other allowed unheld
        have own : t.port k = _ := (ports k).trans (if_pos rfl)
        rw [own]
        exact ⟨rfl, rfl, rfl, rfl, rfl, fun j ne => (ports j).trans (if_neg ne), mem⟩

end Sys2Proof.Machine
end

section
/-! What sending, answering and recording leave of the ports and of the dictionary: every operation of the Saeri fabric by which packets
go on, requests end and nodes depart keeps each port's step and its enable bit, the objects in force, and that the node has left
(R249, R267, R285 to R289). -/

namespace Sys2Proof.Machine

/-- `e` has the objects of `d`, has left the fabric where `d` has, and each of its ports is in the same step and enabled as it was. -/
structure PortsKept (d e : Dev) : Prop where
  objs : e.objs = d.objs
  left : e.saeri.left = d.saeri.left
  step : ∀ m, (e.port m).step = (d.port m).step
  enabled : ∀ m, (e.port m).enabled = (d.port m).enabled

theorem PortsKept.refl (d : Dev) : PortsKept d d := ⟨rfl, rfl, fun _ => rfl, fun _ => rfl⟩

theorem PortsKept.trans {d e f : Dev} (h : PortsKept d e) (k : PortsKept e f) : PortsKept d f :=
  ⟨k.objs.trans h.objs, k.left.trans h.left, fun m => (k.step m).trans (h.step m), fun m => (k.enabled m).trans (h.enabled m)⟩

/-- The last operation first, as the definitions are read. -/
theorem PortsKept.after {d e f : Dev} (last : PortsKept e f) (before : PortsKept d e) : PortsKept d f := before.trans last

/-- An update of anything else keeps them. -/
theorem PortsKept.of_eq {d e : Dev} (objs : e.objs = d.objs) (left : e.saeri.left = d.saeri.left) (ports : e.ports = d.ports) : PortsKept d e :=
  ⟨objs, left, fun m => by rw [Dev.port, ports, Dev.port], fun m => by rw [Dev.port, ports, Dev.port]⟩

/-- An update of the fabric's state that leaves `left` keeps them. -/
theorem PortsKept.withSaeri {d e : Dev} {x : Saeri} (before : PortsKept d e) (left : x.left = e.saeri.left) : PortsKept d { e with saeri := x } :=
  before.trans (.of_eq rfl left rfl)

/-- A pass keeps them of the device that it carries, where each of its steps does. -/
theorem portsKept_foldl_carried {α β : Type} {dev : β → Dev} {g : β → α → β} (kept : ∀ b a, PortsKept (dev b) (dev (g b a))) (l : List α) (b : β) :
    PortsKept (dev b) (dev (l.foldl g b)) := by
  induction l generalizing b with
  | nil => exact .refl _
  | cons a l ih => exact (kept b a).trans (ih _)

theorem portsKept_foldl {α : Type} {g : Dev → α → Dev} (kept : ∀ e a, PortsKept e (g e a)) (l : List α) (d : Dev) : PortsKept d (l.foldl g d) :=
  portsKept_foldl_carried (dev := fun e => e) kept l d

theorem portsKept_updPort {d : Dev} {p : Nat} {f : Port → Port} (step : ∀ q, (f q).step = q.step) (enabled : ∀ q, (f q).enabled = q.enabled) :
    PortsKept d (d.updPort p f) := by
  refine ⟨rfl, rfl, fun m => ?_, fun m => ?_⟩ <;> rw [Dev.port_updPort] <;> split
  · next own => rw [step, own]
  · rfl
  · next own => rw [enabled, own]
  · rfl

theorem portsKept_bump (d : Dev) (i k n : Nat) : PortsKept d (d.bump i k n) := .of_eq (by simp) (by simp) (by simp)

/-! ### Frames and packets -/

/-- A port that sends packets stays in its step. -/
theorem Port.sendPackets_kept (q : Port) (me : NodeId) (ks : List SaeriPkt) :
    (q.sendPackets me ks).step = q.step ∧ (q.sendPackets me ks).enabled = q.enabled := by
  rw [Port.sendPackets]
  generalize framesOf q.txSeq ks = frames
  induction frames generalizing q with
  | nil => exact ⟨rfl, rfl⟩
  | cons f frames ih => exact ih _

theorem Port.useCredit_kept (q : Port) (c : Nat) : (q.useCredit c).step = q.step ∧ (q.useCredit c).enabled = q.enabled := by
  unfold Port.useCredit
  split
  · exact ⟨rfl, rfl⟩
  · split
    · exact ⟨rfl, rfl⟩
    · split <;> exact ⟨rfl, rfl⟩

theorem portsKept_freeSlot (d : Dev) (p c : Nat) : PortsKept d (d.freeSlot p c) :=
  portsKept_updPort (fun q => by split <;> rfl) (fun q => by split <;> rfl)

theorem portsKept_leaveTransit (d : Dev) (k : SaeriPkt) : PortsKept d (d.leaveTransit k) := by
  unfold Dev.leaveTransit
  split
  · exact .refl d
  · exact .after (portsKept_freeSlot ..) (.of_eq rfl rfl rfl)

theorem portsKept_takePacket (d : Dev) (p : Nat) (k : SaeriPkt) : PortsKept d (d.takePacket p k) := by
  have taken : PortsKept d ((d.updPort p fun q => q.useCredit (saeriClass k.op)).leaveTransit k) :=
    .after (portsKept_leaveTransit ..) (portsKept_updPort (fun q => (q.useCredit_kept _).1) fun q => (q.useCredit_kept _).2)
  exact taken.withSaeri rfl

theorem portsKept_pumpNext (a : PumpAcc) (e : Nat × SaeriPkt) : PortsKept a.dev (a.next e).dev := by
  unfold PumpAcc.next
  dsimp only
  split
  · exact .refl _
  · exact portsKept_takePacket ..

theorem portsKept_pump (d : Dev) : PortsKept d d.pump := by
  have sent (e : Dev) (t : Nat × List SaeriPkt) : PortsKept e (e.updPort t.1 fun q => q.sendPackets e.nodeId t.2) :=
    portsKept_updPort (fun q => (q.sendPackets_kept ..).1) fun q => (q.sendPackets_kept ..).2
  have gathered (waiting : List (Nat × SaeriPkt)) :
      PortsKept d (waiting.foldl PumpAcc.next { dev := d, taken := [], waits := [], blocked := [] }).dev :=
    portsKept_foldl_carried portsKept_pumpNext waiting { dev := d, taken := [], waits := [], blocked := [] }
  unfold Dev.pump
  exact .after (portsKept_foldl sent _ _) ((gathered _).withSaeri rfl)

theorem portsKept_sendSaeri (d : Dev) (k : SaeriPkt) : PortsKept d (d.sendSaeri k) := by
  unfold Dev.sendSaeri
  dsimp only
  split
  · exact .of_eq rfl rfl rfl
  · split
    · split
      · exact .of_eq rfl rfl rfl
      · exact .after (portsKept_pump _) (.of_eq rfl rfl rfl)
    · exact .of_eq rfl rfl rfl

theorem portsKept_sendNotice (d : Dev) (p type : Nat) (node : NodeId) : PortsKept d (d.sendNotice p type node) := by
  have sent : PortsKept d (d.updPort p fun q => q.sendHeader d.nodeId (BitVec.ofNat 4 type) 0 (if type = 3 then node else 0)) :=
    portsKept_updPort (fun _ => rfl) fun _ => rfl
  exact sent.withSaeri rfl

/-! ### Answers to accesses -/

theorem portsKept_nocSend (d : Dev) (k : NocPacket) : PortsKept d (d.nocSend k) := by
  unfold Dev.nocSend
  split <;> exact .of_eq rfl rfl rfl

theorem portsKept_probe (d : Dev) (k : NocPacket) (left : List (Nat × Nat)) (q : Nat) : PortsKept d (d.probe k left q) := by
  unfold Dev.probe
  dsimp only
  split
  · exact .refl d
  · split
    · exact (portsKept_bump d 0x7102 (q + 1) 1).trans (.of_eq rfl rfl rfl)
    · exact portsKept_bump ..

theorem portsKept_probesAt (d : Dev) (k : NocPacket) (left : List (Nat × Nat)) : PortsKept d (d.probesAt k left) := by
  unfold Dev.probesAt
  split
  · exact portsKept_foldl (fun e q => portsKept_probe e k left q) _ _
  · exact .refl d

theorem portsKept_cross (d : Dev) (k : NocPacket) : PortsKept d (d.cross k).2 := by
  unfold Dev.cross
  split <;> exact portsKept_probesAt ..

theorem portsKept_crossAll (d : Dev) (ks : List NocPacket) : PortsKept d (d.crossAll ks).2 :=
  portsKept_foldl_carried (dev := Prod.snd) (g := fun acc k => let r := acc.2.cross k; (acc.1 && r.1, r.2)) (fun acc k => portsKept_cross acc.2 k) ks (true, d)

theorem portsKept_failDesc (d : Dev) (k : DescKey) (st : Status) : PortsKept d (d.failDesc k st) := by
  unfold Dev.failDesc
  split
  · split <;> exact .of_eq rfl rfl rfl
  · exact .refl d

theorem portsKept_injected (d : Dev) (op : BitVec 4) (cmd : FabCmd) (st : Status) : PortsKept d (d.injected op cmd st) := by
  unfold Dev.injected
  split
  · exact .after (portsKept_bump ..) (.of_eq rfl rfl rfl)
  · exact .refl d

theorem portsKept_updFab (d : Dev) (n : Nat) (f : FabricPort → FabricPort) : PortsKept d (d.updFab n f) := .of_eq rfl rfl rfl

theorem portsKept_reply (d : Dev) (a : Access) (st : Status) (data : List Byte) : PortsKept d (d.reply a st data) := by
  unfold Dev.reply
  dsimp only
  split
  case h_1 => exact .of_eq rfl rfl rfl
  case h_2 =>
    split
    · exact .after (portsKept_updFab ..) (portsKept_injected ..)
    · split
      · exact .after (portsKept_updFab ..) (portsKept_injected ..)
      · exact .refl d
  case h_3 => exact portsKept_nocSend ..
  case h_4 => exact portsKept_sendSaeri ..
  case h_5 =>
    split
    · split
      · split
        · exact portsKept_failDesc ..
        · split
          · exact .of_eq rfl rfl rfl
          · exact .refl d
      · exact .refl d
    · exact .refl d
  case h_6 => exact .of_eq rfl rfl rfl
  case h_7 =>
    split
    · exact .of_eq rfl rfl rfl
    · exact .refl d

theorem portsKept_partDone (d : Dev) (p : Part) (st : Status) (data : List Byte) : PortsKept d (d.partDone p st data) := by
  unfold Dev.partDone
  split
  · exact .refl d
  · dsimp only
    split
    · exact .after (portsKept_reply ..) (.of_eq rfl rfl rfl)
    · exact .of_eq rfl rfl rfl

theorem portsKept_answerPart (d : Dev) (ks : List NocPacket) (p : Part) (st : Status) (data : List Byte) :
    PortsKept d (d.answerPart ks p st data) := by
  unfold Dev.answerPart
  dsimp only
  split <;> exact .after (portsKept_partDone ..) (portsKept_crossAll ..)

theorem portsKept_saeriEnd (d : Dev) (r : SaeriReq) (st : Status) (data : List Byte) : PortsKept d (d.saeriEnd r st data) := by
  have ended : PortsKept d { d with saeri := { d.saeri with outstanding := d.saeri.outstanding.filter fun q => q ≠ r } } := .of_eq rfl rfl rfl
  refine ended.trans ?_
  unfold Dev.saeriEnd
  dsimp only
  split
  case h_1 =>
    split
    · exact portsKept_answerPart ..
    · exact .refl _
  case h_2 => exact portsKept_updFab ..
  case h_3 =>
    split
    · exact .refl _
    · split
      · split
        · exact portsKept_failDesc ..
        · exact .refl _
      · exact .refl _
  all_goals exact .refl _

/-! ### Departures (R267) -/

theorem portsKept_loseNodes (d : Dev) (through : List SaeriReq) : PortsKept d (d.loseNodes through) := by
  have raised (e : Dev) (n : RoundNo) : PortsKept e (e.raiseHeld n .peerLost .peer []) := .of_eq rfl rfl rfl
  unfold Dev.loseNodes
  exact .after (portsKept_foldl (fun e q => portsKept_saeriEnd e q .peerLost []) _ _) (portsKept_foldl raised _ _)

theorem portsKept_depart (d : Dev) (node : NodeId) (from? : Option Nat) : PortsKept d (d.depart node from?) := by
  unfold Dev.depart
  split
  · exact .refl d
  · exact .after (portsKept_loseNodes ..) (.after (portsKept_bump ..)
      (.after (portsKept_foldl (fun e p => portsKept_sendNotice e p 3 node) _ _) (.of_eq rfl rfl rfl)))

theorem portsKept_afterDown (d : Dev) (node : NodeId) (port : Nat) (held : List SaeriPkt) : PortsKept d (d.afterDown node port held) := by
  unfold Dev.afterDown
  dsimp only
  split
  · refine .after (portsKept_foldl portsKept_sendSaeri _ _) ?_
    split
    · exact .after (portsKept_foldl portsKept_sendSaeri _ _) (.of_eq rfl rfl rfl)
    · exact .withSaeri (.after (portsKept_foldl portsKept_sendSaeri _ _) (.of_eq rfl rfl rfl)) rfl
  · exact .after (portsKept_depart ..) (.after (portsKept_foldl portsKept_leaveTransit _ _) (.of_eq rfl rfl rfl))

end Sys2Proof.Machine
end

section
/-! Writes of the objects of ports, lanes and the fabric (R14, R278, R279, R291, R349): what the dictionary does with a write that its
rules accept and with one that they refuse, and the crossing of the seam before it. -/

namespace Sys2Proof.Machine

/-! ### The seam (R14) -/

theorem overSeam_of_near {d : Dev} {i k : Nat} (w : Bool) (n : Nat) (near : d.objDie i k = 0) : d.overSeam w i k n = d := by
  rw [Dev.overSeam, near]
  rfl

/-- A crossing of the seam enters the master's record, and changes nothing else. -/
theorem overSeam_eq_with_noc {d : Dev} {i k : Nat} (w : Bool) (n : Nat) (reached : ObjReached d i k) :
    d.overSeam w i k n = { d with noc := (d.overSeam w i k n).noc } := by
  rcases reached with near | whole
  · rw [overSeam_of_near w n near]
  · unfold Dev.overSeam Dev.seam
    split
    · rfl
    · dsimp only
      rw [crossAll_of_whole whole]
      rfl

theorem seamCauses_of_reached {d : Dev} {i k : Nat} (reached : ObjReached d i k) : d.seamCauses i k = [] := by
  unfold Dev.seamCauses Dev.seam
  split
  · rfl
  · next far =>
    dsimp only
    rw [crossAll_of_whole (reached.resolve_left far)]
    rfl

section
variable {d : Dev} {i k : Nat} (reached : ObjReached d i k) (n : Nat)
include reached
theorem port_overSeam (m : Nat) : (d.overSeam true i k n).port m = d.port m := by rw [overSeam_eq_with_noc true n reached]; rfl
theorem lane_overSeam (m : Nat) : (d.overSeam true i k n).lane m = d.lane m := by rw [overSeam_eq_with_noc true n reached]; rfl
theorem objs_overSeam : (d.overSeam true i k n).objs = d.objs := by rw [overSeam_eq_with_noc true n reached]
theorem mem_overSeam : (d.overSeam true i k n).mem = d.mem := by rw [overSeam_eq_with_noc true n reached]
theorem saeri_overSeam : (d.overSeam true i k n).saeri = d.saeri := by rw [overSeam_eq_with_noc true n reached]
end

/-! ### Writes that the dictionary accepts and refuses -/

/-- A write of the object is neither staged nor a commit, a profile or a segment of a stream: it acts at once. -/
def ActsAtOnce (i k : Nat) (info : OInfo) : Prop :=
  ¬(k = 0 ∧ i ∈ groups) ∧ info.access ≠ .staged ∧ i ≠ 0x4110 ∧ i ≠ 0x2140 ∧ ¬((profileGroups i).isSome = true ∧ k = 1)

section
variable {s : State} {via : Transport} {i k : Nat} {b : List Byte} {info : OInfo} (reaches : Reaches s via) (row : objInfo i k = some info)
  (reached : ObjReached s.dev i k)
include reaches row reached

/-- A write without a cause against it crosses the seam and takes effect. -/
theorem dict_gives_writeEffect (acts : ActsAtOnce i k info) (typed : typeCauses info b = [])
    (owner : s.dev.ownerCauses s.fuses via i k b = []) :
    s.dict via i k b = .next (s.withDev ((s.dev.overSeam true i k b.length).writeEffect s.fuses via i k b)) := by
  obtain ⟨not_commit, not_staged, not_translator, not_config, not_profile⟩ := acts
  refine dict_of_ok (fz := s.fuses) reaches.1 ?_
  have rights : ¬s.dev.rights via < 2 := by rw [reaches.2]; decide
  simp only [dictWrite, Dev.objWrite, row, typed, owner, seamCauses_of_reached reached, cause, rights, decide_false, Bool.false_eq_true,
    ite_self, if_false, List.append_nil, lowest, not_commit, not_staged, not_translator, not_config, not_profile, false_and]

/-- A write with a cause against it is refused with the lowest code. -/
theorem dict_refuses {code : Nat} (sized : info.type.size.isSome = true) (fits : info.type.lengthOk b.length = true)
    (refused : lowest (typeCauses info b ++ s.dev.ownerCauses s.fuses via i k b) = some code) :
    s.dict via i k b = .next (s.withDev (if via = .pcie then s.dev.mirrorAbort i k code else s.dev)) := by
  refine dict_of_error reaches.1 ?_ fun o found => ?_
  · have rights : ¬s.dev.rights via < 2 := by rw [reaches.2]; decide
    simp only [dictWrite, Dev.objWrite, row, fits, if_true, seamCauses_of_reached reached, cause, rights, decide_false, Bool.false_eq_true,
      if_false, List.append_nil, refused]
  · rwa [← Option.some.inj (row.symm.trans found)]

end

/-! ### The objects -/

/-- A byte that may be written. -/
def byteInfo (access : OAccess) : OInfo := { type := .unsigned 1, access := access, dflt := [0] }

theorem objInfo_portEnable {k : Nat} (lo : 1 ≤ k) (hi : k ≤ 16) : objInfo 0x2120 k = some (byteInfo .rw) := by
  have pos : k ≠ 0 := by omega
  simp [objInfo, rowsControl, rowNum, rowStr, rowAction, lo, hi, pos, byteInfo, leBytes]

theorem objInfo_bitSlip {k : Nat} (lo : 1 ≤ k) (hi : k ≤ 128) : objInfo 0x2121 k = some (byteInfo .wo) := by
  have pos : k ≠ 0 := by omega
  simp [objInfo, rowsControl, rowNum, rowStr, rowAction, lo, hi, pos, byteInfo, leBytes]

theorem objInfo_laneTest {k : Nat} (lo : 1 ≤ k) (hi : k ≤ 128) : objInfo 0x7120 k = some (byteInfo .rw) := by
  have pos : k ≠ 0 := by omega
  simp [objInfo, rowsDiag, rowNum, rowDom, rowStr, lo, hi, pos, byteInfo, leBytes]

theorem lowest_range_state (range state : Bool) :
    lowest (cause range abRange ++ cause state abState) = if range then some abRange else if state then some abState else none := by
  cases range <;> cases state <;> rfl

section
variable {s : State} {via : Transport} (reaches : Reaches s via)
include reaches

/-- A write of one byte to an object that has a range and a state in which it may be written. -/
theorem dict_byte {i k : Nat} {v : Byte} {access : OAccess} {range state : Bool} (writable : access = .rw ∨ access = .wo)
    (row : objInfo i k = some (byteInfo access)) (reached : ObjReached s.dev i k) (acts : ActsAtOnce i k (byteInfo access))
    (owner : s.dev.ownerCauses s.fuses via i k [v] = cause range abRange ++ cause state abState) :
    (range = true → s.dict via i k [v] = .next (s.withDev (if via = .pcie then s.dev.mirrorAbort i k abRange else s.dev))) ∧
    (range = false → state = true → s.dict via i k [v] = .next (s.withDev (if via = .pcie then s.dev.mirrorAbort i k abState else s.dev))) ∧
    (range = false → state = false →
      s.dict via i k [v] = .next (s.withDev ((s.dev.overSeam true i k 1).writeEffect s.fuses via i k [v]))) := by
  have typed : typeCauses (byteInfo access) [v] = [] := by rcases writable with rfl | rfl <;> rfl
  have refused {code : Nat} (least : lowest (cause range abRange ++ cause state abState) = some code) :=
    dict_refuses (b := [v]) reaches row reached rfl rfl (by rwa [typed, owner, List.nil_append])
  refine ⟨fun out => refused ?_, fun inside bad => refused ?_, fun inside good => ?_⟩
  · rw [lowest_range_state, out, if_pos rfl]
  · rw [lowest_range_state, inside, bad]
    rfl
  · exact dict_gives_writeEffect reaches row reached acts typed (by rw [owner, inside, good]; rfl)

/-- PortEnable (R278): user mode, 0 or 1. -/
theorem dict_portEnable {p : PortId} {v : Byte} (reached : ObjReached s.dev 0x2120 (p.toNat + 1)) (inside : v.toNat ≤ 1) :
    (s.dev.cfg.state ≠ 5 → s.dict via 0x2120 (p.toNat + 1) [v] =
      .next (s.withDev (if via = .pcie then s.dev.mirrorAbort 0x2120 (p.toNat + 1) abState else s.dev))) ∧
    (s.dev.cfg.state = 5 → s.dict via 0x2120 (p.toNat + 1) [v] =
      let d := s.dev.overSeam true 0x2120 (p.toNat + 1) 1
      .next (s.withDev (if v.toNat = 1 then d.portOn p.toNat else d.portOff p.toNat))) := by
  have row := objInfo_portEnable (k := p.toNat + 1) (by omega) (by have := p.isLt; omega)
  obtain ⟨-, refused, gives⟩ := dict_byte (v := v) (range := decide (1 < v.toNat)) (state := s.dev.cfg.state != 5) reaches (.inl rfl) row reached
    (by simp [ActsAtOnce, byteInfo, profileGroups]) (by simp [Dev.ownerCauses, leNat])
  have small : decide (1 < v.toNat) = false := decide_eq_false (by omega)
  exact ⟨fun other => refused small (bne_iff_ne.2 other), fun user => gives small (by rw [user]; rfl)⟩

/-- BitSlip (R279): step 3, 1 to 66. -/
theorem dict_bitSlip {l : LaneId} {v : Byte} (reached : ObjReached s.dev 0x2121 (l.toNat + 1)) :
    ((v.toNat = 0 ∨ 66 < v.toNat) → s.dict via 0x2121 (l.toNat + 1) [v] =
      .next (s.withDev (if via = .pcie then s.dev.mirrorAbort 0x2121 (l.toNat + 1) abRange else s.dev))) ∧
    (1 ≤ v.toNat → v.toNat ≤ 66 → (s.dev.port (l.toNat / 8)).step ≠ 3 → s.dict via 0x2121 (l.toNat + 1) [v] =
      .next (s.withDev (if via = .pcie then s.dev.mirrorAbort 0x2121 (l.toNat + 1) abState else s.dev))) ∧
    (1 ≤ v.toNat → v.toNat ≤ 66 → (s.dev.port (l.toNat / 8)).step = 3 → s.dict via 0x2121 (l.toNat + 1) [v] =
      .next (s.withDev ((s.dev.overSeam true 0x2121 (l.toNat + 1) 1).bitSlip l.toNat v.toNat))) := by
  have row := objInfo_bitSlip (k := l.toNat + 1) (by omega) (by have := l.isLt; omega)
  obtain ⟨outside, refused, gives⟩ := dict_byte (v := v) (range := v.toNat < 1 || 66 < v.toNat) (state := (s.dev.port (l.toNat / 8)).step != 3)
    reaches (.inr rfl) row reached (by simp [ActsAtOnce, byteInfo, profileGroups]) (by simp [Dev.ownerCauses, leNat, portOfLane])
  have inside (lo : 1 ≤ v.toNat) (hi : v.toNat ≤ 66) : (decide (v.toNat < 1) || decide (66 < v.toNat)) = false := by
    rw [decide_eq_false (by omega), decide_eq_false (by omega)]
    rfl
  refine ⟨fun out => outside ?_, fun lo hi other => refused (inside lo hi) (bne_iff_ne.2 other), fun lo hi three => ?_⟩
  · rw [← Bool.decide_or, decide_eq_true_iff]
    omega
  · exact gives (inside lo hi) (by rw [three]; rfl)

/-- LaneTest (R291): the lane's port is disabled, 0 or 1. -/
theorem dict_laneTest {l : LaneId} {v : Byte} (reached : ObjReached s.dev 0x7120 (l.toNat + 1)) (inside : v.toNat ≤ 1) :
    ((s.dev.port (l.toNat / 8)).enabled = true → s.dict via 0x7120 (l.toNat + 1) [v] =
      .next (s.withDev (if via = .pcie then s.dev.mirrorAbort 0x7120 (l.toNat + 1) abState else s.dev))) ∧
    ((s.dev.port (l.toNat / 8)).enabled = false → s.dict via 0x7120 (l.toNat + 1) [v] =
      .next (s.withDev ((s.dev.overSeam true 0x7120 (l.toNat + 1) 1).laneTest l.toNat (v.toNat = 1)))) := by
  have row := objInfo_laneTest (k := l.toNat + 1) (by omega) (by have := l.isLt; omega)
  obtain ⟨-, refused, gives⟩ := dict_byte (v := v) (range := decide (1 < v.toNat)) (state := (s.dev.port (l.toNat / 8)).enabled) reaches (.inl rfl)
    row reached (by simp [ActsAtOnce, byteInfo, profileGroups]) (by simp [Dev.ownerCauses, leNat, portOfLane])
  have small : decide (1 < v.toNat) = false := decide_eq_false (by omega)
  exact ⟨refused small, gives small⟩

/-- Leave (R266): 1 while no round is open. -/
theorem dict_leave :
    (s.dev.rounds ≠ [] → s.dict via 0x2110 3 [1] =
      .next (s.withDev (if via = .pcie then s.dev.mirrorAbort 0x2110 3 abState else s.dev))) ∧
    (s.dev.rounds = [] → s.dict via 0x2110 3 [1] = .next (s.withDev s.dev.leaveFabric)) ∧
    s.dict via 0x2110 3 [0] = .next s := by
  have row : objInfo 0x2110 3 = some { type := .boolean, access := .wo, dflt := [0] } := rfl
  have near : ObjReached s.dev 0x2110 3 := .inl rfl
  have acts : ActsAtOnce 0x2110 3 { type := .boolean, access := .wo, dflt := [0] } := by simp [ActsAtOnce]
  have owner (v : Byte) : s.dev.ownerCauses s.fuses via 0x2110 3 [v] = cause (v.toNat == 1 && s.dev.anyOpen) abState := by
    simp [Dev.ownerCauses, leNat]
  have nothing : s.dict via 0x2110 3 [0] = _ := dict_gives_writeEffect reaches row near acts rfl (owner 0)
  refine ⟨fun busy => dict_refuses reaches row near rfl rfl ?_, fun idle => ?_, ?_⟩
  · have busy_bit : s.dev.anyOpen = true := by simpa [Dev.anyOpen] using busy
    rw [owner, busy_bit]
    rfl
  · have idle_bit : s.dev.anyOpen = false := by simp [Dev.anyOpen, idle]
    refine (dict_gives_writeEffect reaches row near acts rfl (by rw [owner, idle_bit]; rfl)).trans ?_
    rw [overSeam_of_near _ _ rfl]
    rfl
  · rw [nothing, overSeam_of_near _ _ rfl]
    rfl

/-- PeerResume (R268). -/
theorem dict_peerResume (n : RoundNo) : s.dict via 0x2110 4 (leBytes 4 n.toNat) = .next (s.withDev (peerResume n s.dev)) := by
  have row : objInfo 0x2110 4 = some { type := .unsigned 4, access := .wo, dflt := [0, 0, 0, 0] } := rfl
  have near : ObjReached s.dev 0x2110 4 := .inl rfl
  have number : BitVec.ofNat 32 (leNat (leBytes 4 n.toNat)) = n := by
    rw [leNat_leBytes, Nat.mod_eq_of_lt (show n.toNat < 256 ^ 4 from n.isLt), BitVec.ofNat_toNat, BitVec.setWidth_eq]
  refine (dict_gives_writeEffect reaches row near (by simp [ActsAtOnce]) rfl (by simp [Dev.ownerCauses])).trans ?_
  rw [overSeam_of_near _ _ rfl]
  exact congrArg (fun m => Host.Outcome.next (s.withDev (peerResume m s.dev))) number

end

/-! ### Ports switched on and off (R278) -/

theorem Dev.portOn_of_enabled {d : Dev} {p : Nat} (on : (d.port p).enabled = true) : d.portOn p = d := if_pos on

/-- A lane when its port is enabled: it begins anew, with the peaking that is in force (R276). -/
def freshLane (d : Dev) (m : Nat) (y : Lane) : Lane :=
  { y with signal := false, cdr := false, lock := false, boundary := 0, peaking := d.objNat 0x4120 (m + 1), mark := none, marks := 0 }

/-- The device once a port has been enabled, before its lanes begin anew. -/
def Dev.enablePort (d : Dev) (p : Nat) : Dev :=
  (d.setObj 0x2120 (p + 1) [1]).updPort p fun _ => { Port.reset with enabled := true, step := 1 }

/-- A port that is enabled starts step 1, and its eight lanes begin anew. -/
theorem lanesUpdated_portOn {d : Dev} {p : Nat} (port : p < 16) (off : (d.port p).enabled = false) :
    LanesUpdated (d.enablePort p) (d.portOn p) p (freshLane d) := by
  have on : d.portOn p = (List.range 8).foldl (fun e i => e.updLane (8 * p + i) (freshLane e (8 * p + i))) (d.enablePort p) := by
    rw [Dev.portOn, off, ← foldl_lanesOf (g := fun e l => e.updLane l (freshLane e l))]
    rfl
  rw [on]
  refine lanesUpdated_foldl (fun _ _ => rfl) fun e i m lt objs => ?_
  rw [Dev.lane_updLane]
  refine if_ctx_congr Iff.rfl (fun own => ?_) fun _ => rfl
  have peaking : e.obj 0x4120 (8 * p + i + 1) = d.obj 0x4120 (8 * p + i + 1) := by
    refine (congrArg (objIn · 0x4120 (8 * p + i + 1)) objs).trans (Dev.obj_setObj_of_ne _ _ _ _ _ _ ?_)
    simp only [okey]
    omega
  rw [own, freshLane, freshLane, Dev.objNat, Dev.objNat, peaking]

/-- The device once a port has been disabled: only its sequence numbers remain. -/
def Dev.disablePort (d : Dev) (p : Nat) : Dev :=
  (d.setObj 0x2120 (p + 1) [0]).updPort p fun q => { Port.reset with txSeq := q.txSeq, rxSeq := q.rxSeq }

theorem Dev.portOff_of_not_up {d : Dev} {p : Nat} (step : (d.port p).step ≠ 7) : d.portOff p = d.disablePort p := if_neg step

/-- A port that was up is disabled, and stays so while its packets are handed on. -/
theorem Dev.portOff_of_up {d : Dev} {p : Nat} (up : (d.port p).step = 7) :
    ((d.portOff p).port p).step = 0 ∧ ((d.portOff p).port p).enabled = false ∧ (d.portOff p).obj 0x2120 (p + 1) = [0] := by
  have off : d.portOff p = (d.disablePort p).afterDown (d.port p).peerNode p (framePackets (d.port p).replay) := if_pos up
  have kept := portsKept_afterDown (d.disablePort p) (d.port p).peerNode p (framePackets (d.port p).replay)
  have port : (d.disablePort p).port p = { Port.reset with txSeq := (d.port p).txSeq, rxSeq := (d.port p).rxSeq } := Dev.port_updPort_same ..
  rw [off]
  refine ⟨(kept.step p).trans (congrArg Port.step port), (kept.enabled p).trans (congrArg Port.enabled port), ?_⟩
  rw [Dev.obj, kept.objs]
  exact Dev.obj_setObj ..

/-! ### Leaving (R266) -/

/-- The device once the first `n` ports have been switched off. -/
def Dev.resetPorts (d : Dev) (n : Nat) : Dev :=
  (List.range n).foldl (fun d p => (d.setObj 0x2120 (p + 1) [0]).updPort p fun _ => Port.reset) d

/-- Switching ports off changes their objects and their state alone. -/
theorem Dev.resetPorts_leaves (d : Dev) (n : Nat) :
    (d.resetPorts n).saeri = d.saeri ∧ (d.resetPorts n).mem = d.mem ∧ (d.resetPorts n).lanes = d.lanes := by
  unfold Dev.resetPorts
  induction List.range n generalizing d with
  | nil => exact ⟨rfl, rfl, rfl⟩
  | cons p ps ih => exact ih ((d.setObj 0x2120 (p + 1) [0]).updPort p fun _ => Port.reset)

theorem Dev.resetPorts_off (d : Dev) {n m : Nat} (lt : m < n) :
    (d.resetPorts n).port m = Port.reset ∧ (d.resetPorts n).obj 0x2120 (m + 1) = [0] := by
  induction n with
  | zero => exact absurd lt (Nat.not_lt_zero m)
  | succ n ih =>
    have last : d.resetPorts (n + 1) = ((d.resetPorts n).setObj 0x2120 (n + 1) [0]).updPort n fun _ => Port.reset := by
      rw [Dev.resetPorts, List.range_succ, List.foldl_append]
      rfl
    rw [last]
    rcases Nat.lt_succ_iff_lt_or_eq.1 lt with lower | rfl
    · obtain ⟨port, obj⟩ := ih lower
      refine ⟨(Dev.port_updPort_of_ne _ _ (by omega)).trans port, (Dev.obj_setObj_of_ne _ _ _ _ _ _ ?_).trans obj⟩
      simp only [okey]
      omega
    · exact ⟨Dev.port_updPort_same .., Dev.obj_setObj ..⟩

/-- The ports that are up. -/
def Dev.portsUp (d : Dev) : List Nat := (List.range 16).filter fun p => (d.port p).step == 7

/-- The device that has left, with a leave notice out on some ports. -/
def Dev.notifyLeave (d : Dev) (up : List Nat) : Dev :=
  up.foldl (fun d p => d.sendNotice p 2 d.nodeId) { d with saeri := { d.saeri with left := true } }

/-- Leaving is the notices, the ports' end, and the departure of the neighbours. -/
theorem Dev.leaveFabric_eq (d : Dev) :
    d.leaveFabric = ((d.portsUp.map fun p => (d.port p).peerNode).dedup).foldl (fun e n => e.depart n none) ((d.notifyLeave d.portsUp).resetPorts 16) :=
  rfl

/-- Where no port is up, leaving only switches the ports off. -/
theorem Dev.leaveFabric_of_none_up {d : Dev} (none_up : ∀ m, m < 16 → (d.port m).step ≠ 7) :
    d.leaveFabric = Dev.resetPorts { d with saeri := { d.saeri with left := true } } 16 := by
  have up : d.portsUp = [] := by
    refine List.filter_eq_nil_iff.2 fun p inside => ?_
    simpa using none_up p (List.mem_range.1 inside)
  rw [Dev.leaveFabric_eq, up, List.map_nil, List.dedup_nil, List.foldl_nil, Dev.notifyLeave, List.foldl_nil]

theorem portsKept_notifyLeave (d : Dev) (up : List Nat) : PortsKept { d with saeri := { d.saeri with left := true } } (d.notifyLeave up) :=
  portsKept_foldl (fun e p => portsKept_sendNotice e p 2 e.nodeId) up _

/-- After leaving, the node has left and every port is off. -/
theorem Dev.leaveFabric_off (d : Dev) :
    d.leaveFabric.saeri.left = true ∧ ∀ m, m < 16 → d.leaveFabric.obj 0x2120 (m + 1) = [0] ∧ (d.leaveFabric.port m).step = 0 := by
  have notices := portsKept_notifyLeave d d.portsUp
  have departed : PortsKept ((d.notifyLeave d.portsUp).resetPorts 16) d.leaveFabric := by
    rw [Dev.leaveFabric_eq]
    exact portsKept_foldl (fun e n => portsKept_depart e n none) _ _
  refine ⟨departed.left.trans ((congrArg Saeri.left (Dev.resetPorts_leaves _ 16).1).trans notices.left), fun m lt => ?_⟩
  obtain ⟨port, obj⟩ := (d.notifyLeave d.portsUp).resetPorts_off lt
  exact ⟨(congrArg (objIn · 0x2120 (m + 1)) departed.objs).trans obj, (departed.step m).trans (congrArg Port.step port)⟩

/-! ### A round that its peers held goes on (R268) -/

/-- Event words change the cores' ports alone. -/
theorem Dev.eventAll_leaves (d : Dev) (kind : BitVec 2) (attempt : Nat) (round : RoundNo) (st : Status) :
    (d.eventAll kind attempt round st).rounds = d.rounds ∧ (d.eventAll kind attempt round st).mem = d.mem ∧
      (d.eventAll kind attempt round st).objs = d.objs := by
  have pass (l : List Nat) (e : Dev) (same : e.rounds = d.rounds ∧ e.mem = d.mem ∧ e.objs = d.objs) :
      let t := l.foldl (fun d n => d.updFab n fun p => p.event kind attempt round st) e
      t.rounds = d.rounds ∧ t.mem = d.mem ∧ t.objs = d.objs := by
    induction l generalizing e with
    | nil => exact same
    | cons n l ih => exact ih (e.updFab n _) same
  exact pass _ d ⟨rfl, rfl, rfl⟩

theorem Dev.round?_updRound (d : Dev) (n : RoundNo) (f : Round → Round) (number : ∀ r, (f r).number = r.number) :
    (d.updRound n f).round? n = (d.round? n).map f := by
  have same (r : Round) : (if r.number = n then f r else r).number = r.number := by split <;> simp [number]
  simp only [Dev.round?, Dev.updRound, List.find?_map, Function.comp_def, same]
  cases found : d.rounds.find? fun r => decide (r.number = n) with
  | none => rfl
  | some r =>
    have own : r.number = n := by simpa using List.find?_some found
    simp [own]

/-- The end of a hold is an update of the round, and event words beside it. -/
theorem Dev.endHold_of_open {d : Dev} {n : RoundNo} {r : Round} (found : d.round? n = some r) :
    (d.endHold n).rounds = (d.updRound n fun r => { r with hold := .none, waitRegions := [] }).rounds ∧ (d.endHold n).mem = d.mem ∧
      (d.endHold n).objs = d.objs := by
  rw [Dev.endHold, Dev.withRound, found]
  dsimp only
  split
  · exact Dev.eventAll_leaves ..
  · exact ⟨rfl, rfl, rfl⟩

theorem peerResume_of_none {d : Dev} {n : RoundNo} (none_open : d.round? n = none) : peerResume n d = d := by
  rw [peerResume, Dev.withRound, none_open]

theorem peerResume_of_not_held {d : Dev} {n : RoundNo} {r : Round} (found : d.round? n = some r) (other : r.hold ≠ .peer ∨ r.phase = .running) :
    peerResume n d = d := by
  rw [peerResume, Dev.withRound, found]
  exact if_neg (by tauto)

/-- A key of the groups that name a round's peers, 0x4112 to 0x4114, and a round that takes them as they stand in `objs`. -/
def isPeerKey (k : Nat) : Bool := 0x4112 ≤ k / 256 && k / 256 ≤ 0x4114
def Round.takePeerGroups (objs : Table (List Byte)) (r : Round) : Round :=
  { r with settings := (r.settings.filter fun e => !isPeerKey e.1) ++ objs.filter fun e => isPeerKey e.1 }

/-- A round held for lost peers goes on with those groups. -/
theorem peerResume_of_held {d : Dev} {n : RoundNo} {r : Round} (found : d.round? n = some r) (held : r.hold = .peer) (stopped : r.phase ≠ .running) :
    (peerResume n d).rounds = d.rounds.map (fun e => if e.number = n then { e.takePeerGroups d.objs with hold := .none, waitRegions := [] } else e) ∧
      (peerResume n d).mem = d.mem ∧ (peerResume n d).objs = d.objs := by
  have resumed : peerResume n d = (d.updRound n (Round.takePeerGroups d.objs)).endHold n := by
    rw [peerResume, Dev.withRound, found]
    exact if_pos ⟨held, stopped⟩
  have open_still : (d.updRound n (Round.takePeerGroups d.objs)).round? n = some (r.takePeerGroups d.objs) := by
    rw [Dev.round?_updRound d n (Round.takePeerGroups d.objs) fun _ => rfl, found, Option.map_some]
  obtain ⟨rounds, mem, objs⟩ := Dev.endHold_of_open open_still
  rw [resumed]
  refine ⟨rounds.trans ?_, mem, objs⟩
  simp only [Dev.updRound, List.map_map]
  refine List.map_congr_left fun e _ => ?_
  by_cases own : e.number = n
  · have number : (e.takePeerGroups d.objs).number = n := own
    simp only [Function.comp, own, number, if_true]
  · simp only [Function.comp, own, if_false]

theorem isPeerKey_eq (k : Nat) : isPeerKey k = decide (0x4112 ≤ k / 256 ∧ k / 256 ≤ 0x4114) := (Bool.decide_and ..).symm

theorem not_isPeerKey (k : Nat) : (!isPeerKey k) = decide (k / 256 < 0x4112 ∨ 0x4114 < k / 256) := by
  rw [isPeerKey_eq, ← decide_not]
  exact decide_eq_decide.2 (by omega)

theorem Round.takePeerGroups_eq (objs : Table (List Byte)) (r : Round) : r.takePeerGroups objs =
    { r with settings := (r.settings.filter fun k => decide (k.1 / 256 < 0x4112 ∨ 0x4114 < k.1 / 256)) ++
               objs.filter fun k => decide (0x4112 ≤ k.1 / 256 ∧ k.1 / 256 ≤ 0x4114) } := by
  simp only [Round.takePeerGroups, ← isPeerKey_eq, ← not_isPeerKey]

end Sys2Proof.Machine
end

section
/-! Ports, lane tests, leaving and resuming through the dictionary as one statement (R266, R268, R276, R278, R279, R291). -/

namespace Sys2Proof.Machine

/-- Ports 0 to 7 and lanes 0 to 63 lie on die 0 (R14). -/
theorem objDie_port (d : Dev) {p : Nat} (near : p < 8) : d.objDie 0x2120 (p + 1) = 0 := by
  change p / 8 % 2 = 0
  omega
theorem objDie_lane (d : Dev) {i l : Nat} (lane : i = 0x2121 ∨ i = 0x7120) (near : l < 64) : d.objDie i (l + 1) = 0 := by
  have die : d.objDie i (l + 1) = l / 64 % 2 := by rcases lane with rfl | rfl <;> rfl
  omega

/-- Settles O46: each clause is what the dictionary does with the command's write, and what that write does to the port, the lane or the rounds. -/
theorem portControls : Obligations.PortControls := by
  unfold Obligations.PortControls
  intro s via p l v n reaches near d q x crossed
  have portReached : ObjReached s.dev 0x2120 (p.toNat + 1) := near.imp (fun h => objDie_port _ h.1) id
  have slipReached : ObjReached s.dev 0x2121 (l.toNat + 1) := near.imp (fun h => objDie_lane _ (.inl rfl) h.2) id
  have testReached : ObjReached s.dev 0x7120 (l.toNat + 1) := near.imp (fun h => objDie_lane _ (.inr rfl) h.2) id
  have crossedPort (m : Nat) : (crossed 0x2120 (p.toNat + 1)).port m = d.port m := port_overSeam portReached 1 m
  have crossedLane (m : Nat) : (crossed 0x2120 (p.toNat + 1)).lane m = d.lane m := lane_overSeam portReached 1 m
  obtain ⟨enableRefused, enabled⟩ := dict_portEnable (v := 1) reaches portReached le_rfl
  have enable (user : d.cfg.state = 5) : Gives (.portEnable via p) s ((crossed 0x2120 (p.toNat + 1)).portOn p.toNat) := enabled user
  have disable (user : d.cfg.state = 5) : Gives (.portDisable via p) s ((crossed 0x2120 (p.toNat + 1)).portOff p.toNat) :=
    (dict_portEnable (v := 0) reaches portReached zero_le_one).2 user
  obtain ⟨slipOutside, slipRefused, slip⟩ := dict_bitSlip (v := v) reaches slipReached
  obtain ⟨startRefused, start⟩ := dict_laneTest (v := 1) reaches testReached le_rfl
  obtain ⟨endRefused, finish⟩ := dict_laneTest (v := 0) reaches testReached zero_le_one
  obtain ⟨leaveRefused, leave, leaveZero⟩ := dict_leave reaches
  have resume := dict_peerResume reaches n
  refine ⟨?_, ?_, ?_, ?_, ?_, ?_, ?_, ?_, ?_, ?_, ?_, ?_, ?_, ?_, ?_, ?_, ?_, ?_, ?_, ?_⟩
  · exact fun die0 => overSeam_of_near _ _ (objDie_port _ die0)
  · exact fun die0 => ⟨overSeam_of_near _ _ (objDie_lane _ (.inl rfl) die0), overSeam_of_near _ _ (objDie_lane _ (.inr rfl) die0)⟩
  · intro user off
    have fresh := lanesUpdated_portOn (d := crossed 0x2120 (p.toNat + 1)) p.isLt ((congrArg Port.enabled (crossedPort _)).trans off)
    refine ⟨_, enable user, ?_, ?_, fun m other => ?_, fun m => ?_, ?_, ?_⟩
    · exact (fresh.port _).trans (Dev.port_updPort_same ..)
    · exact (fresh.obj _ _).trans (Dev.obj_setObj ..)
    · exact (fresh.port _).trans ((Dev.port_updPort_of_ne _ _ other).trans (crossedPort m))
    · have peaking : (crossed 0x2120 (p.toNat + 1)).objNat 0x4120 (m + 1) = d.objNat 0x4120 (m + 1) :=
        congrArg (fun t => leNat (objIn t 0x4120 (m + 1))) (objs_overSeam portReached 1)
      refine (fresh.lane m).trans ?_
      have before : ((crossed 0x2120 (p.toNat + 1)).enablePort p.toNat).lane m = d.lane m := crossedLane m
      rw [freshLane, peaking, before]
    · exact fresh.mem.trans (mem_overSeam portReached 1)
    · exact fresh.saeri.trans (saeri_overSeam portReached 1)
  · intro user on
    have answer := enable user
    rw [Dev.portOn_of_enabled ((congrArg Port.enabled (crossedPort p.toNat)).trans on)] at answer
    exact answer
  · exact enableRefused
  · intro user step
    have answer := disable user
    rw [Dev.portOff_of_not_up (by rwa [crossedPort])] at answer
    exact answer
  · exact fun user up => ⟨_, disable user, Dev.portOff_of_up ((congrArg Port.step (crossedPort _)).trans up)⟩
  · exact slip
  · exact slipRefused
  · exact slipOutside
  · exact fun off => ⟨start off, finish off⟩
  · exact fun on => ⟨startRefused on, endRefused on⟩
  · exact fun clocks test => onClock_gives_of_eq clocks (laneTestError_of_test test)
  · intro idle none_up
    refine ⟨_, leave idle, ?_⟩
    rw [Dev.leaveFabric_of_none_up none_up]
    obtain ⟨saeri, mem, lanes⟩ := Dev.resetPorts_leaves { d with saeri := { d.saeri with left := true } } 16
    exact ⟨saeri, fun m lt => Dev.resetPorts_off _ lt, mem, lanes⟩
  · exact fun idle => ⟨_, leave idle, d.leaveFabric_off⟩
  · exact leaveRefused
  · exact leaveZero
  · intro r found held stopped
    obtain ⟨rounds, mem, objs⟩ := peerResume_of_held found held stopped
    simp only [Round.takePeerGroups_eq] at rounds
    exact ⟨_, resume, rounds, mem, objs⟩
  · intro none_open
    rw [peerResume_of_none none_open] at resume
    exact resume
  · intro r found other
    rw [peerResume_of_not_held found other] at resume
    exact resume

end Sys2Proof.Machine
end

section
/-! The forms of a command: every command acts on the device alone, writes one object, or takes one transfer frame; what each form leaves of
the queue and of the fuses (R323 to R325). -/

namespace Sys2Proof.Machine

/-- The forms that the meaning of a command may have: an action on the device, a write of an object, a frame of a transfer. -/
inductive ExecForm (s : State) : Host.Outcome State Fault Refusal → Prop
  | dev (f : Dev → Dev) : ExecForm s (s.onDev f)
  | dict (via : Transport) (i j : Nat) (b : List Byte) : ExecForm s (s.dict via i j b)
  | transfer (via : Transport) (f : TFrame) (cmd : Byte) : ExecForm s (s.transfer via f cmd)

/-- Every command has one of the three forms. -/
theorem exec_form (i : Instr) (s : State) : ExecForm s (exec i s) := by
  cases i
  case registerWrite via target bytes =>
    cases target
    · exact .dict ..
    · exact .dev ..
  case pciePerst => exact .dev fun d => { d.pcieReset with hostOut := [] }
  all_goals first
    | exact .dev ..
    | exact .dict ..
    | exact .transfer ..

/-! ### The fuses -/

/-- What a command may do to the fuses: nothing, blow some of them, or blow the eFuse key (R325). -/
inductive Blown (fz : Fuses) : Fuses → Prop
  | same : Blown fz fz
  | fuses (mask : Word) : Blown fz (fz.blow mask)
  | key (key : List Byte) : Blown fz (fz.setKey key)

/-- A write of an object blows fuses through FuseProgram and EfuseKey alone. -/
theorem dictWrite_blown {fz fz' : Fuses} {d d' : Dev} {via : Transport} {i j : Nat} {b : List Byte}
    (written : dictWrite fz d via i j b = .ok (fz', d')) : Blown fz fz' := by
  unfold dictWrite at written
  split at written
  · cases written
  · injection written with pair
    obtain ⟨rfl, -⟩ := Prod.mk.inj pair
    split
    · exact .fuses _
    · split
      · exact .key _
      · exact .same

/-- A write segment blows fuses through the write of the object that it completes. -/
theorem writeSegment_blown (fz : Fuses) (d : Dev) (t : Transfer) (f : TFrame) : Blown fz (writeSegment fz d t f).1 := by
  unfold writeSegment
  extract_lets last ack first len body body' t' passed
  clear_value passed
  repeat' split
  all_goals first
    | exact .same
    | exact dictWrite_blown ‹_›

/-- A frame of a client blows fuses through a write segment alone. -/
theorem frameIn_blown (fz : Fuses) (d : Dev) (via : Transport) (f : TFrame) : Blown fz (frameIn fz d via f).1 := by
  unfold frameIn
  dsimp only
  repeat' split
  all_goals first
    | exact .same
    | exact writeSegment_blown ..

/-- Every command takes a next state, leaves the queue, and does to the fuses what R325 allows. -/
theorem exec_next (i : Instr) (s : State) : ∃ fz d, exec i s = .next { s with fuses := fz, dev := d } ∧ Blown s.fuses fz := by
  have form := exec_form i s
  generalize exec i s = o at form ⊢
  cases form with
  | dev f => exact ⟨s.fuses, f s.dev, rfl, .same⟩
  | dict via i j b =>
    unfold State.dict
    split
    · split
      · next fz d written => exact ⟨fz, d, rfl, dictWrite_blown written⟩
      · exact ⟨s.fuses, _, congrArg _ (apply_ite (fun d => { s with dev := d }) _ _ _).symm, .same⟩
    · exact ⟨s.fuses, s.dev, rfl, .same⟩
  | transfer via f cmd =>
    unfold State.transfer
    split
    · exact ⟨_, _, rfl, frameIn_blown ..⟩
    · exact ⟨s.fuses, s.dev, rfl, .same⟩

/-- Fuses that are blown stay blown, and the eFuse key is programmed once (R323, R324). -/
theorem Blown.permanent {fz fz' : Fuses} (h : Blown fz fz') :
    (∀ b : Nat, fz.security.getLsbD b = true → fz'.security.getLsbD b = true) ∧ ∀ k, fz.efuseKey = some k → fz'.efuseKey = some k := by
  cases h with
  | same => exact ⟨fun _ h => h, fun _ h => h⟩
  | fuses mask => exact ⟨fun b h => by simp [Fuses.blow, h], fun _ h => h⟩
  | key key =>
    unfold Fuses.setKey
    split
    · exact ⟨fun _ h => h, fun _ h => h⟩
    · next unset => exact ⟨fun b h => by simp [h], fun k h => absurd (by simp [h]) unset⟩

/-! ### Commands that are not well formed -/

/-- A packet of another operation does not arrive. -/
theorem nocArrive_of_op_ne {d : Dev} {k : NocPacket} {op : BitVec 6} (h : (k.op == op) = false) (f : Dev → Dev) : d.nocArrive k op f = d := by
  simp [Dev.nocArrive, Dev.nocReady, h]

theorem saeriArrive_of_op_ne {d : Dev} {k : SaeriPkt} {op : BitVec 6} (h : (k.op == op) = false) (f : Dev → Dev) : d.saeriArrive k op f = d :=
  if_pos (.inl (beq_eq_false_iff_ne.1 h))

/-- A frame of another length than 72 blocks is not read. -/
theorem withFrame_of_length_ne {d : Dev} {p : Nat} {raw : RawFrame} (h : (raw.blocks.length == 72) = false) (type : BitVec 4)
    (f : LinkFrame → Dev → Dev) : d.withFrame p raw type f = d := if_pos (.inr (beq_eq_false_iff_ne.1 h))

/-- A frame of a transfer under another command's name is not taken. -/
theorem transfer_of_cmd_ne {s : State} {via : Transport} {f : TFrame} {cmd : Byte} (h : (f.cmd == cmd) = false) : s.transfer via f cmd = .next s :=
  if_neg fun both => beq_eq_false_iff_ne.1 h both.2

/-- A key of another length than 32 bytes is refused, which no transport keeps. -/
theorem dict_of_key_length_ne {s : State} {via : Transport} {j : Nat} {key : List Byte} (h : (key.length == 32) = false)
    (hj : j = 4 ∨ j = 7) : s.dict via 0x2140 j key = .next s := by
  have info : objInfo 0x2140 j = some { type := .octets 32, access := .wo, dflt := List.replicate 32 0 } := by
    rcases hj with rfl | rfl <;> decide
  have refused : ∃ c, dictWrite s.fuses s.dev via 0x2140 j key = .error c := by
    simp [dictWrite, Dev.objWrite, info, typeCauses, OType.lengthOk, h, cause, lowest]
  obtain ⟨c, refused⟩ := refused
  simp [State.dict, refused, info, OType.size]

/-- A command word that is not well formed for its row is taken by no port: its beats are not those of its operation, or its operation is
another row's. -/
theorem fabWord_of_not_wf {d : Dev} {core beats : Nat} {row : BitVec 4} {w : FabWord} {f : FabCmd → Dev → Dev}
    (h : fabWf row w beats = false) (hf : (w.beats.length == 64 * beats) = false → f (fabDecode w.word w.beats).2 d = d) :
    d.fabWord core row w f = d := by
  unfold fabWf at h
  unfold Dev.fabWord
  have op : (fabDecode w.word w.beats).1 = BitVec.extractLsb' 124 4 w.word := rfl
  dsimp only at h ⊢
  rw [op]
  split
  · next same => exact hf (by rwa [if_pos same] at h)
  · next other =>
    rw [if_neg other] at h
    split
    · next reserved =>
      have ragged : w.beats.length % 64 ≠ 0 := by
        rw [fabReserved] at reserved
        rwa [reserved, Bool.true_and, beq_eq_false_iff_ne] at h
      have length : (fabDecode w.word w.beats).2.beats = w.beats := rfl
      simp only [Dev.fabBadOp, Dev.accepts, length]
      rw [if_neg]
      simp only [Bool.and_eq_true, beq_iff_eq]
      omega
    · rfl

/-- A command whose beats are not those of its operation is not accepted. -/
theorem fabFront_of_length_ne {d : Dev} {core beats : Nat} {op : BitVec 4} {cmd : FabCmd} (h : (cmd.beats.length == 64 * beats) = false) (used : Bool)
    (f : Dev → Dev) : d.fabFront core op cmd beats used f = d := by simp [Dev.fabFront, Dev.accepts, h]

/-- The commands of a fabric port, whose word and beats are not well formed. -/
theorem ignored_of_not_fabWf (s : State) (c : CoreId) (w : FabWord) :
    ((Instr.read c w).wf = false → Ignored (.read c w) s) ∧ ((Instr.write c w).wf = false → Ignored (.write c w) s) ∧
    ((Instr.inject c w).wf = false → Ignored (.inject c w) s) ∧ ((Instr.take c w).wf = false → Ignored (.take c w) s) ∧
    ((Instr.release c w).wf = false → Ignored (.release c w) s) ∧ ((Instr.flagadd c w).wf = false → Ignored (.flagadd c w) s) :=
  ⟨fun h => onClock_ignored (f := fun d => d.fabWord c.toNat 1 w (fabRead s.fuses c))
      (fabWord_of_not_wf h fun length => fabFront_of_length_ne length _ _),
    fun h => onClock_ignored (f := fun d => d.fabWord c.toNat 2 w (fabWrite s.fuses c))
      (fabWord_of_not_wf h fun length => fabFront_of_length_ne length _ _),
    fun h => onClock_ignored (f := fun d => d.fabWord c.toNat 3 w (fabInject s.fuses c))
      (fabWord_of_not_wf h fun length => fabFront_of_length_ne length _ _),
    fun h => onClock_ignored (f := fun d => d.fabWord c.toNat 4 w (fabTake c))
      (fabWord_of_not_wf h fun length => by unfold fabTake; exact fabFront_of_length_ne length _ _),
    fun h => onClock_ignored (f := fun d => d.fabWord c.toNat 5 w (fabRelease c))
      (fabWord_of_not_wf h fun length => by unfold fabRelease; exact fabFront_of_length_ne length _ _),
    fun h => onClock_ignored (f := fun d => d.fabWord c.toNat 6 w (fabFlagadd c))
      (fabWord_of_not_wf h fun length => by unfold fabFlagadd; exact fabFront_of_length_ne length _ _)⟩

/-- The link frames, where their length is not 72 blocks. -/
theorem ignored_of_blocks_ne (s : State) (p : PortId) (f : RawFrame) (h : (f.blocks.length == 72) = false) :
    Ignored (.idleFrame p f) s ∧ Ignored (.dataFrame p f) s ∧ Ignored (.leaveNotice p f) s ∧ Ignored (.departureNotice p f) s := by
  have data : dataFrame p.toNat f s.dev = s.dev := by
    unfold dataFrame
    dsimp only
    rw [if_neg fun both => beq_eq_false_iff_ne.1 h both.2.1]
    exact withFrame_of_length_ne h _ _
  exact ⟨onClock_ignored (f := idleFrame p.toNat f) (by unfold idleFrame; exact withFrame_of_length_ne h _ _), onClock_ignored data,
    onClock_ignored (f := leaveNotice p.toNat f) (by unfold leaveNotice; exact withFrame_of_length_ne h _ _),
    onClock_ignored (f := departureNotice p.toNat f) (by unfold departureNotice; exact withFrame_of_length_ne h _ _)⟩

/-- A command that is not well formed changes nothing. -/
theorem ignored_of_not_wf (i : Instr) (s : State) (h : i.wf = false) : Ignored i s := by
  cases i
  case streamHeader src b => exact onClock_ignored (if_neg fun both => beq_eq_false_iff_ne.1 h both.1)
  case frameRecord b =>
    refine onClock_ignored ?_
    unfold Dev.loadUnit
    split
    · exact if_neg fun both => beq_eq_false_iff_ne.1 h both.1
    · rfl
  case streamTag b =>
    refine onClock_ignored ?_
    unfold Dev.loadUnit
    split
    · exact if_neg fun both => beq_eq_false_iff_ne.1 h both.1
    · rfl
  case bbramKey via key => exact dict_of_key_length_ne h (.inl rfl)
  case efuseKey via key => exact dict_of_key_length_ne h (.inr rfl)
  case scrubFrame f o =>
    refine onClock_ignored ?_
    have bad : frameValid f.toNat = false ∨ ∃ w, o.badWord = some w ∧ 36 ≤ w.toNat := by
      simpa [Instr.wf, Option.all_eq_false, imp_iff_not_or] using h
    refine if_pos ?_
    rcases bad with bad | ⟨w, hw, far⟩
    · exact .inl (by simp [bad])
    · exact .inr (.inl (by simp [hw, far]))
  case transferRead via f => exact transfer_of_cmd_ne h
  case writeSegment via f => exact transfer_of_cmd_ne h
  case readAcknowledge via f => exact transfer_of_cmd_ne h
  case clientAbort via f => exact transfer_of_cmd_ne h
  case nocRead k us => exact onClock_ignored (nocArrive_of_op_ne h _)
  case nocWrite k =>
    refine onClock_ignored ?_
    unfold nocWrite
    split
    · next b body =>
      split
      · rfl
      · next length =>
        rw [not_not] at length
        exact nocArrive_of_op_ne (by simpa [Instr.wf, NocPacket.holdsBytes, body, length] using h) _
    · rfl
  case nocReadData k latency => exact onClock_ignored (nocArrive_of_op_ne h _)
  case nocWriteAck k => exact onClock_ignored (nocArrive_of_op_ne h _)
  case nocFlagAdd k => exact onClock_ignored (nocArrive_of_op_ne h _)
  case nocCarryPartial k =>
    refine onClock_ignored ?_
    unfold nocCarryPartial
    split
    · next n m body => exact nocArrive_of_op_ne (by simpa [Instr.wf, NocPacket.holdsCarry, body] using h) _
    · rfl
  case nocWeightRow k =>
    refine onClock_ignored ?_
    unfold nocWeightRow
    split
    · next ord b n body _ => exact nocArrive_of_op_ne (by simpa [Instr.wf, NocPacket.holdsTile, body] using h) _
    · rfl
  case nocManagement k => exact onClock_ignored (nocArrive_of_op_ne h _)
  case linkRemoval bundle link =>
    refine onClock_ignored (if_neg ?_)
    rintro ⟨-, inside, six, -⟩
    simp [Instr.wf, inside, six] at h
  case hbmAccess a n w us parity =>
    refine onClock_ignored (if_pos ?_)
    rw [Instr.wf, Bool.and_eq_false_iff] at h
    rcases h with h | h
    · exact .inr (.inl (by simp [Dev.oneRow, h]))
    · cases w with
      | none => cases h
      | some b => exact .inr (.inr (by simpa using h))
  case hbmRefresh pc bank => exact onClock_ignored (if_neg fun both => of_decide_eq_false h both.1)
  case saeriRead k => exact onClock_ignored (saeriArrive_of_op_ne h _)
  case saeriWrite k =>
    refine onClock_ignored ?_
    unfold saeriWrite
    split
    · rfl
    · next long =>
      have enough : k.lenm1.toNat < k.data.length := by unfold saeriLen at long; omega
      exact saeriArrive_of_op_ne (by simpa [Instr.wf, enough] using h) _
  case saeriReadData k => exact onClock_ignored (saeriArrive_of_op_ne h _)
  case saeriWriteAck k => exact onClock_ignored (saeriArrive_of_op_ne h _)
  case saeriFlagAdd k => exact onClock_ignored (saeriArrive_of_op_ne h _)
  case saeriManagement k => exact onClock_ignored (saeriArrive_of_op_ne h _)
  case quiescenceNotice k => exact onClock_ignored (saeriArrive_of_op_ne h _)
  case read c w =>
    obtain ⟨read, -, -, -, -, -⟩ := ignored_of_not_fabWf s c w
    exact read h
  case write c w =>
    obtain ⟨-, write, -, -, -, -⟩ := ignored_of_not_fabWf s c w
    exact write h
  case inject c w =>
    obtain ⟨-, -, inject, -, -, -⟩ := ignored_of_not_fabWf s c w
    exact inject h
  case take c w =>
    obtain ⟨-, -, -, take, -, -⟩ := ignored_of_not_fabWf s c w
    exact take h
  case release c w =>
    obtain ⟨-, -, -, -, release, -⟩ := ignored_of_not_fabWf s c w
    exact release h
  case flagadd c w =>
    obtain ⟨-, -, -, -, -, flagadd⟩ := ignored_of_not_fabWf s c w
    exact flagadd h
  case idleFrame p f =>
    obtain ⟨idle, -, -, -⟩ := ignored_of_blocks_ne s p f h
    exact idle
  case dataFrame p f =>
    obtain ⟨-, data, -, -⟩ := ignored_of_blocks_ne s p f h
    exact data
  case leaveNotice p f =>
    obtain ⟨-, -, leave, -⟩ := ignored_of_blocks_ne s p f h
    exact leave
  case departureNotice p f =>
    obtain ⟨-, -, -, departure⟩ := ignored_of_blocks_ne s p f h
    exact departure
  all_goals cases h

/-! ### The statements -/

/-- Settles O3: every form of a command answers a next state with the queue as it was; a command that is not well formed is ignored. -/
theorem everyCommandAnswersANextState : Obligations.EveryCommandAnswersANextState := by
  unfold Obligations.EveryCommandAnswersANextState
  intro i s
  obtain ⟨fz, d, next, -⟩ := exec_next i s
  exact ⟨⟨_, next, rfl⟩, ignored_of_not_wf i s⟩

/-- Settles O1: by definition of a step. -/
theorem stepRunsTheFrontCommand : Obligations.StepRunsTheFrontCommand := by
  unfold Obligations.StepRunsTheFrontCommand
  intro s c rest front
  rw [step, front]

/-- Settles O4: an idle cycle leaves the fuses, and a command only adds to them. -/
theorem fusesArePermanent : Obligations.FusesArePermanent := by
  unfold Obligations.FusesArePermanent
  intro s t stepped
  unfold step at stepped
  split at stepped
  · cases stepped
    exact Blown.permanent .same
  · next c rest front =>
    obtain ⟨fz, d, next, blown⟩ := exec_next c { s with pending := rest }
    rw [next] at stepped
    cases stepped
    exact blown.permanent

end Sys2Proof.Machine
end

section
/-! What the operations of the model leave of the memory. -/

namespace Sys2Proof.Machine

/-- A pass whose every step leaves the memory leaves it. -/
@[simp] theorem foldl_mem {α : Type} {f : Dev → α → Dev} (kept : ∀ d a, (f d a).mem = d.mem) (l : List α) (d : Dev) : (l.foldl f d).mem = d.mem := by
  induction l generalizing d with
  | nil => rfl
  | cons a l ih => exact (ih _).trans (kept d a)

/-- A choice between devices with one memory. -/
@[simp] theorem ite_mem {c : Prop} [Decidable c] {d e : Dev} : (if c then d else e).mem = if c then d.mem else e.mem := apply_ite ..


@[simp] theorem Dev.nocTake_mem (d : Dev) (k : NocPacket) : (d.nocTake k).mem = d.mem := by rfl
@[simp] theorem Dev.updPins_mem (d : Dev) (f : Pins → Pins) : (d.updPins f).mem = d.mem := by rfl
@[simp] theorem Dev.mirrorAbort_mem (d : Dev) (i s code : Nat) : (Dev.mirrorAbort d i s code).mem = d.mem := by rw [Dev.mirrorAbort]
@[simp] theorem vbattRemoval_mem (d : Dev) : (vbattRemoval d).mem = d.mem := by simp [vbattRemoval]
theorem Dev.withRound_inv {P : Dev → Prop} {d : Dev} (hd : P d) {n : RoundNo} {f : Round → Dev} (hf : ∀ r, P (f r)) : P (d.withRound n f) := by
  unfold Dev.withRound
  split
  · exact hf _
  · exact hd
@[simp] theorem Dev.withRound_mem {d : Dev} {n : RoundNo} {f : Round → Dev} (hf : ∀ r, (f r).mem = d.mem) : (d.withRound n f).mem = d.mem :=
  Dev.withRound_inv (P := fun e => e.mem = d.mem) rfl hf
@[simp] theorem Dev.updCfg_mem (d : Dev) (f : Cfg → Cfg) : (d.updCfg f).mem = d.mem := by rfl
@[simp] theorem Dev.mapRings_mem (d : Dev) (f : Ring → Ring) : (d.mapRings f).mem = d.mem := by rfl
@[simp] theorem coreHalt_mem (n : ℕ) (d : Dev) : (coreHalt n d).mem = d.mem := by rfl
@[simp] theorem Dev.leaveLoad_mem (d : Dev) (x : Desc) : (d.leaveLoad x).mem = d.mem := by rfl
@[simp] theorem Dev.initRegion_mem (d : Dev) (p : ℕ) : (d.initRegion p).mem = d.mem := by rfl
@[simp] theorem clockLoss_mem (d : Dev) : (clockLoss d).mem = d.mem := by simp [clockLoss]
@[simp] theorem Dev.takeOffered_mem (d : Dev) (n : ℕ) (x : Desc) (r : Round) (t : ChainTile) : (d.takeOffered n x r t).mem = d.mem := by unfold Dev.takeOffered; split <;> simp
@[simp] theorem Dev.logFault_mem (d : Dev) (round : RoundNo) (st : Status) (attempt : ℕ) (ended : Bool) (received : Bool) (held : Bool) : (d.logFault round st attempt ended received held).mem = d.mem := by rfl
@[simp] theorem Dev.dropFeed_mem (d : Dev) (who : StreamWriter) : (d.dropFeed who).mem = d.mem := by rfl
@[simp] theorem Dev.setFeed_mem (d : Dev) (q : Feed) : (d.setFeed q).mem = d.mem := by simp [Dev.setFeed]
@[simp] theorem Dev.setRegion_mem (d : Dev) (p : ℕ) (st : ℕ) (cause : ℕ) : (d.setRegion p st cause).mem = d.mem := by rfl
@[simp] theorem Dev.endLoad_mem (d : Dev) (kind : ℕ) (partition : ℕ) (src : LoadSource) (result : ℕ) (cause : ℕ) : (d.endLoad kind partition src result cause).mem = d.mem := by simp [Dev.endLoad]
@[simp] theorem Dev.injected_mem (d : Dev) (op : BitVec 4) (cmd : FabCmd) (st : Status) : (d.injected op cmd st).mem = d.mem := by simp [Dev.injected]
@[simp] theorem Dev.nocSend_mem (d : Dev) (pkt : NocPacket) : (d.nocSend pkt).mem = d.mem := by simp [Dev.nocSend]
@[simp] theorem Dev.freeSlot_mem (d : Dev) (p : ℕ) (c : ℕ) : (d.freeSlot p c).mem = d.mem := by rfl
@[simp] theorem Dev.leaveTransit_mem (d : Dev) (k : SaeriPkt) : (d.leaveTransit k).mem = d.mem := by unfold Dev.leaveTransit; split <;> simp
@[simp] theorem Dev.takePacket_mem (d : Dev) (p : ℕ) (k : SaeriPkt) : (d.takePacket p k).mem = d.mem := by simp [Dev.takePacket]
theorem PumpAcc.next_dev_mem (a : PumpAcc) (e : Nat × SaeriPkt) : (a.next e).dev.mem = a.dev.mem := by
  unfold PumpAcc.next
  extract_lets
  split
  · rfl
  · exact a.dev.takePacket_mem e.1 e.2
theorem PumpAcc.foldl_next_dev_mem (l : List (Nat × SaeriPkt)) (a : PumpAcc) : (l.foldl PumpAcc.next a).dev.mem = a.dev.mem := by
  induction l generalizing a with
  | nil => rfl
  | cons e l ih => exact (ih _).trans (a.next_dev_mem e)
@[simp] theorem Dev.pump_mem (d : Dev) : (d.pump).mem = d.mem := (foldl_mem (fun _ _ => by simp) _ _).trans (PumpAcc.foldl_next_dev_mem _ _)
@[simp] theorem Dev.sendSaeri_mem (d : Dev) (pkt : SaeriPkt) : (d.sendSaeri pkt).mem = d.mem := by
  unfold Dev.sendSaeri
  repeat' split
  all_goals simp
@[simp] theorem Dev.saeriAnswer_mem (d : Dev) (pkt : SaeriPkt) (st : Status) (data : List Byte) : (d.saeriAnswer pkt st data).mem = d.mem := by simp [Dev.saeriAnswer]
@[simp] theorem Dev.raise_mem (d : Dev) (n : RoundNo) (st : Status) : (d.raise n st).mem = d.mem := by rfl
@[simp] theorem Dev.failDesc_mem (d : Dev) (k : DescKey) (st : Status) : (d.failDesc k st).mem = d.mem := by unfold Dev.failDesc; split <;> simp
@[simp] theorem Dev.reply_mem (d : Dev) (a : Access) (st : Status) (data : List Byte) : (d.reply a st data).mem = d.mem := by
  unfold Dev.reply
  repeat' split
  all_goals simp
@[simp] theorem Dev.partDone_mem (d : Dev) (p : Part) (st : Status) (data : List Byte) : (d.partDone p st data).mem = d.mem := by unfold Dev.partDone; split <;> simp
@[simp] theorem Dev.isolatePort_mem (d : Dev) (n : ℕ) : (d.isolatePort n).mem = d.mem := by simp [Dev.isolatePort]
@[simp] theorem Dev.isolateRegion_mem (d : Dev) (p : ℕ) (st : ℕ) (cause : ℕ) : (d.isolateRegion p st cause).mem = d.mem := by simp [Dev.isolateRegion]
@[simp] theorem Dev.takeHeader_mem (fz : Fuses) (d : Dev) (src : LoadSource) (who : Option StreamWriter) (h : List Byte) : (Dev.takeHeader fz d src who h).mem = d.mem := by simp [Dev.takeHeader]
@[simp] theorem Dev.failLoad_mem (d : Dev) (l : Load) (result : ℕ) (cause : ℕ) : (d.failLoad l result cause).mem = d.mem := by simp [Dev.failLoad]
@[simp] theorem Dev.probe_mem (d : Dev) (k : NocPacket) (left : List (ℕ × ℕ)) (q : ℕ) : (d.probe k left q).mem = d.mem := by simp [Dev.probe]
@[simp] theorem Dev.probesAt_mem (d : Dev) (k : NocPacket) (left : List (ℕ × ℕ)) : (d.probesAt k left).mem = d.mem := by simp [Dev.probesAt]
@[simp] theorem Dev.probesTo_mem (d : Dev) (k : NocPacket) (stop : ℕ → Bool) (past : Bool) : (d.probesTo k stop past).mem = d.mem := by simp [Dev.probesTo]
@[simp] theorem Dev.probes_mem (d : Dev) (k : NocPacket) : (d.probes k).mem = d.mem := by simp [Dev.probes]
@[simp] theorem Dev.cross_mem (d : Dev) (k : NocPacket) : (d.cross k).2.mem = d.mem := by unfold Dev.cross; split <;> simp
@[simp] theorem Dev.crossAll_mem (d : Dev) (ks : List NocPacket) : (d.crossAll ks).2.mem = d.mem := by
  suffices h : ∀ acc : Bool × Dev, (ks.foldl (fun acc k => let r := acc.2.cross k; (acc.1 && r.1, r.2)) acc).2.mem = acc.2.mem from h (true, d)
  induction ks with
  | nil => exact fun _ => rfl
  | cons k ks ih => exact fun acc => (ih _).trans (by simp)
@[simp] theorem Dev.statAdd_mem (d : Dev) (key : ℕ) (write : Bool) (n : ℕ) (latency : Option ℕ) : (d.statAdd key write n latency).mem = d.mem := by rfl
@[simp] theorem Dev.seam_mem (d : Dev) (key : ℕ) (write : Bool) (die : ℕ) (n : ℕ) : (d.seam key write die n).2.mem = d.mem := by unfold Dev.seam; split <;> simp
@[simp] theorem Dev.takeFrame_mem (fz : Fuses) (d : Dev) (rec : List Byte) : (Dev.takeFrame fz d rec).mem = d.mem := by unfold Dev.takeFrame; split <;> simp
@[simp] theorem Dev.eventAll_mem (d : Dev) (kind : BitVec 2) (attempt : Nat) (round : RoundNo) (st : Status) : (d.eventAll kind attempt round st).mem = d.mem := foldl_mem (fun _ _ => by simp) _ _
@[simp] theorem Dev.endHold_mem (d : Dev) (n : RoundNo) : (d.endHold n).mem = d.mem := by simp [Dev.endHold]
@[simp] theorem Dev.releaseHeld_mem (d : Dev) : (d.releaseHeld).mem = d.mem := by simp [Dev.releaseHeld]
@[simp] theorem Dev.releaseRegion_mem (d : Dev) (p : Nat) : (d.releaseRegion p).mem = d.mem := by
  refine (Dev.releaseHeld_mem _).trans ((foldl_mem (fun _ _ => by simp) _ _).trans ?_)
  simp
@[simp] theorem Dev.redesign_mem (d : Dev) : (d.redesign).mem = d.mem := by rfl
@[simp] theorem Dev.activate_mem (d : Dev) (l : Load) : (d.activate l).mem = d.mem := by simp [Dev.activate]
@[simp] theorem Dev.takeTag_mem (fz : Fuses) (d : Dev) (tag : List Byte) : (Dev.takeTag fz d tag).mem = d.mem := by unfold Dev.takeTag; split <;> simp
@[simp] theorem feedStream_mem (fz : Fuses) (n : Nat) (q : Feed) (d : Dev) : (feedStream fz n q d).mem = d.mem := by
  induction n generalizing q d with
  | zero => simp [feedStream]
  | succ n ih =>
    unfold feedStream
    extract_lets b rest _ h d1 _ d2 _
    have h1 : d1.mem = d.mem := by simp [d1]
    have h2 : d2.mem = d.mem := by simp [d2]
    clear_value d1 d2
    repeat' split
    all_goals simp [ih, h1, h2]
@[simp] theorem Dev.sendNotice_mem (d : Dev) (p : ℕ) (type : ℕ) (node : NodeId) : (d.sendNotice p type node).mem = d.mem := by rfl
@[simp] theorem fullLoad_mem (d : Dev) : (fullLoad d).mem = d.mem := by simp [fullLoad]
@[simp] theorem rsplenFree_mem (value : ℕ) (d : Dev) : (rsplenFree value d).2.mem = d.mem := by unfold rsplenFree; split <;> simp
@[simp] theorem Dev.idleFrames_mem (d : Dev) : (d.idleFrames).mem = d.mem := by simp [Dev.idleFrames]
@[simp] theorem Dev.updSaeri_mem (d : Dev) (f : Saeri → Saeri) : (d.updSaeri f).mem = d.mem := by rfl
@[simp] theorem doneHigh_mem (d : Dev) : (doneHigh d).mem = d.mem := by simp [doneHigh]
@[simp] theorem Dev.pushHandle_mem (d : Dev) (x : Desc) : (d.pushHandle x).mem = d.mem := by unfold Dev.pushHandle; split <;> simp
@[simp] theorem Dev.saeriTake_mem (d : Dev) (k : SaeriPkt) : (d.saeriTake k).mem = d.mem := by unfold Dev.saeriTake; split <;> simp
@[simp] theorem Dev.dropLine_mem (d : Dev) (line : ℕ) : (d.dropLine line).mem = d.mem := by rfl
@[simp] theorem Dev.notifyLeave_mem (d : Dev) (up : List ℕ) : (d.notifyLeave up).mem = d.mem := by simp [Dev.notifyLeave]
@[simp] theorem Dev.fabricCycle_mem (d : Dev) : (d.fabricCycle).mem = d.mem := by simp [Dev.fabricCycle]
@[simp] theorem reckonerStopRequest_mem (n : ℕ) (d : Dev) : (reckonerStopRequest n d).mem = d.mem := by rfl
theorem Dev.loadUnit_inv {P : Dev → Prop} {d : Dev} (hd : P d) {b : List Byte} {n : Nat} {f : Dev → Dev} (hf : P (f d)) : P (d.loadUnit b n f) := by
  unfold Dev.loadUnit
  repeat' split
  · exact hf
  · exact hd
  · exact hd
@[simp] theorem Dev.loadUnit_mem {d : Dev} {b : List Byte} {n : Nat} {f : Dev → Dev} (hf : ∀ e, (f e).mem = e.mem) : (d.loadUnit b n f).mem = d.mem :=
  Dev.loadUnit_inv (P := fun e => e.mem = d.mem) rfl (hf d)
theorem Dev.when_inv {P : Dev → Prop} {d : Dev} (hd : P d) {f : Dev → Dev} (hf : P (f d)) (c : Bool) : P (d.when c f) := by
  unfold Dev.when
  split
  · exact hf
  · exact hd
@[simp] theorem Dev.when_mem {d : Dev} {c : Bool} {f : Dev → Dev} (hf : ∀ e, (f e).mem = e.mem) : (d.when c f).mem = d.mem :=
  Dev.when_inv (P := fun e => e.mem = d.mem) rfl (hf d) c
@[simp] theorem Dev.strike_mem (d : Dev) (u : UpsetAt) : (d.strike u).mem = d.mem := by simp [Dev.strike]
@[simp] theorem Dev.passStream_mem (fz : Fuses) (d : Dev) (who : StreamWriter) (b : List Byte) : (Dev.passStream fz d who b).mem = d.mem := by simp [Dev.passStream]
@[simp] theorem wakeSlotGrant_mem (c : ℕ) (sinceLastNs : ℕ) (d : Dev) : (wakeSlotGrant c sinceLastNs d).mem = d.mem := by simp [wakeSlotGrant]
@[simp] theorem capSample_mem (milliWatts averageMw : Nat) (d : Dev) : (capSample milliWatts averageMw d).mem = d.mem := by
  unfold capSample
  extract_lets
  split
  · exact foldl_mem (fun _ _ => by simp) _ _
  · rfl
@[simp] theorem ibankSelect_mem (n : ℕ) (b : Bool) (d : Dev) : (ibankSelect n b d).mem = d.mem := by rfl
@[simp] theorem coreHalted_mem (n : ℕ) (d : Dev) : (coreHalted n d).mem = d.mem := by simp [coreHalted]
@[simp] theorem Dev.putTransfer_mem (d : Dev) (t : Transfer) : (d.putTransfer t).mem = d.mem := by rfl
@[simp] theorem Dev.pcieReset_mem (d : Dev) : (d.pcieReset).mem = d.mem := by rfl
@[simp] theorem Dev.tallyFrame_mem (d : Dev) (n : RoundNo) (final : Bool) (st : Status) : (d.tallyFrame n final st).mem = d.mem := by rfl
@[simp] theorem Dev.updBank_mem (d : Dev) (n : ℕ) (f : Bank → Bank) : (d.updBank n f).mem = d.mem := by rfl
@[simp] theorem Dev.withoutLatent_mem (d : Dev) (ws : List ℕ) : (d.withoutLatent ws).mem = d.mem := by rfl
@[simp] theorem coreRelease_mem (n : ℕ) (d : Dev) : (coreRelease n d).mem = d.mem := by rfl
@[simp] theorem Dev.freeRows_mem (d : Dev) (n : RoundNo) : (d.freeRows n).mem = d.mem := by rfl
@[simp] theorem Dev.unhold_mem (d : Dev) (h : Hold) : (d.unhold h).mem = d.mem := by rfl
@[simp] theorem reckonerStopped_mem (n : ℕ) (d : Dev) : (reckonerStopped n d).mem = d.mem := by simp [reckonerStopped]
@[simp] theorem Dev.updHbm_mem (d : Dev) (f : Hbm → Hbm) : (d.updHbm f).mem = d.mem := by rfl
@[simp] theorem Dev.requestWake_mem (d : Dev) (c : ℕ) : (d.requestWake c).mem = d.mem := by simp [Dev.requestWake]
@[simp] theorem probeArm_mem (d : Dev) : (probeArm d).mem = d.mem := by rfl
@[simp] theorem Dev.refetchRun_mem (d : Dev) (n : RoundNo) (u : Run) : (d.refetchRun n u).mem = d.mem := by rfl
@[simp] theorem Dev.countResponse_mem (d : Dev) (k : NocPacket) (latency : ℕ) : (d.countResponse k latency).mem = d.mem := by
  simp only [Dev.countResponse]
  repeat' split
  all_goals simp
@[simp] theorem Dev.lockMap_mem (d : Dev) : (d.lockMap).mem = d.mem := by rfl
@[simp] theorem nocLeft_mem (d : Dev) (k : NocPacket) : (nocLeft d k).mem = d.mem := by rfl
@[simp] theorem Dev.measure_mem (d : Dev) (c : ℕ) (obs : Margin) (forced : Bool) : (d.measure c obs forced).mem = d.mem := by rfl
@[simp] theorem Dev.restartRound_mem (d : Dev) (r : Round) : (d.restartRound r).mem = d.mem := by simp [Dev.restartRound]
theorem Dev.withDesc_inv {P : Dev → Prop} {d : Dev} (hd : P d) {k : DescKey} {f : Desc → Dev} (hf : ∀ x, P (f x)) : P (d.withDesc k f) := by
  unfold Dev.withDesc
  split
  · exact hf _
  · exact hd
@[simp] theorem Dev.withDesc_mem {d : Dev} {k : DescKey} {f : Desc → Dev} (hf : ∀ x, (f x).mem = d.mem) : (d.withDesc k f).mem = d.mem :=
  Dev.withDesc_inv (P := fun e => e.mem = d.mem) rfl hf
@[simp] theorem reckonerStart_mem (n : ℕ) (d : Dev) : (reckonerStart n d).mem = d.mem := by simp [reckonerStart]
theorem Dev.onJob_inv {P : Dev → Prop} {d : Dev} (hd : P d) {j : Option MatJob} {f : MatJob → Desc → Round → Dev} (hf : ∀ j x r, P (f j x r)) :
    P (d.onJob j f) := by
  unfold Dev.onJob
  split
  · exact hf _ _ _
  · exact hd
@[simp] theorem Dev.onJob_mem {d : Dev} {j : Option MatJob} {f : MatJob → Desc → Round → Dev} (hf : ∀ j x r, (f j x r).mem = d.mem) :
    (d.onJob j f).mem = d.mem := Dev.onJob_inv (P := fun e => e.mem = d.mem) rfl hf
@[simp] theorem Dev.cacheFill_mem (d : Dev) (c : ℕ) (line : ℕ) : (d.cacheFill c line).mem = d.mem := by rfl
@[simp] theorem Dev.bitSlip_mem (d : Dev) (l : ℕ) (k : ℕ) : (d.bitSlip l k).mem = d.mem := by rfl
@[simp] theorem Dev.nocDeliver_mem (d : Dev) (q : NocPacket) (k : NocPacket) : (d.nocDeliver q k).mem = d.mem := by rfl
@[simp] theorem rkAhi_mem (n : ℕ) (r : RkArgs) (d : Dev) : (rkAhi n r d).mem = d.mem := by rfl
@[simp] theorem Dev.countVote_mem (d : Dev) (ready : Bool) (stop : Bool) : (d.countVote ready stop).mem = d.mem := by simp [Dev.countVote]
@[simp] theorem Dev.placeDesc_mem (d : Dev) (x : Desc) : (d.placeDesc x).mem = d.mem := by rfl
@[simp] theorem Dev.putRow_mem (d : Dev) (n : ℕ) (row : ℕ) (w : BeamRow) : (d.putRow n row w).mem = d.mem := by rfl
@[simp] theorem rkMta_mem (n : ℕ) (r : RkArgs) (d : Dev) : (rkMta n r d).mem = d.mem := by rfl
@[simp] theorem rkMac_mem (n : ℕ) (sign : ℤ) (r : RkArgs) (d : Dev) : (rkMac n sign r d).mem = d.mem := by rfl
@[simp] theorem Dev.clearRound_mem (d : Dev) (n : RoundNo) (st : Status) : (d.clearRound n st).mem = d.mem := by rfl
@[simp] theorem rkAlo_mem (n : ℕ) (r : RkArgs) (d : Dev) : (rkAlo n r d).mem = d.mem := by rfl
theorem Dev.nocAsk_inv {P : Dev → Prop} {d : Dev} (hd : P d) {k : NocPacket} {f : Dev → Dev} (hf : ∀ e, e.mem = d.mem → P (f e)) : P (d.nocAsk k f) := by
  unfold Dev.nocAsk
  split
  · exact hd
  · exact hf _ rfl
@[simp] theorem Dev.nocAsk_mem {d : Dev} {k : NocPacket} {f : Dev → Dev} (hf : ∀ e, (f e).mem = e.mem) : (d.nocAsk k f).mem = d.mem :=
  Dev.nocAsk_inv (P := fun e => e.mem = d.mem) rfl fun e he => (hf e).trans he
@[simp] theorem rkMts_mem (n : ℕ) (r : RkArgs) (d : Dev) : (rkMts n r d).mem = d.mem := by rfl
theorem Dev.goOn_inv {P : Dev → Prop} {d : Dev} (hd : P d) {k : DescKey} {f : Desc → Dev → Dev} (hf : ∀ x, P (f x d)) : P (d.goOn k f) := by
  unfold Dev.goOn
  split
  · exact Dev.withDesc_inv hd hf
  · exact hd
@[simp] theorem Dev.goOn_mem {d : Dev} {k : DescKey} {f : Desc → Dev → Dev} (hf : ∀ x e, (f x e).mem = e.mem) : (d.goOn k f).mem = d.mem :=
  Dev.goOn_inv (P := fun e => e.mem = d.mem) rfl fun x => hf x d
@[simp] theorem Dev.countSat_mem (d : Dev) (k : DescKey) (n : ℕ) : (d.countSat k n).mem = d.mem := by rfl
@[simp] theorem linkRemoval_mem (bundle : ℕ) (link : ℕ) (d : Dev) : (linkRemoval bundle link d).mem = d.mem := by simp [linkRemoval]
@[simp] theorem rkRnd_mem (n : ℕ) (r : RkArgs) (d : Dev) : (rkRnd n r d).mem = d.mem := by rfl
@[simp] theorem refreshManagement_mem (stack : ℕ) (d : Dev) : (refreshManagement stack d).mem = d.mem := by rfl
@[simp] theorem Dev.laneTest_mem (d : Dev) (l : ℕ) (on : Bool) : (d.laneTest l on).mem = d.mem := by rfl
@[simp] theorem Dev.enterState_mem (d : Dev) (c st : Nat) : (d.enterState c st).mem = d.mem := by
  unfold Dev.enterState
  extract_lets
  split
  · exact foldl_mem (fun _ _ => by simp) _ _
  · rfl
@[simp] theorem forcedMeasurement_mem (c : ℕ) (sinceHours : ℕ) (obs : Margin) (d : Dev) : (forcedMeasurement c sinceHours obs d).mem = d.mem := by simp [forcedMeasurement]
@[simp] theorem Dev.withLoad_mem {d : Dev} {n : Nat} {f : MatJob → Desc → Round → Dev} (hf : ∀ j x r, (f j x r).mem = d.mem) :
    (d.withLoad n f).mem = d.mem := Dev.onJob_mem hf
@[simp] theorem doorbell_mem (s : ℕ) (tail : BitVec 16) (d : Dev) : (doorbell s tail d).mem = d.mem := by rfl
@[simp] theorem laneTestError_mem (l : ℕ) (d : Dev) : (laneTestError l d).mem = d.mem := by rfl
@[simp] theorem hbmRefresh_mem (pc : ℕ) (bank : ℕ) (d : Dev) : (hbmRefresh pc bank d).mem = d.mem := by simp [hbmRefresh]
@[simp] theorem roundRestart_mem (n : RoundNo) (d : Dev) : (roundRestart n d).mem = d.mem := by simp [roundRestart]
@[simp] theorem beamChecked_mem (d : Dev) (u : Upset) : (beamChecked d u).mem = d.mem := by simp [beamChecked]
@[simp] theorem Dev.loseLock_mem (d : Dev) (l : ℕ) (cdr : Bool) : (d.loseLock l cdr).mem = d.mem := by rfl
@[simp] theorem rkThen_mem (d : Dev) (c : CoreId) (f : Bank → Bank) : (rkThen d c f).mem = d.mem := by rfl
@[simp] theorem slateChecked_mem (d : Dev) (u : Upset) : (slateChecked d u).mem = d.mem := by simp [slateChecked]
@[simp] theorem rkAlu_mem (n : ℕ) (f : RkArgs → Word) (r : RkArgs) (d : Dev) : (rkAlu n f r d).mem = d.mem := by rfl
@[simp] theorem Dev.lockCdr_mem (d : Dev) (p : ℕ) (lanes : Byte) : (d.lockCdr p lanes).mem = d.mem := by simp [Dev.lockCdr]
@[simp] theorem Dev.dependOn_mem (d : Dev) (n : RoundNo) (core : ℕ) : (d.dependOn n core).mem = d.mem := by rfl
@[simp] theorem Dev.closeRun_mem (d : Dev) (n : RoundNo) (s : ℕ) (slot : ℕ) : (d.closeRun n s slot).mem = d.mem := by rfl
@[simp] theorem Dev.mapLanes_mem (d : Dev) (p : Nat) (f : Lane → Lane) : (d.mapLanes p f).mem = d.mem := foldl_mem (fun _ _ => by simp) _ _
@[simp] theorem probeDisarm_mem (d : Dev) : (probeDisarm d).mem = d.mem := by rfl
@[simp] theorem flagSet_mem (f : ℕ) (v : Word) (d : Dev) : (flagSet f v d).mem = d.mem := by rfl
@[simp] theorem Dev.dropRound_mem (d : Dev) (r : Round) : (d.dropRound r).mem = d.mem := foldl_mem (fun _ _ => by simp) _ _
@[simp] theorem setpointStep_mem (acked : Bool) (d : Dev) : (setpointStep acked d).mem = d.mem := by
  unfold setpointStep
  extract_lets
  repeat' split
  case isTrue.isTrue => exact foldl_mem (fun _ _ => by simp) _ _
  all_goals rfl
@[simp] theorem Dev.withJob_mem {d : Dev} {n : Nat} {f : MatJob → Desc → Round → Dev} (hf : ∀ j x r, (f j x r).mem = d.mem) :
    (d.withJob n f).mem = d.mem := Dev.onJob_mem hf
@[simp] theorem Dev.fabAnswer_mem (d : Dev) (core : ℕ) (op : BitVec 4) (cmd : FabCmd) (st : Status) (h : BitVec 3) (result : BitVec 52) : (d.fabAnswer core op cmd st h result).mem = d.mem := by rfl
@[simp] theorem allowanceStep_mem (c : ℕ) (celsius : ℤ) (d : Dev) : (allowanceStep c celsius d).mem = d.mem := by rfl
@[simp] theorem Dev.withFrame_mem {d : Dev} {p : Nat} {raw : RawFrame} {type : BitVec 4} {f : LinkFrame → Dev → Dev}
    (hf : ∀ g e, (f g e).mem = e.mem) : (d.withFrame p raw type f).mem = d.mem := by
  unfold Dev.withFrame
  dsimp only
  repeat' split
  · rfl
  · simp
  · simp [hf]
  · rfl
@[simp] theorem rkNext_mem (d : Dev) (c : CoreId) : (rkNext d c).mem = d.mem := by rfl
theorem Dev.fabFront_inv {Q : List Host.Cell → Prop} {d : Dev} (hd : Q d.mem) {core beats : Nat} {op : BitVec 4} {cmd : FabCmd} {used : Bool}
    {f : Dev → Dev} (hf : ∀ e, e.mem = d.mem → Q (f e).mem) : Q (d.fabFront core op cmd beats used f).mem := by
  unfold Dev.fabFront
  repeat' split
  · exact hd
  · simpa using hd
  · simpa using hd
  · exact hf _ (by simp)
  · exact hf _ rfl
@[simp] theorem Dev.fabFront_mem {d : Dev} {core beats : Nat} {op : BitVec 4} {cmd : FabCmd} {used : Bool} {f : Dev → Dev}
    (hf : ∀ e, (f e).mem = e.mem) : (d.fabFront core op cmd beats used f).mem = d.mem :=
  Dev.fabFront_inv (Q := fun m => m = d.mem) rfl fun e he => (hf e).trans he
@[simp] theorem slateThen_mem (d : Dev) (c : CoreId) (j : SlateJob) (dst : ℕ) (writes : List (ℕ × Word)) (sat : ℕ) (lane : ℕ) : (slateThen d c j dst writes sat lane).mem = d.mem := by rfl
@[simp] theorem Dev.beamHold_mem (d : Dev) (n : ℕ) : (d.beamHold n).mem = d.mem := by rfl
@[simp] theorem Dev.holdRound_mem (d : Dev) (n : RoundNo) (h : Hold) : (d.holdRound n h).mem = d.mem := by rfl
@[simp] theorem Dev.choose_mem (d : Dev) (c : ℕ) : (d.choose c).mem = d.mem := by rfl
@[simp] theorem patchEvent_mem (n : ℕ) (d : Dev) : (patchEvent n d).mem = d.mem := by
  simp only [patchEvent]
  repeat' split
  all_goals simp
@[simp] theorem Dev.portOn_mem (d : Dev) (p : Nat) : (d.portOn p).mem = d.mem := by
  unfold Dev.portOn
  split
  · rfl
  · exact foldl_mem (fun _ _ => by simp) _ _
@[simp] theorem flagAdd_mem (f : ℕ) (v : Word) (d : Dev) : (flagAdd f v d).mem = d.mem := by rfl
@[simp] theorem Dev.freshSlates_mem (d : Dev) (n : ℕ) (j : SlateJob) : (d.freshSlates n j).mem = d.mem := by rfl
@[simp] theorem Dev.setStage_mem (d : Dev) (k : DescKey) (st : Stage) : (d.setStage k st).mem = d.mem := by rfl
@[simp] theorem Dev.hbmEvent_mem (d : Dev) (word : ℕ) (source : ℕ) : (d.hbmEvent word source).mem = d.mem := by rfl
@[simp] theorem Dev.noteMark_mem (d : Dev) (l : ℕ) (m : ℕ × ℕ × ℕ × ℕ × Bool × Bool) : (d.noteMark l m).mem = d.mem := by rfl
@[simp] theorem canErrorFrame_mem (d : Dev) : (canErrorFrame d).mem = d.mem := Dev.when_mem fun _ => rfl
@[simp] theorem Dev.enablePort_mem (d : Dev) (p : ℕ) : (d.enablePort p).mem = d.mem := by rfl
@[simp] theorem bankSwap_mem (n : ℕ) (d : Dev) : (bankSwap n d).mem = d.mem := by simp [bankSwap]
@[simp] theorem handleTake_mem (k : DescKey) (d : Dev) : (handleTake k d).mem = d.mem := by
  refine Dev.withDesc_mem fun x => ?_
  extract_lets
  repeat' split
  all_goals simp
theorem Dev.saeriArrive_inv {Q : List Host.Cell → Prop} {d : Dev} (hd : Q d.mem) {k : SaeriPkt} {op : BitVec 6} {f : Dev → Dev}
    (hf : ∀ e, e.mem = d.mem → Q (f e).mem) : Q (d.saeriArrive k op f).mem := by
  unfold Dev.saeriArrive
  split
  · exact hd
  · exact hf _ (by simp)
@[simp] theorem Dev.saeriArrive_mem {d : Dev} {k : SaeriPkt} {op : BitVec 6} {f : Dev → Dev} (hf : ∀ e, (f e).mem = e.mem) :
    (d.saeriArrive k op f).mem = d.mem :=
  Dev.saeriArrive_inv (Q := fun m => m = d.mem) rfl fun e he => (hf e).trans he
@[simp] theorem Dev.raiseHeld_mem (d : Dev) (n : RoundNo) (st : Status) (h : Hold) (regions : List ℕ) : (d.raiseHeld n st h regions).mem = d.mem := by rfl
@[simp] theorem Dev.putStep_mem (d : Dev) (n : ℕ) (s : SlateJob) (w : StepW) (o : StepOut) : (d.putStep n s w o).mem = d.mem := by rfl
@[simp] theorem streamEnable_mem (s : ℕ) (d : Dev) : (streamEnable s d).mem = d.mem := by simp [streamEnable]
@[simp] theorem tally1Recovered_mem (cycles : ℕ) (d : Dev) : (tally1Recovered cycles d).mem = d.mem := by simp [tally1Recovered]
@[simp] theorem clearDone_mem (fz : Fuses) (d : Dev) : (clearDone fz d).mem = d.mem := by
  unfold clearDone
  repeat' split
  all_goals simp
@[simp] theorem Dev.correct_mem (d : Dev) (ws : List ℕ) : (d.correct ws).mem = d.mem := by simp [Dev.correct]
@[simp] theorem replan_mem (d : Dev) : (replan d).mem = d.mem := by
  unfold replan
  extract_lets cs top vb trimOf limitOf trims d1 _ w d2 d3
  have h1 : d1.mem = d.mem := foldl_mem (fun _ _ => by simp) _ _
  have h2 : d2.mem = d.mem := h1
  have h3 : d3.mem = d.mem := (foldl_mem (f := fun (e : Dev) (t : Nat × Int) => e.updCluster t.1 fun k => { k with trim := t.2 }) (fun _ _ => by simp) _ _).trans h2
  repeat' split
  · rfl
  · exact h2
  · exact h3
@[simp] theorem Dev.hbmRecord_mem (d : Dev) (a : ℕ) (st : Status) (data : List Byte) : (d.hbmRecord a st data).mem = d.mem := by rfl
@[simp] theorem Dev.updSlateJob_mem (d : Dev) (n : ℕ) (f : SlateJob → SlateJob) : (d.updSlateJob n f).mem = d.mem := by rfl
@[simp] theorem stateEntry_mem (c : ℕ) (idleNs : ℕ) (d : Dev) : (stateEntry c idleNs d).mem = d.mem := by simp [stateEntry]
@[simp] theorem Dev.fabHold_mem (d : Dev) (core : ℕ) (op : BitVec 4) (cmd : FabCmd) : (d.fabHold core op cmd).mem = d.mem := by rfl
@[simp] theorem Dev.netCount_mem (d : Dev) (a : Access) : (d.netCount a).mem = d.mem := by
  simp only [Dev.netCount]
  repeat' split
  all_goals simp
@[simp] theorem retrainPass_mem (stack : ℕ) (failed : List ℕ) (d : Dev) : (retrainPass stack failed d).mem = d.mem := by simp [retrainPass]
@[simp] theorem rkNorm_mem (n : ℕ) (r : RkArgs) (d : Dev) : (rkNorm n r d).mem = d.mem := by rfl
@[simp] theorem rkTouches_mem (d : Dev) (c : CoreId) (size : ℕ) : (rkTouches d c size).mem = d.mem := by simp [rkTouches]
@[simp] theorem restartVote_mem (n : RoundNo) (group : ℕ) (vote : Bool) (stop : Bool) (d : Dev) : (restartVote n group vote stop d).mem = d.mem := by simp [restartVote]
@[simp] theorem weightsChecked_mem (d : Dev) (u : Upset) : (weightsChecked d u).mem = d.mem := by simp [weightsChecked]
@[simp] theorem scrubPass_mem (die : ℕ) (d : Dev) : (scrubPass die d).mem = d.mem := by simp [scrubPass]
@[simp] theorem rkAccumulates_mem (d : Dev) (c : CoreId) (v : ℤ) : (rkAccumulates d c v).mem = d.mem := by rfl
@[simp] theorem Dev.cacheStrike_mem (d : Dev) (c : ℕ) (u : UpsetAt) : (d.cacheStrike c u).mem = d.mem := by simp [Dev.cacheStrike]
@[simp] theorem rkMfs_mem (n : ℕ) (r : RkArgs) (d : Dev) : (rkMfs n r d).mem = d.mem := by rfl
@[simp] theorem fillReceive_mem (l : ℕ) (line : LineBlock) (depth : ℕ) (d : Dev) : (fillReceive l line depth d).mem = d.mem := by simp [fillReceive]
@[simp] theorem cacheRemoval_mem (cluster : ℕ) (a : ℕ) (d : Dev) : (cacheRemoval cluster a d).mem = d.mem := by rfl
@[simp] theorem Dev.strikes_mem (d : Dev) (us : List UpsetAt) : (d.strikes us).mem = d.mem := by simp [Dev.strikes]
@[simp] theorem Dev.withRelease_mem {d : Dev} {n : Nat} {f : MatJob → Desc → Round → Dev} (hf : ∀ j x r, (f j x r).mem = d.mem) :
    (d.withRelease n f).mem = d.mem := Dev.onJob_mem hf
@[simp] theorem Dev.tick_mem (d : Dev) (t : Tick) : (d.tick t).mem = d.mem := by simp [Dev.tick]
@[simp] theorem streamDisable_mem (s : ℕ) (d : Dev) : (streamDisable s d).mem = d.mem := by rfl
@[simp] theorem rkWrites_mem (d : Dev) (c : CoreId) (v : Word) : (rkWrites d c v).mem = d.mem := by rfl
@[simp] theorem Dev.portStep_mem (d : Dev) (p : ℕ) (step : ℕ) : (d.portStep p step).mem = d.mem := by simp [Dev.portStep]
@[simp] theorem marginMeasurement_mem (c : ℕ) (idleNs : ℕ) (obs : Margin) (d : Dev) : (marginMeasurement c idleNs obs d).mem = d.mem := by simp [marginMeasurement]
@[simp] theorem stateRecompute_mem (d : Dev) : (stateRecompute d).mem = d.mem := by simp [stateRecompute]
@[simp] theorem Dev.cacheTouch_mem (d : Dev) (c : ℕ) (ws : List ℕ) (line : ℕ) : (d.cacheTouch c ws line).mem = d.mem := by simp [Dev.cacheTouch]
@[simp] theorem hbmTempRead_mem (stack : ℕ) (celsius : Byte) (d : Dev) : (hbmTempRead stack celsius d).mem = d.mem := by rfl
@[simp] theorem tally0Recovered_mem (cycles : ℕ) (d : Dev) : (tally0Recovered cycles d).mem = d.mem := by simp [tally0Recovered]
@[simp] theorem Dev.disablePort_mem (d : Dev) (p : ℕ) : (d.disablePort p).mem = d.mem := by rfl
@[simp] theorem Dev.updJob_mem (d : Dev) (n : ℕ) (k : DescKey) (f : MatJob → MatJob) : (d.updJob n k f).mem = d.mem := by rfl
@[simp] theorem Dev.portTaken_mem (d : Dev) (n : ℕ) : (d.portTaken n).mem = d.mem := by simp [Dev.portTaken]
@[simp] theorem Dev.learnN_mem (d : Dev) (n : Nat) : (d.learnN n).mem = d.mem := by
  refine foldl_mem (fun d j => ?_) _ _
  repeat' split
  all_goals simp
@[simp] theorem Dev.executed_mem (d : Dev) (k : DescKey) (st : Option Status) : (d.executed k st).mem = d.mem := by simp [Dev.executed]
@[simp] theorem Dev.number_mem (d : Dev) (x : Desc) : (d.number x).mem = d.mem := by rfl
@[simp] theorem Dev.checked_mem (d : Dev) (r : Round) (k : DescKey) : (d.checked r k).mem = d.mem := by
  refine Dev.withDesc_mem fun x => ?_
  split <;> simp
@[simp] theorem descriptorIssue_mem (s : ℕ) (d : Dev) : (descriptorIssue s d).mem = d.mem := by unfold descriptorIssue; split <;> simp
@[simp] theorem Dev.linkUp_mem (d : Dev) (p : ℕ) (node : NodeId) (port : ℕ) : (d.linkUp p node port).mem = d.mem := by simp [Dev.linkUp]
@[simp] theorem Dev.blockWrite_mem (d : Dev) (s : ℕ) (w : ℕ) (v : ℕ) (ext : Bool) : (d.blockWrite s w v ext).2.mem = d.mem := by
  unfold Dev.blockWrite
  repeat' split
  all_goals simp
@[simp] theorem Dev.slateUpset_mem (d : Dev) (k : DescKey) (op : ℕ) (u : Upset) : (d.slateUpset k op u).mem = d.mem := by simp [Dev.slateUpset]
@[simp] theorem Dev.blockFinal_mem (d : Dev) (n : ℕ) (j : MatJob) : (d.blockFinal n j).mem = d.mem := by simp [Dev.blockFinal]
@[simp] theorem tally0Stuck_mem (cycles : ℕ) (d : Dev) : (tally0Stuck cycles d).mem = d.mem := by simp [tally0Stuck]
@[simp] theorem rkGoes_mem (d : Dev) (c : CoreId) (pc : Word) : (rkGoes d c pc).mem = d.mem := by rfl
@[simp] theorem Dev.settleWaiting_mem (d : Dev) (n : Nat) : (d.settleWaiting n).mem = d.mem := by
  refine foldl_mem (fun d j => ?_) _ _
  repeat' split
  all_goals simp
@[simp] theorem fabTake_mem (core : CoreId) (cmd : FabCmd) (d : Dev) : (fabTake core cmd d).mem = d.mem := by
  refine Dev.fabFront_mem fun e => ?_
  repeat' split
  all_goals simp
@[simp] theorem patchRelease_mem (n : ℕ) (d : Dev) : (patchRelease n d).mem = d.mem := by unfold patchRelease; split <;> simp
@[simp] theorem nopRun_mem (k : DescKey) (d : Dev) : (nopRun k d).mem = d.mem := by simp [nopRun]
@[simp] theorem Dev.nocFail_mem (d : Dev) (k : NocPacket) : (d.nocFail k).mem = d.mem := by
  unfold Dev.nocFail
  repeat' split
  all_goals simp
@[simp] theorem Dev.lostNotice_mem (d : Dev) (op : BitVec 6) (a : ℕ) : (d.lostNotice op a).mem = d.mem := by
  simp only [Dev.lostNotice]
  repeat' split
  all_goals simp
@[simp] theorem cdrLock_mem (p : ℕ) (lanes : Byte) (d : Dev) : (cdrLock p lanes d).mem = d.mem := by simp [cdrLock]
@[simp] theorem Dev.fabBadOp_mem (d : Dev) (core : ℕ) (op : BitVec 4) (cmd : FabCmd) : (d.fabBadOp core op cmd).mem = d.mem := by simp [Dev.fabBadOp]
@[simp] theorem slateEach_mem (d : Dev) (c : CoreId) (j : SlateJob) (x : Desc) (ps : List ℕ) (f : Word → Word → Word → Word × Bool) : (slateEach d c j x ps f).mem = d.mem := by rfl
@[simp] theorem patrolRead_mem (a : ℕ) (first : Upset) (second : Upset) (d : Dev) : (patrolRead a first second d).mem = d.mem := by simp [patrolRead]
@[simp] theorem Dev.rkFault_mem (d : Dev) (n : ℕ) (cause : Byte) : (d.rkFault n cause).mem = d.mem := by simp [Dev.rkFault]
@[simp] theorem Dev.takeInRun_mem (d : Dev) (r : Round) (s : ℕ) (slot : ℕ) (again : Bool) (x : Desc) : (d.takeInRun r s slot again x).mem = d.mem := by simp [Dev.takeInRun]
@[simp] theorem Dev.rkFetch_mem (d : Dev) (n : ℕ) : (d.rkFetch n).mem = d.mem := by simp [Dev.rkFetch]
@[simp] theorem rkImage_mem {n size : Nat} {r : RkArgs} {d : Dev} {f : Desc → Nat → Dev} (hf : ∀ x a, (f x a).mem = d.mem) :
    (rkImage n size r d f).mem = d.mem := by
  unfold rkImage
  dsimp only
  repeat' split
  · simp
  · simp
  · exact Dev.withDesc_mem fun x => hf x _
  · rfl
@[simp] theorem Dev.rkGuardError_mem (d : Dev) (n : ℕ) : (d.rkGuardError n).mem = d.mem := by
  simp only [Dev.rkGuardError]
  repeat' split
  all_goals simp
@[simp] theorem Dev.settleArray_mem (d : Dev) (n : ℕ) : (d.settleArray n).mem = d.mem := by simp [Dev.settleArray]
@[simp] theorem Dev.putJob_mem (d : Dev) (n : ℕ) (j : MatJob) : (d.putJob n j).mem = d.mem := by rfl
@[simp] theorem cacheLineFill_mem (cluster : ℕ) (a : ℕ) (u : Upset) (d : Dev) : (cacheLineFill cluster a u d).mem = d.mem := by simp [cacheLineFill]
@[simp] theorem peerResume_mem (n : RoundNo) (d : Dev) : (peerResume n d).mem = d.mem := by simp [peerResume]
@[simp] theorem Dev.fetchFail_mem (d : Dev) (s : ℕ) (run : Option RoundNo) (again : Bool) (st : Status) : (d.fetchFail s run again st).mem = d.mem := by unfold Dev.fetchFail; split <;> simp
@[simp] theorem Dev.readHbm_mem (d : Dev) (ws : List ℕ) : (d.readHbm ws).2.mem = d.mem := by simp [Dev.readHbm]
@[simp] theorem fabRelease_mem (core : CoreId) (cmd : FabCmd) (d : Dev) : (fabRelease core cmd d).mem = d.mem := by simp [fabRelease]
@[simp] theorem Dev.overflowReport_mem (d : Dev) (n : ℕ) (j : MatJob) (x : Desc) (blk : ℕ) : (d.overflowReport n j x blk).mem = d.mem := by simp [Dev.overflowReport]
@[simp] theorem Dev.saeriNotice_mem (d : Dev) (node : NodeId) (op : BitVec 6) (addr : ℕ) (data : List Byte) : (d.saeriNotice node op addr data).mem = d.mem := by simp [Dev.saeriNotice]
@[simp] theorem Dev.weightUpset_mem (d : Dev) (k : DescKey) (u : Upset) : (d.weightUpset k u).mem = d.mem := by simp [Dev.weightUpset]
@[simp] theorem quiescenceNotice_mem (k : SaeriPkt) (d : Dev) : (quiescenceNotice k d).mem = d.mem := by simp [quiescenceNotice]
@[simp] theorem signalDetect_mem (p : Nat) (lanes : Byte) (energyNs : Nat) (d : Dev) : (signalDetect p lanes energyNs d).mem = d.mem := by
  unfold signalDetect
  extract_lets d1
  have h1 : d1.mem = d.mem := foldl_mem (fun _ _ => by simp) _ _
  repeat' split
  all_goals simp [h1]
theorem Dev.rkIssue_inv {Q : List Host.Cell → Prop} {d : Dev} (hd : Q d.mem) {n : Nat} {op : Option RkOp} {f : RkArgs → Dev → Dev}
    (hf : ∀ a e, e.mem = d.mem → Q (f a e).mem) : Q (d.rkIssue n op f).mem := by
  unfold Dev.rkIssue
  dsimp only
  repeat' split
  · exact hd
  · simpa using hd
  · simpa using hd
  · exact hf _ _ (by simp)
  · exact hd
@[simp] theorem Dev.rkIssue_mem {d : Dev} {n : Nat} {op : Option RkOp} {f : RkArgs → Dev → Dev} (hf : ∀ a e, (f a e).mem = e.mem) :
    (d.rkIssue n op f).mem = d.mem :=
  Dev.rkIssue_inv (Q := fun m => m = d.mem) rfl fun a e he => (hf a e).trans he
@[simp] theorem roundTooLong_mem (n : RoundNo) (us : ℕ) (d : Dev) : (roundTooLong n us d).mem = d.mem := by simp [roundTooLong]
@[simp] theorem Dev.noteReport_mem (d : Dev) (j : MatJob) (need : Bool) : (d.noteReport j need).mem = d.mem := by
  refine Dev.withDesc_mem fun x => Dev.withRound_mem fun r => foldl_mem (fun d m => ?_) _ _
  split <;> simp
@[simp] theorem rkImageLoad_mem (n : ℕ) (size : ℕ) (r : RkArgs) (d : Dev) : (rkImageLoad n size r d).mem = d.mem := by simp [rkImageLoad]
@[simp] theorem blockLock_mem (l : ℕ) (validHeaders : ℕ) (d : Dev) : (blockLock l validHeaders d).mem = d.mem := by simp [blockLock]
@[simp] theorem rkLoads_mem (d : Dev) (c : CoreId) (size : ℕ) (v : Word) : (rkLoads d c size v).mem = d.mem := by simp [rkLoads]
theorem Dev.begin_inv {Q : List Host.Cell → Prop} {d : Dev} (hd : Q d.mem) {k : DescKey} {op : Nat} {f : Desc → Round → Dev → Dev}
    (hf : ∀ x r e, e.mem = d.mem → Q (f x r e).mem) : Q (d.begin k op f).mem := by
  unfold Dev.begin
  refine Dev.withDesc_inv (P := fun e => Q e.mem) hd fun x => Dev.withRound_inv (P := fun e => Q e.mem) hd fun r => ?_
  dsimp only
  repeat' split
  · exact hd
  · simpa using hd
  · exact hf _ _ _ (by simp)
@[simp] theorem Dev.begin_mem {d : Dev} {k : DescKey} {op : Nat} {f : Desc → Round → Dev → Dev} (hf : ∀ x r e, (f x r e).mem = e.mem) :
    (d.begin k op f).mem = d.mem :=
  Dev.begin_inv (Q := fun m => m = d.mem) rfl fun x r e he => (hf x r e).trans he
@[simp] theorem Dev.takeOut_mem (d : Dev) (x : Desc) : (d.takeOut x).mem = d.mem := by
  unfold Dev.takeOut
  repeat' split
  all_goals simp
@[simp] theorem carrySend_mem (n : ℕ) (d : Dev) : (carrySend n d).mem = d.mem := by
  simp only [carrySend]
  repeat' split
  all_goals simp
@[simp] theorem deadlock_mem (n : RoundNo) (cycles : Nat) (d : Dev) : (deadlock n cycles d).mem = d.mem := by
  refine Dev.withRound_mem fun r => ?_
  repeat' split
  all_goals simp
@[simp] theorem Dev.sendHeld_mem (d : Dev) : (d.sendHeld).mem = d.mem := by simp [Dev.sendHeld]
@[simp] theorem hostAbort_mem (n : RoundNo) (d : Dev) : (hostAbort n d).mem = d.mem := by rfl
@[simp] theorem Dev.truncate_mem (d : Dev) : (d.truncate).mem = d.mem := by unfold Dev.truncate; split <;> simp
@[simp] theorem Dev.readMem_mem (d : Dev) (a : ℕ) (n : ℕ) : (d.readMem a n).2.2.mem = d.mem := by
  simp only [Dev.readMem]
  repeat' split
  all_goals simp
@[simp] theorem repeatPassSend_mem (n : ℕ) (d : Dev) : (repeatPassSend n d).mem = d.mem := by simp [repeatPassSend]
@[simp] theorem Dev.failInputs_mem (d : Dev) (rs : List RoundNo) : (d.failInputs rs).mem = d.mem := by simp [Dev.failInputs]
@[simp] theorem rkWait_mem (n : ℕ) (_r : RkArgs) (d : Dev) : (rkWait n _r d).mem = d.mem := by simp [rkWait]
@[simp] theorem Dev.endFeed_mem (d : Dev) (who : StreamWriter) : (d.endFeed who).mem = d.mem := by simp [Dev.endFeed]
theorem Dev.fabWord_inv {Q : List Host.Cell → Prop} {d : Dev} (hd : Q d.mem) {core : Nat} {row : BitVec 4} {w : FabWord} {f : FabCmd → Dev → Dev}
    (hf : ∀ cmd, Q (f cmd d).mem) : Q (d.fabWord core row w f).mem := by
  unfold Dev.fabWord
  dsimp only
  repeat' split
  · exact hf _
  · simpa using hd
  · exact hd
@[simp] theorem Dev.fabWord_mem {d : Dev} {core : Nat} {row : BitVec 4} {w : FabWord} {f : FabCmd → Dev → Dev} (hf : ∀ cmd e, (f cmd e).mem = e.mem) :
    (d.fabWord core row w f).mem = d.mem := Dev.fabWord_inv (Q := fun m => m = d.mem) rfl fun cmd => hf cmd d
@[simp] theorem Dev.beamUpset_mem (d : Dev) (k : DescKey) (u : Upset) : (d.beamUpset k u).mem = d.mem := by simp [Dev.beamUpset]
theorem Dev.nocArrive_inv {Q : List Host.Cell → Prop} {d : Dev} (hd : Q d.mem) {k : NocPacket} {op : BitVec 6} {f : Dev → Dev}
    (hf : ∀ e, e.mem = d.mem → Q (f e).mem) : Q (d.nocArrive k op f).mem := by
  unfold Dev.nocArrive
  repeat' split
  · exact hd
  · simpa using hd
  · exact hf _ (by simp)
@[simp] theorem Dev.nocArrive_mem {d : Dev} {k : NocPacket} {op : BitVec 6} {f : Dev → Dev} (hf : ∀ e, (f e).mem = e.mem) :
    (d.nocArrive k op f).mem = d.mem :=
  Dev.nocArrive_inv (Q := fun m => m = d.mem) rfl fun e he => (hf e).trans he
@[simp] theorem nocManagement_mem (k : NocPacket) (d : Dev) : (nocManagement k d).mem = d.mem := by simp [nocManagement]
@[simp] theorem Dev.stepDone_mem (d : Dev) (n : ℕ) (s : SlateJob) (x : Desc) : (d.stepDone n s x).mem = d.mem := by
  unfold Dev.stepDone
  repeat' split
  all_goals simp
@[simp] theorem Dev.seqWrite_mem (d : Dev) (off : ℕ) (b : List Byte) (ext : Bool) : (d.seqWrite off b ext).2.mem = d.mem := by unfold Dev.seqWrite; split <;> simp
@[simp] theorem rkImageStore_mem (n : ℕ) (size : ℕ) (r : RkArgs) (d : Dev) : (rkImageStore n size r d).mem = d.mem := by simp [rkImageStore]
@[simp] theorem Dev.readCached_mem (d : Dev) (core : ℕ) (a : ℕ) (n : ℕ) : (d.readCached core a n).2.2.mem = d.mem := by
  simp only [Dev.readCached]
  repeat' split
  all_goals simp
@[simp] theorem Dev.askRows_mem (d : Dev) : (d.askRows).mem = d.mem := by
  refine foldl_mem (fun d q => ?_) _ _
  split
  · rfl
  · refine foldl_mem (fun d c => ?_) _ _
    split
    · rfl
    · simp
@[simp] theorem rkPrel_mem (n : ℕ) (_r : RkArgs) (d : Dev) : (rkPrel n _r d).mem = d.mem := by
  unfold rkPrel
  repeat' split
  all_goals simp
@[simp] theorem saeriWeightRow_mem (k : SaeriPkt) (d : Dev) : (saeriWeightRow k d).mem = d.mem := by
  simp only [saeriWeightRow]
  repeat' split
  all_goals simp
@[simp] theorem Dev.sendTile_mem (d : Dev) (node : NodeId) (t : ChainTile) : (d.sendTile node t).mem = d.mem := by simp [Dev.sendTile]
@[simp] theorem matmulRun_mem (k : DescKey) (d : Dev) : (matmulRun k d).mem = d.mem := by simp [matmulRun]
@[simp] theorem Dev.sendRow_mem (d : Dev) (node : NodeId) (j : MatJob) (q : NodeRow) (down : Bool) : (d.sendRow node j q down).mem = d.mem := by simp [Dev.sendRow]
@[simp] theorem Dev.sendNotices_mem (d : Dev) (r : Round) (set : Bool) : (d.sendNotices r set).mem = d.mem := by simp [Dev.sendNotices]
@[simp] theorem routeSwitch_mem (d : Dev) : (routeSwitch d).mem = d.mem := by simp [routeSwitch]
@[simp] theorem icpAbort_mem (d : Dev) : (icpAbort d).mem = d.mem := by simp [icpAbort]
@[simp] theorem rkJump_mem (n : ℕ) (target : Word) (link : Bank → Bank) (d : Dev) : (rkJump n target link d).mem = d.mem := by simp [rkJump]
@[simp] theorem nocWeightRow_mem (k : NocPacket) (d : Dev) : (nocWeightRow k d).mem = d.mem := by
  unfold nocWeightRow
  split
  · refine Dev.nocArrive_mem fun e => ?_
    split
    · simp
    · extract_lets a piece h fresh mine part
      clear_value part
      repeat' split
      all_goals simp
  · rfl
@[simp] theorem flitReplay_mem (k : NocPacket) (bundle : ℕ) (link : ℕ) (failures : ℕ) (d : Dev) : (flitReplay k bundle link failures d).mem = d.mem := by simp [flitReplay]
@[simp] theorem Dev.hostStops_mem (d : Dev) : (d.hostStops).mem = d.mem := by simp [Dev.hostStops]
@[simp] theorem rkLoad_mem (n : ℕ) (size : ℕ) (f : ℕ → Word) (r : RkArgs) (d : Dev) : (rkLoad n size f r d).mem = d.mem := by simp [rkLoad]
@[simp] theorem Dev.tileIn_mem (d : Dev) (n : ℕ) (j : MatJob) (x : Desc) (r : Round) (hdr : TileHdr) (codes : List (ℕ × ℕ)) : (d.tileIn n j x r hdr codes).mem = d.mem := by simp [Dev.tileIn]
@[simp] theorem Dev.release_mem (d : Dev) (n : ℕ) (j : MatJob) (u : Upset) : (d.release n j u).mem = d.mem := by
  simp only [Dev.release]
  repeat' split
  all_goals simp
@[simp] theorem nocFlagAdd_mem (k : NocPacket) (d : Dev) : (nocFlagAdd k d).mem = d.mem := by
  unfold nocFlagAdd
  refine Dev.nocArrive_mem fun e => ?_
  generalize seqReg _ 4 = g
  generalize seqBase = base
  generalize k.addr.toNat = a
  cases k.body with
  | bytes b =>
    match g with
    | some (.add f) =>
      show (if base ≤ a then flagAdd f (BitVec.ofNat 32 (field b 0 4)) e else e).mem = e.mem
      split <;> simp
    | none | some (.set _) | some (.block _ _) | some .abort | some .timestamp => rfl
  | _ => rfl
@[simp] theorem Dev.saeriRequest_mem (d : Dev) (node : NodeId) (op : BitVec 6) (addr : ℕ) (len : ℕ) (data : List Byte) (use : SaeriUse) : (d.saeriRequest node op addr len data use).mem = d.mem := by simp [Dev.saeriRequest]
@[simp] theorem rkJal_mem (n : ℕ) (r : RkArgs) (d : Dev) : (rkJal n r d).mem = d.mem := by simp [rkJal]
@[simp] theorem rkLoop_mem (n : ℕ) (r : RkArgs) (d : Dev) : (rkLoop n r d).mem = d.mem := by simp [rkLoop]
@[simp] theorem Dev.sendFrame_mem (d : Dev) (via : Transport) (f : TFrame) : (d.sendFrame via f).mem = d.mem := by unfold Dev.sendFrame; split <;> simp
@[simp] theorem Dev.writeZeros_mem (d : Dev) (n : ℕ) (j : MatJob) : (d.writeZeros n j).mem = d.mem := by
  simp only [Dev.writeZeros]
  repeat' split
  all_goals simp
@[simp] theorem rkBranch_mem (n : ℕ) (c : RkArgs → Bool) (r : RkArgs) (d : Dev) : (rkBranch n c r d).mem = d.mem := by simp [rkBranch]
@[simp] theorem nocCarryPartial_mem (k : NocPacket) (d : Dev) : (nocCarryPartial k d).mem = d.mem := by unfold nocCarryPartial; split <;> simp
@[simp] theorem Dev.writeSums_mem (d : Dev) (n : ℕ) (j : MatJob) (x : Desc) (s : VecSlot) (u : Upset) : (d.writeSums n j x s u).mem = d.mem := by
  simp only [Dev.writeSums]
  repeat' split
  all_goals simp
@[simp] theorem rkJalr_mem (n : ℕ) (r : RkArgs) (d : Dev) : (rkJalr n r d).mem = d.mem := by simp [rkJalr]
@[simp] theorem Dev.noticeRound_mem (d : Dev) (r : Round) : (d.noticeRound r).mem = d.mem := by simp [Dev.noticeRound]
@[simp] theorem Dev.readFor_mem (d : Dev) (o : Origin) (a : ℕ) (n : ℕ) : (d.readFor o a n).2.2.mem = d.mem := by unfold Dev.readFor; split <;> simp
@[simp] theorem Dev.chainReport_mem (d : Dev) (n : Nat) : (d.chainReport n).mem = d.mem := by
  refine Dev.withLoad_mem fun j x r => ?_
  repeat' split
  all_goals simp
@[simp] theorem Dev.recovered_mem (d : Dev) (node : NodeId) : (d.recovered node).mem = d.mem := by simp [Dev.recovered]
@[simp] theorem Dev.nodeTotal_mem (d : Dev) (j : MatJob) (x : Desc) (q : NodeRow) : (d.nodeTotal j x q).mem = d.mem := by simp [Dev.nodeTotal]
@[simp] theorem Dev.nodeAdvance_mem (d : Dev) (j : MatJob) (x : Desc) (r : Round) (q : NodeRow) : (d.nodeAdvance j x r q).mem = d.mem := by
  unfold Dev.nodeAdvance
  repeat' split
  all_goals simp
@[simp] theorem hostLinkDown_mem (d : Dev) : (hostLinkDown d).mem = d.mem := by simp [hostLinkDown]
@[simp] theorem Dev.takeAsk_mem (d : Dev) (k : SaeriPkt) : (d.takeAsk k).mem = d.mem := by
  refine (foldl_mem (fun d q => ?_) _ _).trans (by simp)
  repeat' split
  all_goals simp
@[simp] theorem Dev.dropTransfer_mem (d : Dev) (t : Transfer) : (d.dropTransfer t).mem = d.mem := by simp [Dev.dropTransfer]
@[simp] theorem nocResponse_mem (k : NocPacket) (op : BitVec 6) (latency : Nat) (d : Dev) : (nocResponse k op latency d).mem = d.mem := by
  refine Dev.nocArrive_mem fun e => ?_
  repeat' split
  all_goals simp
@[simp] theorem Dev.signalAdd_mem (d : Dev) (i : Incr) (neg : Bool) (use : SaeriUse) : (d.signalAdd i neg use).mem = d.mem := by simp [Dev.signalAdd]
@[simp] theorem vectorRelease_mem (n : ℕ) (u : Upset) (d : Dev) : (vectorRelease n u d).mem = d.mem := by simp [vectorRelease]
@[simp] theorem fabFlagadd_mem (core : CoreId) (cmd : FabCmd) (d : Dev) : (fabFlagadd core cmd d).mem = d.mem := by simp [fabFlagadd]
@[simp] theorem Dev.inputWrite_mem (d : Dev) (o : Origin) (rs : List RoundNo) : (d.inputWrite o rs).mem = d.mem := by
  unfold Dev.inputWrite
  repeat' split
  all_goals simp
@[simp] theorem carryPartialArrive_mem (n : ℕ) (u : Upset) (d : Dev) : (carryPartialArrive n u d).mem = d.mem := by
  simp only [carryPartialArrive]
  repeat' split
  all_goals simp
@[simp] theorem saeriFlagAdd_mem (k : SaeriPkt) (d : Dev) : (saeriFlagAdd k d).mem = d.mem := by simp [saeriFlagAdd]
@[simp] theorem chainTileArrive_mem (n : Nat) (u : Upset) (d : Dev) : (chainTileArrive n u d).mem = d.mem := by
  refine Dev.withLoad_mem fun j x r => ?_
  split
  · rfl
  · split
    · rfl
    · extract_lets j0 d1 _
      split
      · rfl
      · extract_lets j1 d2
        have h1 : d1.mem = d.mem := by simp [d1]
        have h2 : d2.mem = d.mem := by simp [d2, h1]
        clear_value d1 d2
        repeat' split
        all_goals simp [h1, h2]
@[simp] theorem flagRestore_mem (n : RoundNo) (d : Dev) : (flagRestore n d).mem = d.mem := by unfold flagRestore; split <;> simp
@[simp] theorem Dev.readBatch_mem (d : Dev) (t : Transfer) : (d.readBatch t).mem = d.mem := by simp [Dev.readBatch]
@[simp] theorem Dev.chainPump_mem (d : Dev) (n : Nat) : (d.chainPump n).mem = d.mem := by
  unfold Dev.chainPump
  split
  · rfl
  · refine Dev.withRound_mem fun r => ?_
    repeat' split
    all_goals simp
@[simp] theorem saeriCarryPartial_mem (k : SaeriPkt) (d : Dev) : (saeriCarryPartial k d).mem = d.mem := by
  unfold saeriCarryPartial
  repeat' split
  all_goals simp
@[simp] theorem idleCycle_mem (d : Dev) : (idleCycle d).mem = d.mem := by simp [idleCycle]
@[simp] theorem rescaleAttemptStart_mem (n : ℕ) (u : Upset) (d : Dev) : (rescaleAttemptStart n u d).mem = d.mem := by simp [rescaleAttemptStart]
@[simp] theorem fabricTimeout_mem (core : ℕ) (tag : BitVec 6) (waited : ℕ) (d : Dev) : (fabricTimeout core tag waited d).mem = d.mem := by unfold fabricTimeout; split <;> simp
@[simp] theorem Dev.sendAbort_mem (d : Dev) (via : Transport) (f : TFrame) (code : ℕ) : (d.sendAbort via f code).mem = d.mem := by simp [Dev.sendAbort]
@[simp] theorem Dev.nodeRows_mem (d : Dev) (n : ℕ) : (d.nodeRows n).mem = d.mem := by simp [Dev.nodeRows]
@[simp] theorem beamRowWrite_mem (n : ℕ) (u : Upset) (d : Dev) : (beamRowWrite n u d).mem = d.mem := by unfold beamRowWrite; split <;> simp
@[simp] theorem Dev.failTransfer_mem (d : Dev) (t : Transfer) (f : TFrame) (code : ℕ) : (d.failTransfer t f code).mem = d.mem := by simp [Dev.failTransfer]
@[simp] theorem Dev.markBad_mem (d : Dev) (f : ℕ) (word : ℕ) : (d.markBad f word).mem = d.mem := by simp [Dev.markBad]
@[simp] theorem fabricResponse_mem (core : ℕ) (w : BitVec 128) (beats : List Byte) (d : Dev) : (fabricResponse core w beats d).mem = d.mem := by unfold fabricResponse; split <;> simp
@[simp] theorem Dev.settleCore_mem (d : Dev) (n : ℕ) : (d.settleCore n).mem = d.mem := by simp [Dev.settleCore]
@[simp] theorem Dev.settle_mem (d : Dev) : (d.settle).mem = d.mem := by simp [Dev.settle]
@[simp] theorem streamHeader_mem (fz : Fuses) (src : LoadSource) (b : List Byte) (d : Dev) : (streamHeader fz src b d).mem = d.mem := by simp [streamHeader]
@[simp] theorem Dev.answerPart_mem (d : Dev) (ks : List NocPacket) (p : Part) (st : Status) (data : List Byte) : (d.answerPart ks p st data).mem = d.mem := by simp [Dev.answerPart]
@[simp] theorem transferTimeout_mem (via : Transport) (tid : Byte) (silentMs : ℕ) (d : Dev) : (transferTimeout via tid silentMs d).mem = d.mem := by unfold transferTimeout; split <;> simp
@[simp] theorem Dev.sendPart_mem (d : Dev) (o : Origin) (node : NodeId) (r : ℕ) (p : Part) : (d.sendPart o node r p).mem = d.mem := by
  unfold Dev.sendPart
  repeat' split
  all_goals simp
@[simp] theorem Dev.overSeam_mem (d : Dev) (write : Bool) (i : ℕ) (s : ℕ) (n : ℕ) : (d.overSeam write i s n).mem = d.mem := by simp [Dev.overSeam]
@[simp] theorem Dev.saeriEnd_mem (d : Dev) (r : SaeriReq) (st : Status) (data : List Byte) : (d.saeriEnd r st data).mem = d.mem := by
  simp only [Dev.saeriEnd]
  repeat' split
  all_goals simp
@[simp] theorem scrubFrame_mem (f : ℕ) (obs : ScrubObs) (d : Dev) : (scrubFrame f obs d).mem = d.mem := by
  unfold scrubFrame
  repeat' split
  all_goals simp
@[simp] theorem Dev.readInit_mem (fz : Fuses) (d : Dev) (via : Transport) (f : TFrame) : (Dev.readInit fz d via f).mem = d.mem := by unfold Dev.readInit; split <;> simp
@[simp] theorem Dev.mirrorRead_mem (fz : Fuses) (d : Dev) (off n : Nat) : (Dev.mirrorRead fz d off n).2.2.mem = d.mem := by
  unfold Dev.mirrorRead
  extract_lets
  repeat' split
  all_goals simp
@[simp] theorem Dev.lostPacket_mem (d : Dev) (k : SaeriPkt) : (d.lostPacket k).mem = d.mem := by simp [Dev.lostPacket]
@[simp] theorem saeriResponse_mem (k : SaeriPkt) (op : BitVec 6) (d : Dev) : (saeriResponse k op d).mem = d.mem := by
  refine Dev.saeriArrive_mem fun e => ?_
  split
  · split
    · exact foldl_mem (fun _ _ => by simp) _ _
    · rfl
  · split <;> simp
@[simp] theorem Dev.loseNodes_mem (d : Dev) (through : List SaeriReq) : (d.loseNodes through).mem = d.mem := by simp [Dev.loseNodes]
@[simp] theorem Dev.lostFrame_mem (d : Dev) (f : SentFrame) : (d.lostFrame f).mem = d.mem := by simp [Dev.lostFrame]
@[simp] theorem Dev.depart_mem (d : Dev) (node : NodeId) (from? : Option ℕ) : (d.depart node from?).mem = d.mem := by simp [Dev.depart]
@[simp] theorem Dev.afterDown_mem (d : Dev) (node : NodeId) (port : ℕ) (held : List SaeriPkt) : (d.afterDown node port held).mem = d.mem := by simp [Dev.afterDown]
@[simp] theorem Dev.leaveFabric_mem (d : Dev) : (d.leaveFabric).mem = d.mem := by
  unfold Dev.leaveFabric
  extract_lets up nodes _ d1 d2
  have h1 : d1.mem = d.mem := foldl_mem (f := fun d p => d.sendNotice p 2 d.nodeId) (fun _ _ => by simp) up { d with saeri := { d.saeri with left := true } }
  have h2 : d2.mem = d1.mem := foldl_mem (fun _ _ => by simp) _ _
  exact (foldl_mem (fun _ _ => by simp) _ _).trans (h2.trans h1)
@[simp] theorem Dev.portOff_mem (d : Dev) (p : ℕ) : (d.portOff p).mem = d.mem := by simp [Dev.portOff]
@[simp] theorem Dev.portDown_mem (d : Dev) (p : ℕ) (cause : ℕ) : (d.portDown p cause).mem = d.mem := by simp [Dev.portDown]
@[simp] theorem Dev.linkStart_mem (d : Dev) (p : ℕ) (node : NodeId) (peerPort : ℕ) : (d.linkStart p node peerPort).mem = d.mem := by simp [Dev.linkStart]
@[simp] theorem Dev.resolveLanes_mem (d : Dev) (p : ℕ) : (d.resolveLanes p).mem = d.mem := by simp [Dev.resolveLanes]
@[simp] theorem portTimeout_mem (p : ℕ) (silentNs : ℕ) (d : Dev) : (portTimeout p silentNs d).mem = d.mem := by simp [portTimeout]
@[simp] theorem Dev.replayFrames_mem (d : Dev) (p : ℕ) : (d.replayFrames p).mem = d.mem := by
  simp only [Dev.replayFrames]
  repeat' split
  all_goals simp
@[simp] theorem Dev.frameHeader_mem (d : Dev) (p : ℕ) (f : LinkFrame) : (d.frameHeader p f).mem = d.mem := by simp [Dev.frameHeader]
@[simp] theorem Dev.unpack_mem (d : Dev) (p : ℕ) (k : SaeriPkt) : (d.unpack p k).mem = d.mem := by simp [Dev.unpack]
@[simp] theorem replayTimeout_mem (p : ℕ) (waitedNs : ℕ) (d : Dev) : (replayTimeout p waitedNs d).mem = d.mem := by simp [replayTimeout]
@[simp] theorem departureNotice_mem (p : ℕ) (raw : RawFrame) (d : Dev) : (departureNotice p raw d).mem = d.mem := by simp [departureNotice]
@[simp] theorem dataFrame_mem (p : ℕ) (raw : RawFrame) (d : Dev) : (dataFrame p raw d).mem = d.mem := by simp [dataFrame]
@[simp] theorem nakReplay_mem (p : ℕ) (ack : BitVec 12) (d : Dev) : (nakReplay p ack d).mem = d.mem := by simp [nakReplay]
@[simp] theorem Dev.countReady_mem (d : Dev) (p : ℕ) : (d.countReady p).mem = d.mem := by simp [Dev.countReady]
@[simp] theorem bringupTimeout_mem (p : ℕ) (elapsedNs : ℕ) (d : Dev) : (bringupTimeout p elapsedNs d).mem = d.mem := by
  unfold bringupTimeout
  repeat' split
  all_goals simp
@[simp] theorem markReceive_mem (l : ℕ) (line : LineBlock) (skewBlocks : ℕ) (d : Dev) : (markReceive l line skewBlocks d).mem = d.mem := by
  simp only [markReceive]
  repeat' split
  all_goals simp
@[simp] theorem laneLockLoss_mem (l : ℕ) (cdr : Bool) (badHeaders : ℕ) (d : Dev) : (laneLockLoss l cdr badHeaders d).mem = d.mem := by simp [laneLockLoss]
@[simp] theorem idleFrame_mem (p : ℕ) (raw : RawFrame) (d : Dev) : (idleFrame p raw d).mem = d.mem := by simp [idleFrame]
@[simp] theorem leaveNotice_mem (p : ℕ) (raw : RawFrame) (d : Dev) : (leaveNotice p raw d).mem = d.mem := by simp [leaveNotice]

end Sys2Proof.Machine
end

section
/-! Memory keeps its form: every operation that writes it keeps the list of cells sorted and without zeros, and so does every command. -/

namespace Sys2Proof.Machine

/-- A pass whose every step keeps the form of memory keeps it. -/
@[simp] theorem foldl_memWf {α : Type} {f : Dev → α → Dev} {l : List α} {d : Dev} (kept : ∀ d a, memWf d.mem = true → memWf (f d a).mem = true)
    (h : memWf d.mem = true) : memWf (l.foldl f d).mem = true := by
  induction l generalizing d with
  | nil => exact h
  | cons a l ih => exact ih (kept d a h)

@[simp] theorem Dev.reset_memWf : memWf Dev.reset.mem = true := rfl
@[simp] theorem Dev.deviceReset_memWf (d : Dev) (cause : Nat) : memWf (d.deviceReset cause).mem = true := rfl
@[simp] theorem Dev.reprogram_memWf (d : Dev) (cause : Nat) : memWf (d.reprogram cause).mem = true := rfl
@[simp] theorem powerOn_memWf (straps : Straps) (d : Dev) : memWf (powerOn straps d).mem = true := rfl
@[simp] theorem resetPin_memWf (straps : Straps) (d : Dev) : memWf (resetPin straps d).mem = true := by simp [resetPin]

section
variable {d : Dev} (h : memWf d.mem = true)
include h

@[simp] theorem Dev.zeroRange_memWf (lo hi : Nat) : memWf (d.zeroRange lo hi).mem = true := memWf_zeroRange d lo hi h
@[simp] theorem Dev.writeMem_memWf (a : Nat) (b : List Byte) : memWf (d.writeMem a b).2.mem = true := memWf_writeMem d a b h

@[simp] theorem railFault_memWf (rail : Rail) (lowNs : Nat) : memWf (railFault rail lowNs d).mem = true := by
  unfold railFault
  split <;> simp [h]

@[simp] theorem pllLock_memWf : memWf (pllLock d).mem = true := by
  unfold pllLock
  repeat' split
  all_goals simp [h]

@[simp] theorem Dev.wakeDone_memWf (c : Nat) : memWf (d.wakeDone c).mem = true := by
  unfold Dev.wakeDone
  extract_lets k d1 d2
  have h1 : memWf d1.mem = true := by simp [d1, h]
  split
  · exact Dev.zeroRange_memWf (foldl_memWf (fun _ _ h => by simp [h]) h1) _ _
  · exact h1

@[simp] theorem thermalTrip_memWf (c : Nat) (celsius : Int) : memWf (thermalTrip c celsius d).mem = true := by
  unfold thermalTrip
  split <;> simp [h]

@[simp] theorem Dev.trained_memWf (failed : List Nat) : memWf (d.trained failed).mem = true := by simp [Dev.trained, h]

@[simp] theorem Dev.startCores_memWf : memWf d.startCores.mem = true := by
  unfold Dev.startCores
  extract_lets d1 d2
  have h1 : memWf d1.mem = true := foldl_memWf (fun _ _ h => by simp [h]) h
  have h2 : memWf d2.mem = true := Dev.zeroRange_memWf h1 _ _
  clear_value d2
  exact h2

@[simp] theorem startupStepEnd_memWf : memWf (startupStepEnd d).mem = true := by
  unfold startupStepEnd
  repeat' split
  all_goals simp [h]

@[simp] theorem Dev.writeFor_memWf (o : Origin) (a : Nat) (b : List Byte) : memWf (d.writeFor o a b).2.mem = true := by
  unfold Dev.writeFor
  repeat' split
  all_goals simp [h]

@[simp] theorem rkStore_memWf (n size : Nat) (r : RkArgs) : memWf (rkStore n size r d).mem = true := by
  unfold rkStore
  extract_lets
  repeat' split
  all_goals simp +zetaDelta [h, memWf_memWrite]

@[simp] theorem hbmAccess_memWf (a n : Nat) (write : Option (List Byte)) (us : List UpsetAt) (parityErrors : Nat) :
    memWf (hbmAccess a n write us parityErrors d).mem = true := by
  unfold hbmAccess
  extract_lets d1 r
  have h1 : memWf d1.mem = true := by simp [d1, h]
  have h2 : memWf r.2.2.mem = true := by simp [r, h1]
  clear_value d1 r
  repeat' split
  · exact h
  · simp [h]
  · simp [h2]
  · simp only [ite_mem]
    split <;> simp [h1]

/-! ### The dictionary -/

@[simp] theorem Dev.commitEffect_memWf (g : Nat) (val : Nat → Nat → List Byte) : memWf (d.commitEffect g val).mem = true := by
  unfold Dev.commitEffect
  repeat' split
  · refine foldl_memWf (fun e s he => ?_) h
    split <;> simp [he]
  · refine foldl_memWf (fun e s he => ?_) h
    dsimp only
    split <;> simp [he]
  · exact h
  · exact h

@[simp] theorem Dev.applyGroup_memWf (g : Nat) (val : Nat → Nat → List Byte) : memWf (d.applyGroup g val).mem = true := by
  unfold Dev.applyGroup
  refine foldl_memWf (fun e s he => ?_) (Dev.commitEffect_memWf h g val)
  split <;> simp [he]

theorem Dev.commitGroups_memWf {gs : List Nat} {val : Nat → Nat → List Byte} {e : Dev} (he : d.commitGroups gs val = .ok e) : memWf e.mem = true := by
  unfold Dev.commitGroups at he
  split at he
  · cases he
  · cases he
    exact foldl_memWf (fun _ _ h => by simp [h]) h

theorem Dev.commitWrite_memWf {g v : Nat} {e : Dev} (he : d.commitWrite g v = .ok e) : memWf e.mem = true := by
  unfold Dev.commitWrite at he
  repeat' split at he
  · exact Dev.commitGroups_memWf h he
  · cases he; exact h
  · cases he

theorem Dev.profile_memWf {i : Nat} {e : Dev} (he : d.profile i = .ok e) : memWf e.mem = true := by
  unfold Dev.profile at he
  split at he
  · cases he
  · split at he
    · cases he
    · extract_lets dflt at he
      split at he
      · cases he
      · next d1 hd1 =>
        have h1 := Dev.commitGroups_memWf h hd1
        repeat' split at he
        all_goals cases he; simp [h1]

theorem Dev.writeEffect_memWf (fz : Fuses) (via : Transport) (i s : Nat) (b : List Byte) : memWf (d.writeEffect fz via i s b).mem = true := by
  unfold Dev.writeEffect
  repeat' split
  all_goals simp only [ite_mem]
  all_goals repeat' split
  all_goals simp [h]

theorem Dev.translatorCommit_memWf {e : Dev} (he : d.translatorCommit = .ok e) : memWf e.mem = true := by
  unfold Dev.translatorCommit at he
  extract_lets at he
  split at he
  · cases he
  · cases he
    exact foldl_memWf (fun _ _ h => by simp [h]) h

theorem Dev.objWrite_memWf {fz : Fuses} {via : Transport} {i s : Nat} {b : List Byte} {e : Dev} (he : d.objWrite fz via i s b = .ok e) :
    memWf e.mem = true := by
  unfold Dev.objWrite at he
  split at he
  · cases he
  · extract_lets _ d1 at he
    split at he
    · cases he
    · have h1 : memWf d1.mem = true := by simp [d1, h]
      clear_value d1
      split at he
      · exact Dev.commitWrite_memWf h1 he
      · split at he
        · cases he; exact h1
        · split at he
          · split at he
            · exact Dev.translatorCommit_memWf h1 he
            · cases he; exact h1
          · split at he
            · exact Dev.profile_memWf h1 he
            · cases he; exact Dev.writeEffect_memWf h1 ..

theorem dictWrite_memWf {fz : Fuses} {via : Transport} {i s : Nat} {b : List Byte} {p : Fuses × Dev} (he : dictWrite fz d via i s b = .ok p) :
    memWf p.2.mem = true := by
  unfold dictWrite at he
  split at he
  · cases he
  · next hw =>
    cases he
    exact Dev.objWrite_memWf h hw

/-! ### Transfers -/

theorem Dev.configPass_memWf {fz : Fuses} {who : StreamWriter} {b : List Byte} {e : Dev} (he : d.configPass fz who b = .ok e) : memWf e.mem = true := by
  unfold Dev.configPass at he
  split at he
  · cases he
  · cases he; simp [h]

@[simp] theorem writeSegment_memWf (fz : Fuses) (t : Transfer) (f : TFrame) : memWf (writeSegment fz d t f).2.mem = true := by
  unfold writeSegment
  extract_lets last ack first len body body t' passed
  have hack (e : Dev) (he : memWf e.mem = true) : memWf (ack e).mem = true := by simp [ack, he]
  have hpassed (e : Dev) (he : passed = .ok e) : memWf e.mem = true := by
    unfold passed at he
    split at he
    · exact Dev.configPass_memWf h he
    · cases he; exact h
  clear_value ack passed
  split
  · simp [h]
  · split
    · simp [h]
    · split
      · simp [h]
      · next d1 =>
        have h1 := hpassed d1 rfl
        split
        · dsimp only
          split
          · exact hack _ (by simp [h1])
          · simp [h1]
        · split
          · exact hack _ (by simp [h1])
          · split
            · simp [h1]
            · next hw => exact hack _ (dictWrite_memWf (by simpa using h1) hw)

@[simp] theorem frameIn_memWf (fz : Fuses) (via : Transport) (f : TFrame) : memWf (frameIn fz d via f).2.mem = true := by
  unfold frameIn
  extract_lets old cmd
  clear_value old
  cases old
  all_goals dsimp only
  all_goals repeat' split
  all_goals simp [h]

@[simp] theorem reqlenWrite_memWf (fz : Fuses) (len : Nat) : memWf (reqlenWrite fz len d).2.mem = true := by
  unfold reqlenWrite
  split <;> simp [h]

@[simp] theorem Dev.mirrorWrite_memWf (fz : Fuses) (off : Nat) (b : List Byte) : memWf (d.mirrorWrite fz off b).2.mem = true := by
  unfold Dev.mirrorWrite
  extract_lets
  split
  · repeat' split
    all_goals simp [h]
  · split
    · simp [h]
    · split
      · simp [h]
      · next hw => exact Dev.objWrite_memWf h hw

/-! ### Accesses -/

@[simp] theorem Dev.perform_memWf (fz : Fuses) (o : Origin) (p : Part) : memWf (d.perform fz o p).mem = true := by
  unfold Dev.perform
  generalize p.addr - seqBase = regOff
  generalize p.addr - mirrorBase = objOff
  cases p.data with
  | none => cases d.regionOfRange p.addr p.len <;> simp [h]
  | some b =>
    cases d.protectors p.addr p.len with
    | nil => cases d.regionOfRange p.addr p.len <;> simp [h]
    | cons => simp [h]

@[simp] theorem Dev.serve_memWf (fz : Fuses) (o : Origin) (p : Part) : memWf (d.serve fz o p).mem = true := by
  unfold Dev.serve
  repeat' split
  all_goals simp [h]

@[simp] theorem Dev.servePart_memWf (fz : Fuses) (o : Origin) (p : Part) : memWf (d.servePart fz o p).mem = true := by
  unfold Dev.servePart
  extract_lets
  split <;> simp +zetaDelta [h]

@[simp] theorem Dev.resumePart_memWf (fz : Fuses) (p : Part) : memWf (d.resumePart fz p).mem = true := by
  unfold Dev.resumePart
  split <;> simp [h]

@[simp] theorem Dev.drainCluster_memWf (fz : Fuses) (c : Nat) : memWf (d.drainCluster fz c).mem = true :=
  foldl_memWf (fun _ _ h => by simp [h]) (by simp [h])

@[simp] theorem Dev.drainHbm_memWf (fz : Fuses) : memWf (d.drainHbm fz).mem = true := foldl_memWf (fun _ _ h => by simp [h]) h

@[simp] theorem Dev.issueAs_memWf (fz : Fuses) (out : Bool) (a : Access) : memWf (d.issueAs fz out a).mem = true := by
  unfold Dev.issueAs
  extract_lets xs o d0 d1
  split
  · simp [h]
  · refine foldl_memWf (fun e x he => ?_) (by simp [d1, d0, h])
    dsimp only
    split <;> simp [he]

@[simp] theorem Dev.issueHere_memWf (fz : Fuses) (a : Access) : memWf (d.issueHere fz a).mem = true := Dev.issueAs_memWf h ..
@[simp] theorem Dev.issue_memWf (fz : Fuses) (a : Access) : memWf (d.issue fz a).mem = true := Dev.issueAs_memWf h ..

end

/-! ### Loads of operands -/

/-- The device that a load leaves, whatever came of it, keeps memory in its form. -/
def Pull.MemWf {α : Type} : Pull α → Prop
  | .ok _ d => memWf d.mem = true
  | .fail _ d => memWf d.mem = true
  | .wait d => memWf d.mem = true

/-- The device that a read leaves keeps memory in its form. -/
def Got.MemWf : Got → Prop
  | .got _ _ d => memWf d.mem = true
  | .wait d => memWf d.mem = true

/-- What a load makes of a read. -/
theorem Got.MemWf.pull {g : Got} (h : g.MemWf) :
    Pull.MemWf (match g with | .wait d => .wait d | .got st b d => if st = .done then .ok b d else .fail st d) := by
  cases g with
  | wait d => exact h
  | got st b d => dsimp only; split <;> exact h

@[simp] theorem Pull.memWf_wait {α : Type} (d : Dev) : (Pull.wait d : Pull α).MemWf ↔ memWf d.mem = true := .rfl
@[simp] theorem Pull.memWf_fail {α : Type} (st : Status) (d : Dev) : (Pull.fail st d : Pull α).MemWf ↔ memWf d.mem = true := .rfl
@[simp] theorem Pull.memWf_ok {α : Type} (v : α) (d : Dev) : (Pull.ok v d).MemWf ↔ memWf d.mem = true := .rfl

theorem Pull.MemWf.then {α β : Type} {p : Pull α} {f : α → Dev → Pull β} (hp : p.MemWf) (hf : ∀ v d, memWf d.mem = true → (f v d).MemWf) :
    (p.then f).MemWf := by
  cases p with
  | wait d => exact hp
  | fail st d => exact hp
  | ok v d => exact hf v d hp

theorem pullAll_memWf {α : Type} {l : List (Dev → Pull α)} (hl : ∀ f ∈ l, ∀ d, memWf d.mem = true → (f d).MemWf) {d : Dev} (h : memWf d.mem = true) :
    (pullAll l d).MemWf := by
  induction l generalizing d with
  | nil => exact h
  | cons f l ih =>
    have rest := fun e he => ih (fun g hg => hl g (.tail _ hg)) (d := e) he
    exact (hl f (.head _) d h).then fun v e he => (rest e he).then fun _ _ h => h

/-- Loads made from a list in turn. -/
theorem pullAll_map_memWf {α β : Type} {f : β → Dev → Pull α} (hf : ∀ b d, memWf d.mem = true → (f b d).MemWf) (l : List β) {d : Dev}
    (h : memWf d.mem = true) : (pullAll (l.map f) d).MemWf :=
  pullAll_memWf (fun g hg => by obtain ⟨b, -, rfl⟩ := List.mem_map.mp hg; exact hf b) h

section
variable {d : Dev} (h : memWf d.mem = true)
include h

theorem Dev.syncServe_memWf {o : Origin} {a n : Nat} {r : Status × List Byte × Dev} (hr : d.syncServe o a n = some r) : memWf r.2.2.mem = true := by
  unfold Dev.syncServe at hr
  repeat' split at hr
  all_goals cases hr
  all_goals simp [h]

theorem Dev.syncRead_memWf {o : Origin} {a n : Nat} {r : Status × List Byte × Dev} (hr : d.syncRead o a n = some r) : memWf r.2.2.mem = true := by
  unfold Dev.syncRead at hr
  extract_lets ks go at hr
  have hgo : memWf go.2.mem = true := by simp [go, h]
  clear_value go
  split at hr
  · cases hr
  · next w hw =>
    cases hr
    have h1 := Dev.syncServe_memWf hgo hw
    repeat' split
    all_goals simp [h1, hgo]

theorem Dev.tryRead_memWf (fz : Fuses) (o : Origin) (a n : Nat) : (d.tryRead fz o a n).MemWf := by
  unfold Dev.tryRead
  split
  · exact h
  · split
    · exact h
    · split
      · exact h
      · split
        · next r hr => simpa [Got.MemWf] using Dev.syncRead_memWf h hr
        · split
          · exact h
          · extract_lets d1
            have h1 : memWf d1.mem = true := Dev.issue_memWf h ..
            clear_value d1
            repeat' split
            all_goals exact h1

theorem pullBytes_memWf (fz : Fuses) (o : Origin) (bound : Option (Nat × Nat × Nat)) (a : Int) (n : Nat) : (pullBytes fz o bound a n d).MemWf := by
  unfold pullBytes
  split
  · exact h
  · exact (Dev.tryRead_memWf h ..).pull

theorem fetchBytes_memWf (fz : Fuses) (s a n : Nat) : (fetchBytes fz s a n d).MemWf := (Dev.tryRead_memWf h ..).pull

theorem pullRecord_memWf (fz : Fuses) (x : Desc) (v : Nat) : (pullRecord fz x v d).MemWf := by
  unfold pullRecord
  split
  · exact (Dev.tryRead_memWf h ..).pull
  · exact h

theorem pullBlock_memWf (fz : Fuses) (o : Origin) (bound : Option (Nat × Nat × Nat)) (r : Int) (w b q : Nat) : (pullBlock fz o bound r w b q d).MemWf :=
  (pullBytes_memWf h ..).then fun _ _ h => (pullBytes_memWf h ..).then fun _ _ h => h

theorem pullCodes_memWf (fz : Fuses) (o : Origin) (bound : Option (Nat × Nat × Nat)) (v : View) (r : Int) (i n : Nat) :
    (pullCodes fz o bound v r i n d).MemWf := by
  unfold pullCodes
  extract_lets
  split
  · exact (pullAll_map_memWf (fun _ _ h => pullBlock_memWf h ..) _ h).then fun _ _ h => h
  · split
    · exact (pullBytes_memWf h ..).then fun _ _ h => h
    · split
      · exact (pullBytes_memWf h ..).then fun _ _ h => h
      · exact (pullAll_map_memWf (fun _ _ h => pullBytes_memWf h ..) _ h).then fun _ _ h => h

theorem pullRun_memWf (fz : Fuses) (o : Origin) (bound : Option (Nat × Nat × Nat)) (v : View) (r : Int) (i n : Nat) :
    (pullRun fz o bound v r i n d).MemWf :=
  (pullCodes_memWf h ..).then fun _ _ h => h

theorem pullView_memWf (fz : Fuses) (o : Origin) (bound : Option (Nat × Nat × Nat)) (v : View) : (pullView fz o bound v d).MemWf :=
  (pullAll_map_memWf (fun _ _ h => pullRun_memWf h ..) _ h).then fun _ _ h => h

theorem pullAux_memWf (fz : Fuses) (o : Origin) (a n : Nat) : (pullAux fz o a n d).MemWf := (pullBytes_memWf h ..).then fun _ _ h => h

theorem pullSides_memWf (fz : Fuses) (x : Desc) (off n : Nat) : (pullSides fz x off n d).MemWf := by
  unfold pullSides
  refine pullAll_map_memWf (fun v e he => ?_) _ h
  exact (pullAux_memWf he ..).then fun _ _ h => h

theorem pullInputs_memWf (fz : Fuses) (x : Desc) : (pullInputs fz x d).MemWf := by
  unfold pullInputs
  refine pullAll_map_memWf (fun v e he => ?_) _ h
  exact (pullView_memWf he ..).then fun _ _ h => h

theorem pullReduce_memWf (fz : Fuses) (o : Origin) (bound : Option (Nat × Nat × Nat)) (v : View) (b i1 k len : Nat) :
    (pullReduce fz o bound v b i1 k len d).MemWf :=
  (pullAll_map_memWf (fun _ _ h => pullCodes_memWf h ..) _ h).then fun _ _ h => h

theorem pullBeads_memWf (fz : Fuses) (x : Desc) (bound : Option (Nat × Nat × Nat)) (j : MatJob) (blk t row : Nat) :
    (pullBeads fz x bound j blk t row d).MemWf :=
  (pullAll_map_memWf (fun _ _ h => pullReduce_memWf h ..) _ h).then fun _ _ h => h

theorem Dev.loadSides_memWf (fz : Fuses) (n : Nat) (s : SlateJob) (x : Desc) : (d.loadSides fz n s x).MemWf := by
  unfold Dev.loadSides
  split
  · exact h
  · refine (pullSides_memWf h ..).then fun l e he => ?_
    have hl : memWf (l.foldl (fun d e => d.updSlate n fun q => q.put e.1 e.2) e).mem = true := foldl_memWf (fun _ _ h => h) he
    exact hl

theorem Dev.readRecord_memWf (fz : Fuses) (s : Nat) (settings : Table (List Byte)) (rrec : Nat) : (d.readRecord fz s settings rrec).MemWf := by
  unfold Dev.readRecord
  have h1 := fetchBytes_memWf h fz s rrec 16
  split
  · next he => rwa [he] at h1
  · next he => rwa [he] at h1
  · next b e he =>
    replace h1 : memWf e.mem = true := by rwa [he] at h1
    extract_lets w0 n
    split
    · exact h1
    · have h2 := fetchBytes_memWf h1 fz s (bits (field b 8 8) 51 0) (16 * n)
      split
      · next he => rwa [he] at h2
      · next he => rwa [he] at h2
      · next he =>
        rw [he] at h2
        dsimp only
        split <;> exact h2

end

end Sys2Proof.Machine
end

section
/-! Memory keeps its form under the operations of the Sequencer, the engines and the ports that write it. -/

namespace Sys2Proof.Machine

section
variable {d : Dev} (h : memWf d.mem = true)
include h

/-! ### Descriptors -/

@[simp] theorem Dev.writeRecord_memWf (fz : Fuses) (stream slot : Nat) (st : Status) (sticky attempt : Nat) (phase : Bool) (round : RoundNo) :
    memWf (d.writeRecord fz stream slot st sticky attempt phase round).mem = true := Dev.issue_memWf h ..

@[simp] theorem Dev.orphan_memWf (fz : Fuses) (s slot : Nat) (phase : Bool) (x : Desc) : memWf (d.orphan fz s slot phase x).mem = true := by
  simp [Dev.orphan, h]

@[simp] theorem Dev.recordAs_memWf (fz : Fuses) (x : Desc) (st : Status) : memWf (d.recordAs fz x st).mem = true := by
  simp [Dev.recordAs, h]

@[simp] theorem Dev.takeOpen_memWf (fz : Fuses) (s slot : Nat) (x : Desc) : memWf (d.takeOpen fz s slot x).mem = true := by
  unfold Dev.takeOpen
  extract_lets n wait u enter close
  have henter (e : Dev) : (enter e).mem = e.mem := by simp [enter]
  have hclose (e : Dev) : (close e).mem = e.mem := by simp [close]
  clear_value enter close
  split
  · simp [wait, h]
  · split
    · split
      · exact h
      · split <;> simp +zetaDelta [hclose, henter, h]
    · split
      · simp [wait, h]
      · split
        · simp [wait, h]
        · have hp := Dev.readRecord_memWf h fz s d.objs x.rrec
          split
          · next he => rwa [he] at hp
          · next he => rwa [he] at hp
          · next he =>
            rw [he] at hp
            dsimp only
            split <;> simpa [henter, hclose] using hp

@[simp] theorem Dev.reopen_memWf (fz : Fuses) (r : Round) (s : Nat) (x : Desc) : memWf (d.reopen fz r s x).mem = true := by
  unfold Dev.reopen
  have hp := Dev.readRecord_memWf h fz s r.settings x.rrec
  split
  · next he => rwa [he] at hp
  · next he => rwa [he] at hp
  · next he =>
    rw [he] at hp
    dsimp only
    split <;> simpa using hp

@[simp] theorem Dev.deliver_memWf (fz : Fuses) (r : Round) (x : Desc) : memWf (d.deliver fz r x).mem = true := by
  unfold Dev.deliver
  have hp : (pullAll ((List.range 3).map (pullRecord fz x)) d).MemWf := pullAll_map_memWf (fun _ _ h => pullRecord_memWf h ..) _ h
  split
  · next he => rwa [he] at hp
  · next he => rw [he] at hp; simpa using hp
  · next vs e he =>
    replace hp : memWf e.mem = true := by rwa [he] at hp
    extract_lets image d1 queued
    have h1 : memWf d1.mem = true := by simp [d1, hp]
    have hq : memWf (queued d1).mem = true := by simp [queued, h1]
    clear_value queued
    repeat' split
    all_goals simp [h1, hq]

@[simp] theorem descriptorDelivery_memWf (fz : Fuses) (s : Nat) : memWf (descriptorDelivery fz s d).mem = true := by
  unfold descriptorDelivery
  split
  · exact h
  · refine Dev.withRound_inv (P := fun e => memWf e.mem = true) h fun r => ?_
    repeat' split
    all_goals simp [h]

@[simp] theorem Dev.fetchSlot_memWf (fz : Fuses) (s slot : Nat) (phase again : Bool) (run : Option RoundNo) :
    memWf (d.fetchSlot fz s slot phase again run).mem = true := by
  unfold Dev.fetchSlot
  extract_lets x key stalled go
  have hgo (r : Option Round) : memWf (go r).mem = true := by
    have hp := fetchBytes_memWf h fz s (x.slotAddr slot) 128
    unfold go
    split
    · next he => rwa [he] at hp
    · next he => rw [he] at hp; simpa using hp
    · next b e he =>
      replace hp : memWf e.mem = true := by rwa [he] at hp
      split
      · dsimp only
        split <;> simp [hp]
      · dsimp only
        split <;> simp [hp]
  clear_value go
  repeat' split
  all_goals simp [h, hgo]

@[simp] theorem descriptorFetch_memWf (fz : Fuses) (s : Nat) : memWf (descriptorFetch fz s d).mem = true := by
  unfold descriptorFetch
  extract_lets x
  split
  · exact Dev.fetchSlot_memWf h ..
  · split
    · exact h
    · exact Dev.fetchSlot_memWf h ..

@[simp] theorem Dev.complete_memWf (fz : Fuses) (x : Desc) : memWf (d.complete fz x).mem = true := by
  unfold Dev.complete
  extract_lets st d1 d2 d3
  have h1 : memWf d1.mem = true := by simp [d1, h]
  have h2 : memWf d2.mem = true := by simp [d2, h1]
  simp [d3, h2]

@[simp] theorem descriptorComplete_memWf (fz : Fuses) (k : DescKey) : memWf (descriptorComplete fz k d).mem = true := by
  refine Dev.withDesc_inv (P := fun e => memWf e.mem = true) h fun x => ?_
  repeat' split
  all_goals simp [h]

/-! ### Rounds -/

@[simp] theorem Dev.commitRound_memWf (fz : Fuses) (r : Round) : memWf (d.commitRound fz r).mem = true := by
  unfold Dev.commitRound
  extract_lets n ds total d1 d2 d3 d4
  have h1 : memWf d1.mem = true := foldl_memWf (fun _ _ h => by simp [h]) h
  have h2 : memWf d2.mem = true := foldl_memWf (fun _ _ h => by simp [h]) h1
  simp [d4, d3, h2]

@[simp] theorem roundCommit_memWf (fz : Fuses) (n : RoundNo) : memWf (roundCommit fz n d).mem = true := by
  refine Dev.withRound_inv (P := fun e => memWf e.mem = true) h fun r => ?_
  split <;> simp [h]

@[simp] theorem commitVote_memWf (fz : Fuses) (n : RoundNo) (group : Nat) (vote stop : Bool) : memWf (commitVote fz n group vote stop d).mem = true := by
  refine Dev.withRound_inv (P := fun e => memWf e.mem = true) h fun r => ?_
  extract_lets
  split <;> simp +zetaDelta [h]

@[simp] theorem Dev.endRecords_memWf (fz : Fuses) (r : Round) (st : Status) : memWf (d.endRecords fz r st).mem = true := by
  unfold Dev.endRecords
  refine foldl_memWf (fun e u he => foldl_memWf (fun e slot he => ?_) he) h
  dsimp only
  repeat' split
  all_goals simp [he]

@[simp] theorem Dev.faultRecords_memWf (fz : Fuses) (n : RoundNo) : memWf (d.faultRecords fz n).mem = true :=
  foldl_memWf (fun _ _ h => by simp [h]) h

@[simp] theorem Dev.abortRound_memWf (fz : Fuses) (n : RoundNo) (own : Status) (ends exhausted received : Bool) :
    memWf (d.abortRound fz n own ends exhausted received).mem = true := by
  refine Dev.withRound_inv (P := fun e => memWf e.mem = true) h fun r => ?_
  extract_lets endSt held kind d1 d2 recorded waiting d3 d3' d4 d5
  have h1 : memWf d1.mem = true := by unfold d1; split <;> simp [h]
  have h2 : memWf d2.mem = true := by unfold d2; split <;> simp [h1]
  have h3 : memWf d3'.mem = true := by unfold d3'; split <;> simp [d3, h2]
  have h5 : memWf d5.mem = true := by unfold d5; split <;> simp [d4, h3]
  clear_value d5
  split <;> simp [h5]

@[simp] theorem roundAbort_memWf (fz : Fuses) (n : RoundNo) (cause : Option Status) : memWf (roundAbort fz n cause d).mem = true := by
  unfold roundAbort
  extract_lets d1
  have h1 : memWf d1.mem = true := by unfold d1; repeat' split; all_goals simp [h]
  clear_value d1
  refine Dev.withRound_inv (P := fun e => memWf e.mem = true) h1 fun r => ?_
  repeat' split
  all_goals simp [h1]

@[simp] theorem tally1Stuck_memWf (fz : Fuses) (cycles : Nat) : memWf (tally1Stuck fz cycles d).mem = true := by
  unfold tally1Stuck
  split
  · exact h
  · refine foldl_memWf (fun e r he => ?_) h
    split <;> simp [he]

@[simp] theorem abortFrame_memWf (fz : Fuses) (n : RoundNo) (final : Bool) (code : Nat) (stop : Bool) : memWf (abortFrame fz n final code stop d).mem = true := by
  unfold abortFrame
  split
  · exact h
  · extract_lets st mine _ d0 d1
    have h1 : memWf d1.mem = true := by simp [d1, d0, h]
    clear_value d1
    refine Dev.withRound_inv (P := fun e => memWf e.mem = true) h1 fun r => ?_
    split <;> simp [h1]

/-! ### Engines -/

@[simp] theorem feederWrite_memWf (fz : Fuses) (n row : Nat) : memWf (feederWrite fz n row d).mem = true := by
  refine Dev.onJob_inv (P := fun e => memWf e.mem = true) h fun j x _ => ?_
  extract_lets c f g v t blk s shift
  split
  · exact h
  · have hp := pullReduce_memWf h fz x.origin (d.bindOf x 1) (x.view 1) (j.batchOf blk) (j.rows.getD (g % v) 0) s.1 s.2
    generalize pullReduce fz x.origin (d.bindOf x 1) (x.view 1) (j.batchOf blk) (j.rows.getD (g % v) 0) s.1 s.2 d = p at hp ⊢
    cases p <;> simpa using hp

@[simp] theorem shadowRowLoad_memWf (fz : Fuses) (n : Nat) (u : Upset) : memWf (shadowRowLoad fz n u d).mem = true := by
  refine Dev.onJob_inv (P := fun e => memWf e.mem = true) h fun j x r => ?_
  extract_lets c
  split
  · exact h
  · split
    · exact h
    · exact h
    · next j1 _ _ =>
      extract_lets row
      split
      · exact h
      · have hp := pullBeads_memWf h fz x (d.bindOf x 0) j1 j1.loadBlk j1.loadTile row
        generalize pullBeads fz x (d.bindOf x 0) j1 j1.loadBlk j1.loadTile row d = p at hp ⊢
        cases p with
        | wait e => exact hp
        | fail st e => simpa using hp
        | ok cs e =>
          dsimp only
          repeat' split
          all_goals simpa using hp

@[simp] theorem Dev.storeWrites_memWf (fz : Fuses) (x : Desc) (bound : Option (Nat × Nat × Nat)) (ws : List (Int × List Byte)) :
    memWf (d.storeWrites fz x bound ws).mem = true := by
  refine foldl_memWf (fun e w he => ?_) h
  repeat' split
  all_goals simp [he]

@[simp] theorem Dev.store_memWf (fz : Fuses) (x : Desc) (s : Stored) : memWf (d.store fz x s).mem = true := by simp [Dev.store, h]

@[simp] theorem Dev.storeSlate_memWf (fz : Fuses) (n : Nat) (s : SlateJob) (x : Desc) (r : Round) (w : StepW) :
    memWf (d.storeSlate fz n s x r w).mem = true := by
  unfold Dev.storeSlate
  extract_lets
  rw [Dev.updSlateJob_mem]
  exact foldl_memWf (fun _ _ h => by simp [h]) h

@[simp] theorem Dev.storeRows_memWf (fz : Fuses) (n : Nat) (s : SlateJob) (x : Desc) (r : Round) (w : StepW) :
    memWf (d.storeRows fz n s x r w).mem = true := by
  unfold Dev.storeRows
  split
  · exact h
  · exact foldl_memWf (fun _ _ h => by simp [h]) h

@[simp] theorem slateRun_memWf (fz : Fuses) (k : DescKey) : memWf (slateRun fz k d).mem = true := by
  refine Dev.begin_inv (Q := fun m => memWf m = true) h fun x _ e he => ?_
  have h1 : memWf e.mem = true := by rwa [he]
  split
  · exact h1
  · have h2 : memWf (e.takeOut x).mem = true := by simp [h1]
    refine Dev.goOn_inv (P := fun e => memWf e.mem = true) h2 fun x => ?_
    have hp := (pullInputs_memWf h2 fz x).then (f := fun ins d => (pullSides fz x 0 x.vl d).then fun sides d => .ok (ins, sides) d)
      fun ins d hd => (pullSides_memWf hd fz x 0 x.vl).then fun sides d hd => hd
    split
    · next he => rwa [he] at hp
    · next he => rw [he] at hp; simpa using hp
    · next ins sides e' he =>
      rw [he] at hp
      extract_lets d1 d2 d3
      have h1 : memWf d1.mem = true := by simpa [d1] using hp
      have h2 : memWf d2.mem = true := foldl_memWf (fun _ _ h => by simp [h]) h1
      have h3 : memWf d3.mem = true := foldl_memWf (fun _ _ h => by simp [h]) h2
      simp [h3]

@[simp] theorem copyRun_memWf (fz : Fuses) (k : DescKey) : memWf (copyRun fz k d).mem = true := by
  refine Dev.begin_inv (Q := fun m => memWf m = true) h fun x0 _ e he => ?_
  have h1 : memWf e.mem = true := by rwa [he]
  split
  · exact h1
  · have h2 : memWf (e.takeOut x0).mem = true := by simp [h1]
    refine Dev.goOn_inv (P := fun e => memWf e.mem = true) h2 fun x => ?_
    have hp := pullView_memWf h2 fz x.origin ((e.takeOut x0).bindOf x 0) (x.view 0)
    split
    · next he => rwa [he] at hp
    · next he => rw [he] at hp; simpa using hp
    · next vals e' he =>
      replace hp : memWf e'.mem = true := by rwa [he] at hp
      extract_lets v parts ws src dst hit out d1
      have h1 : memWf d1.mem = true := by unfold d1; split <;> exact hp
      simp [h1]

omit h in
/-- The engine that takes up an epilogue takes up fresh slates only. -/
theorem Dev.slateJob_mem {n : Nat} {s : SlateJob} {e : Dev} (he : d.slateJob n = some (s, e)) : e.mem = d.mem := by
  unfold Dev.slateJob at he
  repeat' split at he
  all_goals cases he
  all_goals simp

omit h in
theorem Dev.beamread_mem {n : Nat} {s : SlateJob} {x : Desc} {r : Round} {w : StepW} {e : Dev} (he : d.beamread n s x r w = some e) : e.mem = d.mem := by
  unfold Dev.beamread at he
  repeat' split at he
  all_goals cases he
  all_goals simp

@[simp] theorem slateStep_memWf (fz : Fuses) (op n : Nat) (u : Upset) : memWf (slateStep fz op n u d).mem = true := by
  unfold slateStep
  split
  · exact h
  · next s d0 hs =>
    have h0 : memWf d0.mem = true := by rw [Dev.slateJob_mem hs]; exact h
    split
    · next x r _ _ =>
      extract_lets w
      split
      · exact h
      · have hp := Dev.loadSides_memWf h0 fz n s x
        split
        · next he => rwa [he] at hp
        · next he => rw [he] at hp; simpa using hp
        · next e he =>
          rw [he] at hp
          extract_lets d2
          have h2 : memWf d2.mem = true := by simpa [d2] using hp
          clear_value d2
          split
          · exact h2
          · split
            · split
              · next hb => simp [Dev.beamread_mem hb, h2]
              · exact h
            · split
              · split <;> simp [h2]
              · simp [h2]
    · exact h

/-! ### Ports -/

@[simp] theorem wakeComplete_memWf (fz : Fuses) (c ns : Nat) : memWf (wakeComplete fz c ns d).mem = true := by
  unfold wakeComplete
  extract_lets
  split <;> simp [h]

@[simp] theorem hbmTrainingDone_memWf (fz : Fuses) (failed : List Nat) : memWf (hbmTrainingDone fz failed d).mem = true := by
  unfold hbmTrainingDone
  split <;> simp [h]

@[simp] theorem saeriRead_memWf (fz : Fuses) (k : SaeriPkt) : memWf (saeriRead fz k d).mem = true := by
  refine Dev.saeriArrive_inv (Q := fun m => memWf m = true) h fun e he => ?_
  split <;> simp [he, h]

@[simp] theorem saeriWrite_memWf (fz : Fuses) (k : SaeriPkt) : memWf (saeriWrite fz k d).mem = true := by
  unfold saeriWrite
  split
  · exact h
  · refine Dev.saeriArrive_inv (Q := fun m => memWf m = true) h fun e he => ?_
    split <;> simp [he, h]

@[simp] theorem nocRead_memWf (fz : Fuses) (k : NocPacket) (us : List UpsetAt) : memWf (nocRead fz k us d).mem = true := by
  refine Dev.nocArrive_inv (Q := fun m => memWf m = true) h fun e he => ?_
  refine Dev.nocAsk_inv (P := fun e => memWf e.mem = true) (by rwa [he]) fun g hg => ?_
  exact Dev.issueHere_memWf (by simp [hg, he, h]) ..

@[simp] theorem nocWrite_memWf (fz : Fuses) (k : NocPacket) : memWf (nocWrite fz k d).mem = true := by
  unfold nocWrite
  split
  · split
    · exact h
    · refine Dev.nocArrive_inv (Q := fun m => memWf m = true) h fun e he => ?_
      refine Dev.nocAsk_inv (P := fun e => memWf e.mem = true) (by rwa [he]) fun g hg => ?_
      exact Dev.issueHere_memWf (by simp [hg, he, h]) ..
  · exact h

@[simp] theorem Dev.injectGo_memWf (fz : Fuses) (core : CoreId) (cmd : FabCmd) : memWf (d.injectGo fz core cmd).mem = true := by
  unfold Dev.injectGo
  extract_lets
  split <;> simp [h]

@[simp] theorem fabAccess_memWf (fz : Fuses) (core : CoreId) (op : BitVec 4) (cmd : FabCmd) (data : Option (List Byte)) :
    memWf (fabAccess fz core op cmd data d).mem = true := by
  unfold fabAccess
  split <;> simp [h]

@[simp] theorem fabRead_memWf (fz : Fuses) (core : CoreId) (cmd : FabCmd) : memWf (fabRead fz core cmd d).mem = true :=
  Dev.fabFront_inv (Q := fun m => memWf m = true) h fun e he => fabAccess_memWf (by rwa [he]) ..

@[simp] theorem fabWrite_memWf (fz : Fuses) (core : CoreId) (cmd : FabCmd) : memWf (fabWrite fz core cmd d).mem = true :=
  Dev.fabFront_inv (Q := fun m => memWf m = true) h fun e he => fabAccess_memWf (by rwa [he]) ..

@[simp] theorem fabInject_memWf (fz : Fuses) (core : CoreId) (cmd : FabCmd) : memWf (fabInject fz core cmd d).mem = true := by
  refine Dev.fabFront_inv (Q := fun m => memWf m = true) h fun e he => ?_
  split <;> simp [he, h]

@[simp] theorem injectResume_memWf (fz : Fuses) (core : CoreId) : memWf (injectResume fz core d).mem = true := by
  unfold injectResume
  extract_lets
  repeat' split
  all_goals simp [h]

end

end Sys2Proof.Machine
end

section
/-! Every step keeps memory in its form. -/

namespace Sys2Proof.Machine

/-- An outcome whose next state has memory in its form. -/
def MemKept (o : Host.Outcome State Fault Refusal) : Prop := ∀ t, o = .next t → memWf t.dev.mem = true

section
variable {s : State} (h : memWf s.dev.mem = true)
include h

theorem onDev_memKept {f : Dev → Dev} (hf : ∀ d, memWf d.mem = true → memWf (f d).mem = true) : MemKept (s.onDev f) := by
  rintro t ⟨⟩
  exact hf s.dev h

theorem onClock_memKept {f : Dev → Dev} (hf : ∀ d, memWf d.mem = true → memWf (f d).mem = true) : MemKept (s.onClock f) :=
  onDev_memKept h fun d hd => Dev.when_inv (P := fun e => memWf e.mem = true) hd (hf d hd) _

theorem dict_memKept {via : Transport} {i j : Nat} {b : List Byte} : MemKept (s.dict via i j b) := by
  intro t ht
  unfold State.dict at ht
  split at ht
  · split at ht
    · next hw =>
      cases ht
      exact dictWrite_memWf h hw
    · extract_lets direct at ht
      clear_value direct
      cases ht
      split
      · simpa using h
      · exact h
  · cases ht
    exact h

theorem transfer_memKept {via : Transport} {f : TFrame} {cmd : Byte} : MemKept (s.transfer via f cmd) := by
  intro t ht
  unfold State.transfer at ht
  split at ht
  · cases ht
    exact frameIn_memWf h ..
  · cases ht
    exact h

/-- A Reckoner instruction, whose action keeps the form of memory. -/
theorem rk_memKept {n : Nat} {op : Option RkOp} {f : RkArgs → Dev → Dev} (hf : ∀ r d, memWf d.mem = true → memWf (f r d).mem = true) :
    MemKept (s.onClock fun d => d.rkIssue n op f) :=
  onClock_memKept h fun _ hd => Dev.rkIssue_inv (Q := fun m => memWf m = true) hd fun r e he => hf r e (by rwa [he])

/-- A command that a transport carries. -/
theorem onTransport_memKept {via : Transport} {f : Dev → Dev} (hf : ∀ d, memWf d.mem = true → memWf (f d).mem = true) :
    MemKept (s.onDev fun d => d.when (d.dictRuns via) f) :=
  onDev_memKept h fun d hd => Dev.when_inv (P := fun e => memWf e.mem = true) hd (hf d hd) _

/-- A command word of a port, whose operation keeps the form of memory. -/
theorem fabWord_memKept {core : Nat} {op : BitVec 4} {w : FabWord} {f : FabCmd → Dev → Dev}
    (hf : ∀ c d, memWf d.mem = true → memWf (f c d).mem = true) : MemKept (s.onClock fun d => d.fabWord core op w f) :=
  onClock_memKept h fun d hd => Dev.fabWord_inv (Q := fun m => memWf m = true) hd fun c => hf c d hd

end

/-- Every command keeps memory in its form. -/
theorem exec_memKept {s : State} (h : memWf s.dev.mem = true) (i : Instr) : MemKept (exec i s) := by
  cases i
  case saeriManagement k =>
    refine onClock_memKept h fun d hd => Dev.saeriArrive_inv (Q := fun m => memWf m = true) hd fun e he => ?_
    split <;> simp [he, hd]
  case read => exact fabWord_memKept h fun c d hd => by simp [hd]
  case write => exact fabWord_memKept h fun c d hd => by simp [hd]
  case inject => exact fabWord_memKept h fun c d hd => by simp [hd]
  case registerWrite via target bytes =>
    cases target
    · exact dict_memKept h
    · exact onClock_memKept h fun d hd => by simp [hd]
  case sw => exact rk_memKept h fun r d hd => rkStore_memWf hd ..
  case sh => exact rk_memKept h fun r d hd => rkStore_memWf hd ..
  case sb => exact rk_memKept h fun r d hd => rkStore_memWf hd ..
  case pciePerst =>
    rintro t ⟨⟩
    exact (congrArg memWf (Dev.pcieReset_mem s.dev)).trans h
  case configStream via bytes =>
    refine onTransport_memKept h fun d hd => ?_
    split
    · next e he => exact Dev.configPass_memWf hd he
    · exact hd
  case transferTimeout => exact onTransport_memKept h fun d hd => by simp [hd]
  all_goals try exact onClock_memKept h fun d hd => by simp [hd]
  all_goals try exact dict_memKept h
  all_goals try exact transfer_memKept h
  all_goals try exact onDev_memKept h fun d hd => by simp [hd]

/-- Settles O55: every command keeps memory in its form, and an idle cycle leaves memory as it is. -/
theorem memoryKeepsItsForm : Obligations.MemoryKeepsItsForm := by
  unfold Obligations.MemoryKeepsItsForm
  intro s t h st
  unfold step at st
  split at st
  · cases st
    simp [h]
  · next rest _ => exact exec_memKept (s := { s with pending := rest }) h _ t st

end Sys2Proof.Machine
end

section
/-! What the traffic of a port changes, and what a cycle of the clock changes (R125, R310, R371). -/

namespace Sys2Proof.Machine

/-! ### The traffic of the ports changes the fabric's state and the ports alone -/

/-- `e` is `d` with another state of the fabric and of its ports. -/
def FabricOnly (d e : Dev) : Prop := e = { d with saeri := e.saeri, ports := e.ports }

theorem FabricOnly.intro (d : Dev) (x : Saeri) (y : Table Port) : FabricOnly d { d with saeri := x, ports := y } := rfl

theorem FabricOnly.refl (d : Dev) : FabricOnly d d := rfl

theorem FabricOnly.trans {d e f : Dev} (h : FabricOnly d e) (k : FabricOnly e f) : FabricOnly d f := by
  unfold FabricOnly at h k ⊢
  rw [h] at k
  exact k

theorem fabricOnly_foldl_carried {α β : Type} {dev : β → Dev} {g : β → α → β} (kept : ∀ b a, FabricOnly (dev b) (dev (g b a))) (l : List α) (b : β) :
    FabricOnly (dev b) (dev (l.foldl g b)) := by
  induction l generalizing b with
  | nil => exact .refl _
  | cons a l ih => exact (kept b a).trans (ih _)

theorem fabricOnly_foldl {α : Type} {g : Dev → α → Dev} (kept : ∀ e a, FabricOnly e (g e a)) (l : List α) (d : Dev) : FabricOnly d (l.foldl g d) :=
  fabricOnly_foldl_carried (dev := fun e => e) kept l d

theorem fabricOnly_leaveTransit (d : Dev) (k : SaeriPkt) : FabricOnly d (d.leaveTransit k) := by
  unfold Dev.leaveTransit
  split <;> rfl

theorem fabricOnly_takePacket (d : Dev) (p : Nat) (k : SaeriPkt) : FabricOnly d (d.takePacket p k) :=
  FabricOnly.trans (e := (d.updPort p fun q => q.useCredit (saeriClass k.op)).leaveTransit k)
    (FabricOnly.trans (e := d.updPort p fun q => q.useCredit (saeriClass k.op)) rfl (fabricOnly_leaveTransit ..)) rfl

theorem fabricOnly_pump (d : Dev) : FabricOnly d d.pump := by
  have next (a : PumpAcc) (e : Nat × SaeriPkt) : FabricOnly a.dev (a.next e).dev := by
    unfold PumpAcc.next
    extract_lets
    split
    · exact .refl _
    · exact fabricOnly_takePacket ..
  have gathered (l : List (Nat × SaeriPkt)) : FabricOnly d (l.foldl PumpAcc.next { dev := d, taken := [], waits := [], blocked := [] }).dev :=
    fabricOnly_foldl_carried (dev := PumpAcc.dev) next l { dev := d, taken := [], waits := [], blocked := [] }
  unfold Dev.pump
  extract_lets of a d1
  exact ((gathered _).trans (f := d1) rfl).trans (fabricOnly_foldl (fun e _ => .intro e _ _) _ _)

theorem fabricOnly_sendSaeri (d : Dev) (k : SaeriPkt) : FabricOnly d (d.sendSaeri k) := by
  unfold Dev.sendSaeri
  extract_lets held
  split
  · rfl
  · split
    · split
      · rfl
      · exact FabricOnly.trans (.intro d _ _) (fabricOnly_pump _)
    · rfl

theorem fabricOnly_sendNotices (d : Dev) (r : Round) (set : Bool) : FabricOnly d (d.sendNotices r set) :=
  fabricOnly_foldl (fun e _ => fabricOnly_sendSaeri e _) _ _

theorem fabricOnly_noticeRound (d : Dev) (r : Round) : FabricOnly d (d.noticeRound r) := by
  unfold Dev.noticeRound
  extract_lets
  split
  · rfl
  · split
    · exact FabricOnly.trans (.intro d _ _) (fabricOnly_sendNotices ..)
    · split
      · exact FabricOnly.trans (.intro d _ _) (fabricOnly_sendNotices ..)
      · rfl

theorem fabricOnly_idleFrames (d : Dev) : FabricOnly d d.idleFrames := by
  refine fabricOnly_foldl (fun e a => ?_) _ _
  split <;> rfl

/-! ### A cycle -/

/-- `e` is `d` after events of a cycle: errors that strike, counters, the words that leave the fabric ports, traffic of the ports. -/
def CycleOnly (d e : Dev) : Prop :=
  e = { d with badWords := e.badWords, latent := e.latent, badObjs := e.badObjs, counters := e.counters, clusters := e.clusters, cores := e.cores,
               saeri := e.saeri, ports := e.ports, draws := e.draws }

theorem CycleOnly.refl (d : Dev) : CycleOnly d d := rfl

theorem CycleOnly.trans {d e f : Dev} (h : CycleOnly d e) (k : CycleOnly e f) : CycleOnly d f := by
  unfold CycleOnly at h k ⊢
  rw [h] at k
  exact k

theorem FabricOnly.cycleOnly {d e : Dev} (h : FabricOnly d e) : CycleOnly d e := by
  unfold FabricOnly at h
  rw [h]
  rfl

theorem cycleOnly_foldl {α : Type} {g : Dev → α → Dev} (kept : ∀ e a, CycleOnly e (g e a)) (l : List α) (d : Dev) : CycleOnly d (l.foldl g d) := by
  induction l generalizing d with
  | nil => exact .refl d
  | cons a l ih => exact (kept d a).trans (ih _)

theorem cycleOnly_bump (d : Dev) (i k n : Nat) : CycleOnly d (d.bump i k n) := by
  unfold Dev.bump
  split <;> rfl

theorem cycleOnly_strike (d : Dev) (u : UpsetAt) : CycleOnly d (d.strike u) := by
  unfold Dev.strike
  extract_lets
  repeat' split
  all_goals rfl

theorem cycleOnly_cacheStrike (d : Dev) (c : Nat) (u : UpsetAt) : CycleOnly d (d.cacheStrike c u) := by
  unfold Dev.cacheStrike
  extract_lets
  split <;> rfl

theorem cycleOnly_tick (d : Dev) (t : Tick) : CycleOnly d (d.tick t) := by
  unfold Dev.tick
  extract_lets d1 d2
  have h1 : CycleOnly d d1 := (cycleOnly_foldl cycleOnly_strike _ _).trans (cycleOnly_foldl (fun e (a : Nat × UpsetAt) => cycleOnly_cacheStrike e a.1 a.2) _ _)
  have h2 : CycleOnly d d2 := h1.trans (f := d2) rfl
  exact ((h2.trans (cycleOnly_bump ..)).trans (cycleOnly_bump ..)).trans (cycleOnly_bump ..)

/-- A cycle without clocks changes nothing (R371). -/
theorem idleCycle_of_no_clocks {d : Dev} (off : d.pins.clocks = false) : idleCycle d = d := if_pos (by simp [off])

/-- A cycle with clocks moves the logic fabric, counts itself, and brings the events of a cycle. -/
theorem idleCycle_of_clocks {d : Dev} (on : d.pins.clocks = true) :
    ∃ logic, CycleOnly { d with logic := logic, cycles := d.cycles + 1 } (idleCycle d) := by
  unfold idleCycle
  rw [if_neg (by simp [on])]
  extract_lets count clusters d0 d1 ticks d2 d3 d4 d5 d6 d7
  refine ⟨d0.logic, ?_⟩
  have h1 : d1 = { d with logic := d0.logic, cycles := d.cycles + 1 } := by
    unfold d1 d0 Dev.fabricCycle
    split <;> rfl
  rw [← h1]
  have h2 : CycleOnly d1 d2 := (cycleOnly_bump ..).trans (cycleOnly_bump ..)
  have h5 : CycleOnly d1 d5 := ((h2.trans (cycleOnly_bump ..)).trans (cycleOnly_bump ..)).trans (cycleOnly_bump ..)
  have h6 : CycleOnly d1 d6 := h5.trans (f := d6) rfl
  have h7 : CycleOnly d1 d7 :=
    h6.trans ((fabricOnly_foldl fabricOnly_noticeRound _ _).trans (fabricOnly_idleFrames _)).cycleOnly
  exact (h7.trans (f := { d7 with draws := d7.draws + 1 }) rfl).trans (cycleOnly_tick ..)

/-- Settles O2: a cycle without clocks changes nothing, and one with clocks changes the fabric logic, the cycle count and what `CycleOnly` names. -/
theorem emptyQueueStepIsOneCycle : Obligations.EmptyQueueStepIsOneCycle := by
  unfold Obligations.EmptyQueueStepIsOneCycle
  intro s empty
  refine ⟨{ s with dev := idleCycle s.dev }, by simp [step, empty], empty, rfl, ?_⟩
  cases clocks : s.dev.pins.clocks with
  | false => simp [idleCycle_of_no_clocks clocks]
  | true =>
    obtain ⟨logic, only⟩ := idleCycle_of_clocks clocks
    unfold CycleOnly at only
    rw [only]
    simp

end Sys2Proof.Machine
end

section
/-! Memory cells: what a byte reads as, and that equal contents are equal lists of cells. -/

namespace Sys2Proof.Machine

/-- A byte reads as a write of a run of bytes left it. -/
theorem memGet_memWrite (m : List Host.Cell) (a : Nat) (b : List Byte) (k : Nat) :
    memGet (memWrite m a b) k = if a ≤ k ∧ k < a + b.length then b.getD (k - a) 0 else memGet m k := by
  induction b generalizing m a with
  | nil => simp [memWrite]
  | cons v b ih =>
    have step : memGet (memWrite m a (v :: b)) k = memGet (memWrite (memPut m a v) (a + 1) b) k := rfl
    rw [step, ih, memGet_memPut, List.length_cons]
    by_cases first : k = a
    · simp [first]
    · by_cases inside : a + 1 ≤ k ∧ k < a + 1 + b.length
      · have next : k - a = k - (a + 1) + 1 := by omega
        rw [if_pos inside, if_pos (by omega), next, List.getD_cons_succ]
      · rw [if_neg inside, if_neg first, if_neg (by omega)]

/-- The entry that a list of rising keys holds for a key. -/
theorem tabFind_eq_some_iff {α : Type} {t : Table α} (rising : t.Pairwise fun x y => x.1 < y.1) (k : Nat) (v : α) :
    tabFind t k = some v ↔ (k, v) ∈ t := by
  induction t with
  | nil => simp [tabFind]
  | cons e t ih =>
    rw [List.pairwise_cons] at rising
    rw [tabFind]
    split
    · next own =>
      subst own
      have later : (e.1, v) ∉ t := fun mem => Nat.lt_irrefl e.1 (rising.1 (e.1, v) mem)
      simp [later, Prod.ext_iff, eq_comm]
    · next other => simp [ih rising.2, Prod.ext_iff, Ne.symm other]

/-- The bytes that a memory in its form lists are those that are not zero. -/
theorem mem_iff_memGet {m : List Host.Cell} (wf : memWf m = true) (e : Host.Cell) : e ∈ m ↔ memGet m e.1 = e.2 ∧ e.2 ≠ 0 := by
  obtain ⟨rising, noZero⟩ := (memWf_iff m).1 wf
  have find := tabFind_eq_some_iff rising e.1
  unfold memGet tabGet
  constructor
  · intro mem
    exact ⟨by rw [(find e.2).2 mem]; rfl, noZero e mem⟩
  · rintro ⟨get, ne⟩
    cases found : tabFind m e.1 with
    | none => exact absurd (by simpa [found] using get.symm) ne
    | some v =>
      have : v = e.2 := by simpa [found] using get
      exact (find e.2).1 (this ▸ found)

/-- Settles O56, by induction on the bytes written, and by the order of the cells of two memories with the same members. -/
theorem memoryReadsWhatWasWritten : Obligations.MemoryReadsWhatWasWritten := by
  unfold Obligations.MemoryReadsWhatWasWritten
  refine ⟨memGet_memWrite, fun m m' wf wf' same => ?_⟩
  have : Std.Irrefl fun x y : Host.Cell => x.1 < y.1 := ⟨fun x => Nat.lt_irrefl x.1⟩
  have : Std.Antisymm fun x y : Host.Cell => x.1 < y.1 := ⟨fun x y h k => absurd h (Nat.lt_asymm k)⟩
  exact ((memWf_iff m).1 wf).1.eq_of_mem_iff ((memWf_iff m').1 wf').1 fun e => by rw [mem_iff_memGet wf, mem_iff_memGet wf', same]

end Sys2Proof.Machine
end

section
/-! The results of the Reckoner's instructions (R181, R182): the values of the model's word operations, and the instructions one by one. -/

namespace Sys2Proof.Machine

/-! ### Word operations as the manual states them -/

theorem ofBit_slt (a b : Word) : ofBit (a.slt b) = if a.toInt < b.toInt then 1 else 0 := by simp [ofBit, BitVec.slt]
theorem ofBit_ult (a b : Word) : ofBit (a.ult b) = if a.toNat < b.toNat then 1 else 0 := by simp [ofBit, BitVec.ult]

theorem sshiftRight_eq_ofInt_div (a : Word) (n : Nat) : a.sshiftRight n = BitVec.ofInt 32 (a.toInt / 2 ^ n) := by
  rw [BitVec.sshiftRight, Int.shiftRight_eq_div_pow, Nat.cast_pow, Nat.cast_ofNat]

theorem min_eq_ofInt (a b : Word) : (if a.slt b then a else b) = BitVec.ofInt 32 (min a.toInt b.toInt) := by
  rw [BitVec.slt]
  by_cases h : a.toInt < b.toInt
  · simp [h, min_eq_left h.le]
  · simp [h, min_eq_right (not_lt.1 h)]

theorem max_eq_ofInt (a b : Word) : (if a.slt b then b else a) = BitVec.ofInt 32 (max a.toInt b.toInt) := by
  rw [BitVec.slt]
  by_cases h : a.toInt < b.toInt
  · simp [h, max_eq_right h.le]
  · simp [h, max_eq_left (not_lt.1 h)]

/-! ### NORM -/

/-- NORM's count is the index of the first bit below bit 31 that differs from it. -/
theorem rkNormBits_eq_findIdx (w : Word) : rkNormBits w = (List.range 31).findIdx fun i => !(w.getLsbD (30 - i) == w.msb) := by
  have le : (List.range 31).findIdx (fun i => !(w.getLsbD (30 - i) == w.msb)) ≤ 31 := by simpa using List.findIdx_le_length (xs := List.range 31)
  rw [rkNormBits, List.takeWhile_eq_take_findIdx_not, List.length_take, List.length_range, Nat.min_eq_left le]

/-- NORM's count: the bits below bit 31 that equal it. -/
theorem rkNormBits_spec (w : Word) :
    rkNormBits w ≤ 31 ∧ (∀ k < rkNormBits w, w.getLsbD (30 - k) = w.msb) ∧ (rkNormBits w < 31 → w.getLsbD (30 - rkNormBits w) ≠ w.msb) := by
  rw [rkNormBits_eq_findIdx]
  refine ⟨by simpa using List.findIdx_le_length (xs := List.range 31), fun k below => ?_, fun lt => ?_⟩
  · simpa using List.not_of_lt_findIdx below
  · have found := List.findIdx_getElem (xs := List.range 31) (w := by simpa using lt)
    rw [List.getElem_range] at found
    simpa using found

theorem rkArgs_c (d : Dev) (c : CoreId) : rkField (rkArgs (rkBankOf d c) (rkWordOf d c)).w 10 6 = (rkWordOf d c).toNat / 2 ^ 6 % 32 := by
  simp [rkArgs, rkField, bits]

/-- Settles O5: each instruction by its effect on the operands, NORM by what its count of sign bits is. -/
theorem reckonerResults : Obligations.ReckonerResults := by
  unfold Obligations.ReckonerResults
  refine ⟨fun s c => ?_, fun s c => ?_, fun s c h => ?_⟩
  · refine ⟨?_, ?_, ?_, ?_, ?_, ?_, ?_, ?_, ?_, ?_, ?_, ?_, ?_, ?_, ?_, ?_, ?_⟩
    all_goals
      intro h
      refine rkAlu_gives h _ _ ?_
      simp only [rkArgs_a, rkArgs_b]
    · exact sshiftRight_eq_ofInt_div ..
    · exact ofBit_slt ..
    · exact ofBit_ult ..
    · exact BitVec.eq_of_toNat_eq (by simp)
    · exact min_eq_ofInt ..
    · exact max_eq_ofInt ..
    · rfl
    · rfl
  · refine ⟨?_, ?_, ?_, ?_, ?_, ?_, ?_, ?_, ?_, ?_⟩
    all_goals
      intro h
      refine rkAlu_gives h _ _ ?_
      simp only [rkArgs_a, rkArgs_imm, rkArgs_uimm]
    · exact ofBit_slt ..
    · exact ofBit_ult ..
    · exact sshiftRight_eq_ofInt_div ..
  · obtain ⟨le, before, at_⟩ := rkNormBits_spec (rkA (rkFetched s c) c)
    refine ⟨_, le, before, at_, rk_gives h _ _ ?_⟩
    simp only [rkNorm, rkArgs_a, rkArgs_rd, rkArgs_c, Dev.updBank, rkThen, Bank.next, Bank.set_pc]

end Sys2Proof.Machine
end

section
/-! Control transfers, accumulators, special registers and loads of the Reckoner (R178 to R189). -/

namespace Sys2Proof.Machine

/-! ### Branches and jumps -/

/-- A transfer to a target that R183 allows goes there. -/
theorem rkJump_of_target {n : Nat} {target : Word} (h : RkTarget target) (link : Bank → Bank) (d : Dev) :
    rkJump n target link d = d.updBank n fun b => { link b with pc := target } := by
  rw [rkJump, badPc_of_target h, if_neg Bool.false_ne_true]

/-- A branch whose condition on its operands is `taken`. -/
theorem rkBranch_gives {s : State} {c : CoreId} {op : RkOp} {test : RkArgs → Bool} {taken : Prop} (h : RkIssues s c op)
    (same : test (rkArgs (rkBankOf (rkFetched s c) c) (rkWordOf (rkFetched s c) c)) = true ↔ taken) :
    (taken → RkTarget (rkOffset (rkFetched s c) c) →
      (s.onClock fun d => d.rkIssue c.toNat (some op) (rkBranch c.toNat test)) = .next (s.withDev (rkGoes (rkFetched s c) c (rkOffset (rkFetched s c) c)))) ∧
    (¬taken → (s.onClock fun d => d.rkIssue c.toNat (some op) (rkBranch c.toNat test)) = .next (s.withDev (rkNext (rkFetched s c) c))) := by
  refine ⟨fun yes target => rk_gives h _ _ ?_, fun no => rk_gives h _ _ ?_⟩
  · rw [rkBranch, if_pos (same.2 yes), rkTarget_eq, rkJump_of_target target]
    rfl
  · rw [rkBranch, if_neg (mt same.1 no)]
    rfl

/-- Settles O8: a branch by its test and R183's targets, LOOP by the value it lowers, the jumps by their link. -/
theorem reckonerControlTransfers : Obligations.ReckonerControlTransfers := by
  unfold Obligations.ReckonerControlTransfers
  intro s c d l r goes turned
  refine ⟨fun h => rkBranch_gives h ?_, fun h => rkBranch_gives h ?_, fun h => rkBranch_gives h ?_, fun h => rkBranch_gives h ?_,
    fun h => rkBranch_gives h ?_, fun h => rkBranch_gives h ?_, fun h => ⟨fun ne target => rk_gives h _ _ ?_, fun eq => rk_gives h _ _ ?_⟩,
    fun h target => rk_gives h _ _ ?_, fun h target => rk_gives h _ _ ?_⟩
  all_goals simp only [rkArgs_d, rkArgs_a]
  · simp [l, r, d]
  · simp [l, r, d]
  · simp [l, r, d, BitVec.slt]
  · simp [l, r, d, BitVec.slt]
  · simp [l, r, d, BitVec.ult]
  · simp [l, r, d, BitVec.ult]
  · have down : rkD d c - 1 ≠ 0 := fun zero => ne (show rkD d c = 1 by bv_omega)
    simp only [rkLoop, rkArgs_d, rkArgs_rd]
    rw [if_pos down, rkTarget_eq, rkJump_of_target target]
    rfl
  · have down : ¬(rkD d c - 1 ≠ 0) := by simp [show rkD d c = 1 from eq]
    simp only [rkLoop, rkArgs_d, rkArgs_rd]
    rw [if_neg down]
    simp only [Bank.next, Bank.set_pc]
    rfl
  · rw [rkJal, rkTarget_eq, rkJump_of_target target, rkArgs_rd]
    rfl
  · rw [rkJalr, rkArgs_a, rkArgs_imm, rkJump_of_target target, rkArgs_rd]
    rfl

end Sys2Proof.Machine
end

section
/-! The accumulators and the special registers of the Reckoner (R178, R179, R181, R182). -/

namespace Sys2Proof.Machine

/-! ### Rounding -/

/-- `q` is nearest to `x / P`, and even where two are (R5). -/
def NearestEven (x q P : Int) : Prop := |x - q * P| * 2 ≤ P ∧ (|x - q * P| * 2 = P → q % 2 = 0)

theorem NearestEven.neg {x q P : Int} (h : NearestEven x q P) : NearestEven (-x) (-q) P := by
  have flip : |-x - -q * P| = |x - q * P| := by rw [← abs_neg]; ring_nf
  obtain ⟨near, tie⟩ := h
  refine ⟨by rwa [flip], fun eq => ?_⟩
  rw [flip] at eq
  have := tie eq
  omega

/-- The distances of `q P + r` from the multiples of `P` at either side. -/
theorem abs_sub_mul_of_rem (q r P : Int) (nonneg : 0 ≤ r) (le : r ≤ P) : |q * P + r - q * P| = r ∧ |q * P + r - (q + 1) * P| = P - r := by
  constructor
  · rw [add_sub_cancel_left, abs_of_nonneg nonneg]
  · rw [show q * P + r - (q + 1) * P = -(P - r) by ring, abs_neg, abs_of_nonneg (by omega)]

theorem rneShift_nearestEven (m k : Nat) : NearestEven m (rneShift m k) (2 ^ k : Nat) := by
  have div : (m : Int) = (m / 2 ^ k : Nat) * (2 ^ k : Nat) + (m % 2 ^ k : Nat) := by rw [mul_comm]; exact_mod_cast (Nat.div_add_mod m (2 ^ k)).symm
  have lt := Nat.mod_lt m (Nat.two_pow_pos k)
  have odd : ¬0 < k → 2 ^ k = 1 := fun h => by rw [Nat.eq_zero_of_not_pos h]; rfl
  unfold NearestEven rneShift
  generalize 2 ^ k = P at div lt odd ⊢
  extract_lets q r
  obtain ⟨below, above⟩ := abs_sub_mul_of_rem q r P (by omega) (by omega)
  rw [show (m : Int) = q * P + r from div]
  split
  · next up =>
    rw [Nat.cast_add, Nat.cast_one, above]
    omega
  · split
    · next tie =>
      rcases Nat.mod_two_eq_zero_or_one q with even | odd
      · rw [even, Nat.add_zero, below]
        omega
      · rw [odd, Nat.cast_add, Nat.cast_one, above]
        omega
    · next down =>
      rw [below]
      omega

theorem rneShiftInt_nearestEven (i : Int) (k : Nat) : NearestEven i (rneShiftInt i k) (2 ^ k) := by
  have nat := rneShift_nearestEven i.natAbs k
  rw [Nat.cast_pow, Nat.cast_ofNat] at nat
  unfold rneShiftInt
  split
  · next neg =>
    have := nat.neg
    rwa [Int.ofNat_natAbs_of_nonpos neg.le, neg_neg] at this
  · next pos => rwa [Int.natAbs_of_nonneg (not_lt.1 pos)] at nat

/-! ### The bank in use -/

/-- An update of the bank in use asks its value at that bank alone. -/
theorem rkThen_congr {d : Dev} {c : CoreId} {f g : Bank → Bank} (h : f (rkBankOf d c) = g (rkBankOf d c)) : rkThen d c f = rkThen d c g := by
  have own : (d.core c.toNat).rk.updBank f = (d.core c.toNat).rk.updBank g := by
    unfold rkBankOf Reckoner.bank at h
    unfold Reckoner.updBank
    split <;> simp_all
  rw [rkThen, rkThen, Dev.updBank, Dev.updBank, Dev.updRk, Dev.updRk, Dev.updCore, Dev.updCore, own]

/-! ### The accumulators -/

theorem rkArgs_acc (d : Dev) (c : CoreId) : (rkArgs (rkBankOf d c) (rkWordOf d c)).acc = rkAccNo d c := by simp [RkArgs.acc, rkArgs, rkAccNo, rkField, bits]
theorem rkArgs_sh (d : Dev) (c : CoreId) : (rkArgs (rkBankOf d c) (rkWordOf d c)).sh = rkSh d c := by simp [RkArgs.sh, rkArgs, rkSh, rkField, bits]
theorem rkArgs_sr (d : Dev) (c : CoreId) : rkField (rkArgs (rkBankOf d c) (rkWordOf d c)).w 15 11 = (rkWordOf d c).toNat / 2 ^ 11 % 32 := by
  simp [rkArgs, rkField, bits]

theorem signed_toNat (w : Word) : signed 16 w.toNat = (w.truncate 16).toInt := by
  rw [BitVec.toInt_eq_toNat_cond, BitVec.truncate_eq_setWidth, BitVec.toNat_setWidth, signed]
  split <;> split <;> omega

theorem rkArgs_prod16 (d : Dev) (c : CoreId) : (rkArgs (rkBankOf d c) (rkWordOf d c)).prod16 = rkProduct d c := by
  rw [RkArgs.prod16, rkArgs_a, rkArgs_b, signed_toNat, signed_toNat, rkProduct]

theorem clampInt40_eq (v : Int) : Bank.setAccSat.clampInt40 v = (limit40 v, limit40 v != v) := by
  unfold Bank.setAccSat.clampInt40
  split
  · have : limit40 v = -2 ^ 39 := by unfold limit40; omega
    rw [this]
    refine Prod.ext rfl ?_
    simp
    omega
  · split
    · have : limit40 v = 2 ^ 39 - 1 := by unfold limit40; omega
      rw [this]
      refine Prod.ext rfl ?_
      simp
      omega
    · have : limit40 v = v := by unfold limit40; omega
      simp [this]

theorem Bank.setAccSat_next (b : Bank) (a : Nat) (v : Int) :
    (b.setAccSat a v).next = { b.setAcc a (BitVec.ofInt 40 (limit40 v)) with pc := b.pc + 4, sat := b.sat || limit40 v != v } := by
  have pc : (b.setAcc a (BitVec.ofInt 40 (limit40 v))).pc = b.pc := by unfold Bank.setAcc; split <;> rfl
  rw [Bank.setAccSat, clampInt40_eq, Bank.next, ← pc]

/-- An instruction that gives its accumulator a value, limited to 40 bits. -/
theorem rkAccumulates_gives {s : State} {c : CoreId} {op : RkOp} {f : RkArgs → Dev → Dev} {v : Bank → Int} {w : Int} (h : RkIssues s c op)
    (eff : f (rkArgs (rkBankOf (rkFetched s c) c) (rkWordOf (rkFetched s c) c)) (rkFetched s c) =
      rkThen (rkFetched s c) c fun b => (b.setAccSat (rkAccNo (rkFetched s c) c) (v b)).next)
    (val : v (rkBankOf (rkFetched s c) c) = w) :
    (s.onClock fun d => d.rkIssue c.toNat (some op) f) = .next (s.withDev (rkAccumulates (rkFetched s c) c w)) := by
  refine rk_gives h _ _ (eff.trans (rkThen_congr ?_))
  rw [Bank.setAccSat_next, val]

theorem Bank.set_sat (b : Bank) (r : Nat) (v : Word) : (b.set r v).sat = b.sat := by unfold Bank.set; split <;> rfl

theorem limit32_eq (v : Int) : (if v < -2 ^ 31 then -2 ^ 31 else if 2 ^ 31 - 1 < v then 2 ^ 31 - 1 else v) = limit32 v := by
  unfold limit32
  split
  · omega
  · split <;> omega

theorem truncate_sshiftRight (a : Acc) (n : Nat) : (a.sshiftRight n).truncate 32 = BitVec.ofInt 32 (a.toInt / 2 ^ n) := by
  have shift : a.sshiftRight n = BitVec.ofInt 40 (a.toInt / 2 ^ n) := by
    rw [BitVec.sshiftRight, Int.shiftRight_eq_div_pow, Nat.cast_pow, Nat.cast_ofNat]
  rw [shift]
  apply BitVec.eq_of_toNat_eq
  rw [BitVec.truncate_eq_setWidth, BitVec.toNat_setWidth, BitVec.toNat_ofInt, BitVec.toNat_ofInt]
  omega

/-- Settles O9: the sums limited to 40 bits, the rounding of RND, and the two halves of the accumulator. -/
theorem reckonerAccumulators : Obligations.ReckonerAccumulators := by
  unfold Obligations.ReckonerAccumulators
  intro s c d n
  refine ⟨fun h => rkAccumulates_gives h (v := fun b => (b.acc n).toInt + rkProduct d c) ?_ rfl,
    fun h => rkAccumulates_gives h (v := fun b => (b.acc n).toInt + -1 * rkProduct d c) ?_ (by rw [rkAcc]; ring),
    fun h => rkAccumulates_gives h (v := fun _ => (rkA d c).toInt * 2 ^ rkSh d c) ?_ rfl, fun h => ?_, fun h => rk_gives h _ _ ?_,
    fun h => rk_gives h _ _ ?_⟩
  · simp only [rkMac, rkArgs_acc, rkArgs_prod16, one_mul]
    rfl
  · simp only [rkMac, rkArgs_acc, rkArgs_prod16]
    rfl
  · simp only [rkMta, rkArgs_acc, rkArgs_a, rkArgs_sh]
    rfl
  · obtain ⟨near, tie⟩ := rneShiftInt_nearestEven (rkAcc d c) (rkSh d c)
    refine ⟨_, near, tie, rk_gives h _ _ (rkThen_congr ?_)⟩
    simp only [rkArgs_acc, rkArgs_rd, rkArgs_sh, limit32_eq, Bank.next, Bank.set_pc, Bank.set_sat]
    rfl
  · refine rkThen_congr ?_
    simp only [rkArgs_acc, rkArgs_rd, truncate_sshiftRight, Bank.next, Bank.set_pc]
    rfl
  · refine rkThen_congr ?_
    simp only [rkArgs_acc, rkArgs_rd, Bank.next, Bank.set_pc]
    rfl

/-- An update of a core asks its value at that core alone. -/
theorem Dev.updCore_congr {d : Dev} {n : Nat} {f g : Core → Core} (h : f (d.core n) = g (d.core n)) : d.updCore n f = d.updCore n g := by
  rw [Dev.updCore, Dev.updCore, h]

/-! ### Special registers, WAIT and PREL -/

/-- ST's fields as the manual places them (R178). -/
theorem special_st (d : Dev) (c : CoreId) :
    d.special c.toNat 0 = BitVec.ofNat 32 ((rkBankOf d c).rot.toNat * 2 ^ 12 + (if (d.core c.toNat).rk.inShadow then 2 ^ 11 else 0) +
      (if (d.core c.toNat).rk.abank then 2 ^ 10 else 0) + (if (rkBankOf d c).sat then 1 else 0)) := rfl

/-- The descriptor in patch, as registers 3 and 4 name it (R179). -/
theorem special_of_patch {d : Dev} {n : Nat} {x : Desc} (shadow : (d.core n).rk.inShadow = true) (patch : (d.core n).patchQ.head?.bind d.desc? = some x) :
    d.special n 3 = BitVec.ofNat 32 (x.key.stream * 2 ^ 16 + x.key.slot) ∧ d.special n 4 = x.round := by
  simp [Dev.special, shadow, patch]

/-- Outside a patch they read 0 (R179). -/
theorem special_of_main {d : Dev} {n : Nat} (main : (d.core n).rk.inShadow = false) : d.special n 3 = 0 ∧ d.special n 4 = 0 := by
  simp [Dev.special, main]

theorem bits_15_12 (v : Nat) : BitVec.ofNat 4 (bits v 15 12) = BitVec.ofNat 4 (v / 2 ^ 12) := BitVec.eq_of_toNat_eq (by simp [bits])

/-- MFS of a special register that reads `v`. -/
theorem mfs_gives {s : State} {c : CoreId} {sr : Nat} {v : Word} (h : RkIssues s c .mfs)
    (names : (rkWordOf (rkFetched s c) c).toNat / 2 ^ 11 % 32 = sr) (reads : (rkFetched s c).special c.toNat sr = v) :
    Gives (.mfs c) s (rkWrites (rkFetched s c) c v) := by
  refine rk_gives h _ _ ?_
  simp only [rkMfs, rkArgs_sr, names, reads, rkArgs_rd, Bank.next, Bank.set_pc]
  rfl

/-- Settles O10: WAIT, PREL and MTS by their effects, MFS by what each special register reads. -/
theorem reckonerSystemInstructions : Obligations.ReckonerSystemInstructions := by
  unfold Obligations.ReckonerSystemInstructions
  intro s c d n k sr
  refine ⟨fun h main => rk_gives h _ _ ?_, fun h shadow q rest queue => rk_gives h _ _ ?_,
    fun h => ⟨fun st => mfs_gives h st (special_st d c), fun id => mfs_gives h id rfl, fun ts => mfs_gives h ts rfl, fun three main => mfs_gives h three ?_,
      fun four main => mfs_gives h four ?_, fun shadow x patch => ⟨fun three => mfs_gives h three ?_, fun four => mfs_gives h four ?_⟩⟩,
    fun h => rk_gives h _ _ ?_⟩
  · rw [rkWait, if_neg (ne_true_of_eq_false main)]
    rfl
  · have inShadow : ((rkFetched s c).core c.toNat).rk.inShadow = true := shadow
    have patch : ((rkFetched s c).core c.toNat).patchQ = q :: rest := queue
    have drop : (d.updCore n fun x => { x with rk := { x.rk with shadow := x.rk.shadow.next }.leaveShadow, patchQ := x.patchQ.drop 1 }) =
        d.updCore n fun x => { x with rk := { x.rk with shadow := x.rk.shadow.next, inShadow := false }, patchQ := rest } :=
      Dev.updCore_congr (by rw [queue]; rfl)
    rw [rkPrel, inShadow, patch]
    exact congrArg (Dev.setStage · q .frozen) drop
  · exact (special_of_main main).1
  · exact (special_of_main main).2
  · exact (special_of_patch shadow patch).1
  · exact (special_of_patch shadow patch).2
  · simp only [rkMts, rkArgs_a, bits_15_12]
    rfl

end Sys2Proof.Machine
end

section
/-! Loads and stores of the Reckoner, and its faults (R183 to R186, R197). -/

namespace Sys2Proof.Machine

/-! ### Loads -/

theorem signExtend_eq_ofInt_signed {w : Nat} (pos : 0 < w) (v : Nat) : (BitVec.ofNat w v).signExtend 32 = BitVec.ofInt 32 (signed w v) := by
  have half : 2 ^ w = 2 * 2 ^ (w - 1) := by rw [← Nat.pow_succ']; congr 1; omega
  have value : (BitVec.ofNat w v).toInt = signed w v := by
    rw [BitVec.toInt_eq_toNat_cond, BitVec.toNat_ofNat, signed, half]
    split <;> split <;> omega
  rw [BitVec.signExtend, value]

/-- A check of words leaves the bank in use and the word in it. -/
theorem rkFirst_touches (d : Dev) (c : CoreId) (size : Nat) : rkFirst (rkTouches d c size) c = rkFirst d c := by
  have core (n : Nat) : (rkTouches d c size).core n = d.core n := by unfold Dev.core; rw [rkTouches, correct_cores]
  unfold rkFirst rkWordOf Dev.rkWordAt
  rw [core, rkTouches, correct_mem]

/-- A load that R183 allows delivers `f` of the bytes it reads. -/
theorem rkLoad_gives {s : State} {c : CoreId} {op : RkOp} {size : Nat} {f : Nat → Word} (h : RkIssues s c op) (data : RkData (rkFetched s c) c size)
    (sound : RkSound (rkFetched s c) c) :
    (s.onClock fun d => d.rkIssue c.toNat (some op) (rkLoad c.toNat size f)) =
      .next (s.withDev (rkLoads (rkFetched s c) c size (f (leNat (rkBytes (rkFetched s c) c size))))) := by
  have bad : (rkFetched s c).rkBad (rkWindow c.toNat + (rkA (rkFetched s c) c + rkSext (rkFetched s c) c).toNat) = false := sound
  refine rk_gives h _ _ ?_
  rw [rkLoad, rkArgs_a, rkArgs_imm, badDataAddr_of_data data, if_neg Bool.false_ne_true, bad, if_neg Bool.false_ne_true, rkArgs_rd, rkLoads, rkWrites,
    rkFirst_touches]
  simp only [Bank.next, Bank.set_pc]
  rfl

/-! ### Stores -/

/-- A store that R183 allows, outside every declared input. -/
theorem rkStore_gives {s : State} {c : CoreId} {op : RkOp} {size : Nat} (h : RkIssues s c op) (data : RkData (rkFetched s c) c size) :
    (∀ owners, (rkFetched s c).protectors (rkBase + c.toNat * 0x40000 + rkAddr (rkFetched s c) c) size = owners → owners ≠ [] →
      (s.onClock fun d => d.rkIssue c.toNat (some op) (rkStore c.toNat size)) = .next (s.withDev (rkNext ((rkFetched s c).failInputs owners) c))) ∧
    ((rkFetched s c).protectors (rkBase + c.toNat * 0x40000 + rkAddr (rkFetched s c) c) size = [] → RkSound (rkFetched s c) c →
      (s.onClock fun d => d.rkIssue c.toNat (some op) (rkStore c.toNat size)) = .next (s.withDev (rkStores (rkFetched s c) c size))) := by
  have place : rkWindow c.toNat + (rkA (rkFetched s c) c + rkSext (rkFetched s c) c).toNat = rkBase + c.toNat * 0x40000 + rkAddr (rkFetched s c) c := rfl
  refine ⟨fun owners own some => rk_gives h _ _ ?_, fun none sound => rk_gives h _ _ ?_⟩
  · rw [rkStore, rkArgs_a, rkArgs_imm, badDataAddr_of_data data, if_neg Bool.false_ne_true]
    dsimp only
    rw [place, own, if_pos some]
    rfl
  · have bad : (rkFetched s c).rkBad (rkBase + c.toNat * 0x40000 + rkAddr (rkFetched s c) c) = false := sound
    rw [rkStore, rkArgs_a, rkArgs_imm, badDataAddr_of_data data, if_neg Bool.false_ne_true]
    dsimp only
    rw [place, none, if_neg (by simp), bad, if_neg Bool.false_ne_true, correct_mem, rkArgs_d]
    rfl

/-! ### The image of the descriptor in patch -/

theorem rkImage_of_patch {d : Dev} {c : CoreId} {x : Desc} {size : Nat} (h : RkPatch d c x size) (f : Desc → Nat → Dev) :
    rkImage c.toNat size (rkArgs (rkBankOf d c) (rkWordOf d c)) d f = f x (rkAddr d c) := by
  obtain ⟨shadow, patch, inside, aligned⟩ := h
  obtain ⟨q, rest, queue⟩ : ∃ q rest, (d.core c.toNat).patchQ = q :: rest := by
    cases hq : (d.core c.toNat).patchQ with
    | nil => simp [hq] at patch
    | cons q rest => exact ⟨q, rest, rfl⟩
  rw [queue] at patch
  have desc : d.desc? q = some x := patch
  have range : ¬(319 < rkAddr d c + size - 1 ∨ rkAddr d c % size ≠ 0) := by omega
  unfold rkAddr at range
  rw [rkImage, rkArgs_a, rkArgs_imm, shadow, if_neg (by decide), if_neg range, queue]
  simp only [Dev.withDesc, desc]
  rfl

/-- Settles O7: what each load delivers, what each store writes, and the patch image's. -/
theorem reckonerLoadsAndStores : Obligations.ReckonerLoadsAndStores := by
  unfold Obligations.ReckonerLoadsAndStores
  refine ⟨fun s c => ⟨fun h data sound => rkLoad_gives h data sound, fun h data sound => ?_, fun h data sound => rkLoad_gives h data sound,
    fun h data sound => ?_, fun h data sound => rkLoad_gives h data sound, fun h data => rkStore_gives h data, fun h data => rkStore_gives h data,
    fun h data => rkStore_gives h data⟩, fun s c x => ⟨fun h patch => rk_gives h _ _ ?_, fun h patch => rk_gives h _ _ ?_,
    fun h patch => rk_gives h _ _ ?_, fun h patch => rk_gives h _ _ ?_⟩⟩
  · rw [signExtend_eq_ofInt_signed (by decide)]
    exact rkLoad_gives h data sound
  · rw [signExtend_eq_ofInt_signed (by decide)]
    exact rkLoad_gives h data sound
  · rw [rkImageLoad, rkImage_of_patch patch, rkArgs_rd]
    simp only [Bank.next, Bank.set_pc]
    rfl
  · rw [rkImageLoad, rkImage_of_patch patch, rkArgs_rd]
    simp only [Bank.next, Bank.set_pc]
    rfl
  · rw [rkImageStore, rkImage_of_patch patch, rkArgs_d]
    rfl
  · rw [rkImageStore, rkImage_of_patch patch, rkArgs_d]
    rfl

/-! ### Faults -/

/-- The device once the Reckoner of a core has stopped with a cause and every descriptor queued for a patch has failed (R185). -/
def rkFaults (d : Dev) (c : CoreId) (cause : Byte) : Dev :=
  let k := (d.core c.toNat).rk
  (d.core c.toNat).patchQ.foldl (fun d q => d.failDesc q .badDescriptor)
    (d.updCore c.toNat fun x =>
      { x with patchQ := [], rk := { k with mode := .faulted, cause := cause, faultPc := (rkBankOf d c).pc.truncate 14, inShadow := false,
                                            waiting := false } })

theorem rkFault_eq (d : Dev) (c : CoreId) (cause : Byte) : d.rkFault c.toNat cause = rkFaults d c cause := by
  unfold Dev.rkFault rkFaults
  exact congrArg (List.foldl _ · _) (Dev.updCore_congr rfl)

theorem badPc_of_not_target {p : Word} (h : ¬RkTarget p) : badPc p = true := by
  simp only [badPc, Bool.or_eq_true, decide_eq_true_eq, bne_iff_ne]
  unfold RkTarget at h
  omega

theorem badDataAddr_of_not_data {d : Dev} {c : CoreId} {size : Nat} (h : ¬RkData d c size) : badDataAddr (rkA d c + rkSext d c) size = true := by
  simp only [badDataAddr, Bool.or_eq_true, decide_eq_true_eq, bne_iff_ne]
  unfold RkData rkAddr at h
  omega

/-- The shared front of every instruction, where the word that issues is not `none`'s. -/
theorem rkIssue_of_fetches {s : State} {c : CoreId} (h : RkFetches s c) (f : RkArgs → Dev → Dev) :
    s.dev.rkIssue c.toNat (rkDecode (rkWordOf s.dev c)) f = f (rkArgs (rkBankOf s.dev c) (rkWordOf s.dev c)) (rkFetched s c) := by
  obtain ⟨-, awake, running, bank, range, aligned, sound⟩ := h
  have issues : s.dev.rkIssues c.toNat = true := by
    rw [Dev.rkIssues, Dev.awake, clusterOf, awake, Core.rkIssues, running]
    rcases bank with shadow | ⟨ready, empty⟩
    · simp [shadow]
    · simp [ready, empty]
  unfold Dev.rkIssue
  extract_lets k
  have pc : badPc k.rk.bank.pc = false := badPc_of_target ⟨range, aligned⟩
  have word : s.dev.rkBad (k.rk.ibase c.toNat + k.rk.bank.pc.toNat) = false := sound
  rw [issues, if_neg (by decide), pc, if_neg (by decide), word, if_neg (by decide),
    if_pos (show rkDecode (s.dev.rkWordAt c.toNat) = rkDecode (rkWordOf s.dev c) from rfl)]
  rfl

/-- A word that is no instruction. -/
theorem illegalEncoding_gives {s : State} {c : CoreId} (h : RkFetches s c) (illegal : rkDecode (rkWordOf (rkFetched s c) c) = none) :
    Gives (.illegalEncoding c) s (rkFaults (rkFetched s c) c 0x01) := by
  have issued := rkIssue_of_fetches h fun _ d => d.rkFault c.toNat 0x01
  rw [← rkWordOf_fetched, illegal, rkFault_eq] at issued
  exact (onClock_gives h.1).trans (congrArg (fun d => Host.Outcome.next (s.withDev d)) issued)

theorem rkFault_gives {s : State} {c : CoreId} {op : RkOp} {f : RkArgs → Dev → Dev} {cause : Byte} (h : RkIssues s c op)
    (faults : f (rkArgs (rkBankOf (rkFetched s c) c) (rkWordOf (rkFetched s c) c)) (rkFetched s c) = (rkFetched s c).rkFault c.toNat cause) :
    (s.onClock fun d => d.rkIssue c.toNat (some op) f) = .next (s.withDev (rkFaults (rkFetched s c) c cause)) :=
  rk_gives h f _ (faults.trans (rkFault_eq ..))

/-- A load outside data memory, or in the main bank of a word that cannot be corrected. -/
theorem rkLoad_faults {s : State} {c : CoreId} {op : RkOp} {size : Nat} {f : Nat → Word} {cause : Byte} (h : RkIssues s c op)
    (why : (¬RkData (rkFetched s c) c size ∧ cause = 0x02) ∨
      (((rkFetched s c).core c.toNat).rk.inShadow = false ∧ RkData (rkFetched s c) c size ∧ ¬RkSound (rkFetched s c) c ∧ cause = 0x10)) :
    (s.onClock fun d => d.rkIssue c.toNat (some op) (rkLoad c.toNat size f)) = .next (s.withDev (rkFaults (rkFetched s c) c cause)) := by
  refine rkFault_gives h ?_
  rw [rkLoad, rkArgs_a, rkArgs_imm]
  rcases why with ⟨outside, rfl⟩ | ⟨main, data, unsound, rfl⟩
  · rw [if_pos (badDataAddr_of_not_data outside)]
  · have bad : (rkFetched s c).rkBad (rkWindow c.toNat + (rkA (rkFetched s c) c + rkSext (rkFetched s c) c).toNat) = true := by
      exact Bool.eq_true_of_not_eq_false unsound
    rw [badDataAddr_of_data data, if_neg Bool.false_ne_true, if_pos bad, Dev.rkGuardError, main, if_neg Bool.false_ne_true]

theorem rkStore_faults {s : State} {c : CoreId} {op : RkOp} {size : Nat} (h : RkIssues s c op) (outside : ¬RkData (rkFetched s c) c size) :
    (s.onClock fun d => d.rkIssue c.toNat (some op) (rkStore c.toNat size)) = .next (s.withDev (rkFaults (rkFetched s c) c 0x02)) := by
  refine rkFault_gives h ?_
  rw [rkStore, rkArgs_a, rkArgs_imm, if_pos (badDataAddr_of_not_data outside)]

/-- An access to the image outside a patch, or outside the image. -/
theorem rkImage_faults {d : Dev} {c : CoreId} {size : Nat} {cause : Byte} (pos : 0 < size) (f : Desc → Nat → Dev)
    (why : ((d.core c.toNat).rk.inShadow = false ∧ cause = 0x05) ∨
      ((d.core c.toNat).rk.inShadow = true ∧ ¬(rkAddr d c + size ≤ 320 ∧ rkAddr d c % size = 0) ∧ cause = 0x04)) :
    rkImage c.toNat size (rkArgs (rkBankOf d c) (rkWordOf d c)) d f = d.rkFault c.toNat cause := by
  rw [rkImage, rkArgs_a, rkArgs_imm]
  rcases why with ⟨main, rfl⟩ | ⟨shadow, outside, rfl⟩
  · rw [main, if_pos (by decide)]
  · have range : 319 < rkAddr d c + size - 1 ∨ rkAddr d c % size ≠ 0 := by omega
    unfold rkAddr at range
    rw [shadow, if_neg (by decide), if_pos range]

/-- A transfer to a target that R183 does not allow. -/
theorem rkJump_faults {n : Nat} {target : Word} (h : ¬RkTarget target) (link : Bank → Bank) (d : Dev) : rkJump n target link d = d.rkFault n 0x03 := by
  rw [rkJump, if_pos (badPc_of_not_target h)]

theorem rkBranch_faults {s : State} {c : CoreId} {op : RkOp} {test : RkArgs → Bool} (h : RkIssues s c op)
    (taken : test (rkArgs (rkBankOf (rkFetched s c) c) (rkWordOf (rkFetched s c) c)) = true) (away : ¬RkTarget (rkOffset (rkFetched s c) c)) :
    (s.onClock fun d => d.rkIssue c.toNat (some op) (rkBranch c.toNat test)) = .next (s.withDev (rkFaults (rkFetched s c) c 0x03)) := by
  refine rkFault_gives h ?_
  rw [rkBranch, if_pos taken, rkTarget_eq, rkJump_faults away]

/-- Settles O11: every cause of R185 ends in the same stop. -/
theorem reckonerFaults : Obligations.ReckonerFaults := by
  unfold Obligations.ReckonerFaults
  intro s c i cause d k l r away data store image why
  rcases why with ⟨fetches, illegal, rfl, rfl⟩ | ⟨h, rfl, why⟩ | ⟨h, rfl, why⟩ | ⟨h, rfl, why⟩ | ⟨h, rfl, why⟩ | ⟨h, rfl, why⟩ | ⟨h, rfl, outside, rfl⟩ |
    ⟨h, rfl, outside, rfl⟩ | ⟨h, rfl, outside, rfl⟩ | ⟨h, rfl, why⟩ | ⟨h, rfl, why⟩ | ⟨h, rfl, why⟩ | ⟨h, rfl, why⟩ | ⟨h, taken, target, rfl, rfl⟩ |
    ⟨h, taken, target, rfl, rfl⟩ | ⟨h, taken, target, rfl, rfl⟩ | ⟨h, taken, target, rfl, rfl⟩ | ⟨h, taken, target, rfl, rfl⟩ | ⟨h, taken, target, rfl, rfl⟩ |
    ⟨h, taken, target, rfl, rfl⟩ | ⟨h, taken, target, rfl, rfl⟩ | ⟨h, target, rfl, rfl⟩ | ⟨h, shadow, rfl, rfl⟩ | ⟨h, main, rfl, rfl⟩
  case inl => exact illegalEncoding_gives fetches illegal
  iterate 5 exact rkLoad_faults h why
  iterate 3 exact rkStore_faults h outside
  iterate 4 exact rkFault_gives h (rkImage_faults (by decide) _ why)
  iterate 6 exact rkBranch_faults h (by simpa [rkArgs_d, rkArgs_a, BitVec.slt, BitVec.ult] using taken) target
  · refine rkFault_gives h ?_
    have down : rkD d c - 1 ≠ 0 := fun zero => taken (show rkD d c = 1 by bv_omega)
    simp only [rkLoop, rkArgs_d]
    rw [if_pos down, rkTarget_eq, rkJump_faults target]
  · refine rkFault_gives h ?_
    rw [rkJal, rkTarget_eq, rkJump_faults target]
  · refine rkFault_gives h ?_
    rw [rkJalr, rkArgs_a, rkArgs_imm, rkJump_faults target]
  · refine rkFault_gives h ?_
    rw [rkWait, if_pos shadow]
  · refine rkFault_gives h ?_
    rw [rkPrel, if_pos (by rw [show ((rkFetched s c).core c.toNat).rk.inShadow = false from main]; rfl)]

end Sys2Proof.Machine
end

section
/-! Slate steps of a descriptor that has completed. `Dev.failDesc` leaves the status of a completed descriptor as it is, so that an uncorrectable
word fails its round but not the step: the model writes the step's results and goes on to the next one. -/

namespace Sys2Proof.Machine

/-- A device in user mode with its clocks running. -/
def clockedDev : Dev :=
  { Dev.reset with pins := { Pins.reset with clocks := true, pllLocked := true }, cfg := { Cfg.reset with state := 5, phase := 5 } }

/-- A round of one device, running since cycle 0. -/
def soleRound : Round :=
  { number := 5, rslot := 0, rrec := 0, peerGroup := 0, inputs := [], streams := 1, runs := [], attempt := 0, settings := [], phase := .running,
    cause := none, nodesUsed := [], causeAt := 0, later := none, lastStatus := none, endings := [], undelivered := [], recorded := [],
    hold := .none, increments := [], deps := [], waitRegions := [] }

/-- Slot 0 of stream 0. -/
def firstKey : DescKey := { stream := 0, slot := 0 }

/-- A completed SLATE of two steps with VL 5 (R104, R120), the first of this opcode and type, with DST 1 and A 0. -/
def spentSlate (op type : Nat) : Desc :=
  { newDesc firstKey 5 0 true [] with
    image := leBytes 8 0x502000002 ++ List.replicate 80 0 ++ leBytes 8 (4 * 2 ^ 40) ++ leBytes 4 (op * 2 ^ 24 + 2 ^ 19 + type) ++ List.replicate 348 0
    stage := .completed }

/-- The slate job at the first step of that descriptor. -/
def spentJob : SlateJob := newSlateJob firstKey 5 false

/-- Core 0's slate engine stands at the first step of the completed descriptor. -/
def spentState (op type : Nat) : State :=
  { State.reset with dev := { clockedDev.updSlate 0 (fun e => { e with job := some spentJob }) with descs := [spentSlate op type], rounds := [soleRound] } }

/-- A check of the step's reads meets a word that it cannot correct. -/
def uncorrectable : Upset := { corrected := 0, failed := true }

/-- The step at which core 0's slate engine stands after a command. -/
def slatePcAfter : Host.Outcome State Fault Refusal → Option Nat
  | .next s => (s.dev.core 0).slate.job.map SlateJob.pc
  | _ => none

/-- Opcode and type of the steps tried: MOV, SHL, CVT.PN, RSUM and STORE. -/
def spentForms : List (Nat × Nat) := [(0x01, 0), (0x10, 1), (0x1A, 2), (0x30, 1), (0x3D, 0)]

/-- The device that the failure of the completed descriptor alone leaves. -/
def spentFailed (op type : Nat) : Dev :=
  ((slateChecked (spentState op type).dev uncorrectable).failDesc spentJob.key .hwUncorrectable).settle

/-- The slate engine works at each of these steps. -/
theorem slateAt_spent :
    ∀ e ∈ spentForms, SlateAt (spentState e.1 e.2) 0 e.1 spentJob (spentSlate e.1 e.2) soleRound ∧
      ((spentSlate e.1 e.2).stepAt spentJob.pc).type = e.2 ∧ ((spentSlate e.1 e.2).stepAt spentJob.pc).mode = 0 := by decide +kernel

/-- The failure of the completed descriptor leaves the slate engine where it is. -/
theorem slatePcAfter_spentFailed :
    ∀ e ∈ spentForms, slatePcAfter (.next ((spentState e.1 e.2).withDev (spentFailed e.1 e.2))) = some 0 := by decide +kernel

/-- A step that goes on from the completed descriptor does not leave the device that its failure alone leaves. -/
theorem not_gives_spentFailed {op type : Nat} {i : Instr} (h : (op, type) ∈ spentForms)
    (hpc : slatePcAfter (exec i (spentState op type)) = some 1) : ¬ Gives i (spentState op type) (spentFailed op type) := by
  intro g
  rw [g, slatePcAfter_spentFailed _ h] at hpc
  exact absurd hpc (by decide)

/-- Refutes O12: a MOV of a completed descriptor that meets an uncorrectable word goes on to step 1. -/
theorem not_slateArithmeticSteps : ¬ Obligations.SlateArithmeticSteps := by
  unfold Obligations.SlateArithmeticSteps
  intro h
  obtain ⟨at_, type, _⟩ := slateAt_spent (0x01, 0) (by decide)
  obtain ⟨mov, _⟩ := h (spentState 0x01 0) 0 spentJob (spentSlate 0x01 0) soleRound
  obtain ⟨float, _⟩ := mov at_
  exact not_gives_spentFailed (by decide) (by decide +kernel) ((float type).2 uncorrectable rfl)

/-- Refutes O13: a SHL of a completed descriptor that meets an uncorrectable word goes on to step 1. -/
theorem not_slateTypedSteps : ¬ Obligations.SlateTypedSteps := by
  unfold Obligations.SlateTypedSteps
  intro h
  obtain ⟨at_, type, _⟩ := slateAt_spent (0x10, 1) (by decide)
  obtain ⟨shl, _⟩ := h (spentState 0x10 1) 0 spentJob (spentSlate 0x10 1) soleRound
  exact not_gives_spentFailed (by decide) (by decide +kernel) ((shl at_ type).2 uncorrectable rfl)

/-- Refutes O14: a CVT.PN of a completed descriptor that meets an uncorrectable word goes on to step 1. -/
theorem not_slateRearrangingSteps : ¬ Obligations.SlateRearrangingSteps := by
  unfold Obligations.SlateRearrangingSteps
  intro h
  obtain ⟨at_, _⟩ := slateAt_spent (0x1A, 2) (by decide)
  obtain ⟨narrow, _⟩ := h (spentState 0x1A 2) 0 spentJob (spentSlate 0x1A 2) soleRound
  exact not_gives_spentFailed (by decide) (by decide +kernel) ((narrow at_).2 uncorrectable rfl)

/-- Refutes O15: an RSUM of a completed descriptor that meets an uncorrectable word goes on to step 1. -/
theorem not_slateReductionSteps : ¬ Obligations.SlateReductionSteps := by
  unfold Obligations.SlateReductionSteps
  intro h
  obtain ⟨at_, type, mode⟩ := slateAt_spent (0x30, 1) (by decide)
  obtain ⟨sum, _⟩ := h (spentState 0x30 1) 0 spentJob (spentSlate 0x30 1) soleRound mode
  exact not_gives_spentFailed (by decide) (by decide +kernel) ((sum at_ type).2 uncorrectable rfl)

/-- Refutes O17: a STORE of a completed descriptor that meets an uncorrectable word goes on to step 1. -/
theorem not_slateBeamreadAndStore : ¬ Obligations.SlateBeamreadAndStore := by
  unfold Obligations.SlateBeamreadAndStore
  rintro ⟨_, h⟩
  obtain ⟨at_, _⟩ := slateAt_spent (0x3D, 0) (by decide)
  obtain ⟨failed, _⟩ := h (spentState 0x3D 0) 0 spentJob (spentSlate 0x3D 0) soleRound uncorrectable at_
  exact not_gives_spentFailed (by decide) (by decide +kernel) (failed rfl)

end Sys2Proof.Machine
end

section
/-! Array commands on a MATMUL whose descriptor has completed: as with the slate steps, a word that cannot be corrected fails its round but not the
command, which goes on. -/

namespace Sys2Proof.Machine

/-- A completed MATMUL on weight chain 0 (R120, R158). -/
def spentMat : Desc :=
  { newDesc firstKey 5 0 true [] with
    image := leBytes 8 0x502000003 ++ List.replicate 80 0 ++ leBytes 8 (2 ^ 30) ++ List.replicate 352 0, stage := .completed }

/-- Its job in the array: one row, two columns, a reduction extent of one, weights and activations in E4M3. -/
def spentMatJob : MatJob :=
  { newJob spentMat 2 false 5 with
    m := 1, k := 1, batch := 1, rows := [0], window := 1, afmt := 5, loadBlk := 0, finished := 0 }

/-- The round with a weight chain of cores 1 and 0 (R62). -/
def chainRound : Round := { soleRound with settings := [(0x4031 * 256 + 1, [2, 1, 0])] }

/-- The tile of that job as core 1 offers it. -/
def spentTile : ChainTile :=
  { hdr := { format := 5, dclass := dclassOf spentMatJob.depth, kext := 1, oext := 2, rep := false }, chain := 0, round := 5, ordinal := 0, tile := 0,
    codes := [(127, 0), (127, 0)] }

/-- The same tile in the shadow registers, and a vector that has met it. -/
def spentLoad : TileLoad := { key := firstKey, blk := 0, tile := 0, oext := 2, full := true, codes := spentTile.codes }
def spentVec : VecSlot := { key := firstKey, blk := 0, tile := 1, m := 0, drop := false, oext := 2, acts := [], weights := [] }

/-- Core 0 with the completed MATMUL in its array, which otherwise is as `f` makes it; core 1 offers the tile. -/
def spentMatState (f : ArrayEngine → ArrayEngine) : State :=
  { State.reset with
    dev :=
      { (clockedDev.updArray 0 fun a => f { a with job := some spentMatJob }).updCore 1 fun q => { q with chainOut := some spentTile } with
        descs := [spentMat], rounds := [chainRound] } }

/-- The tile and a vector wait to enter the array. -/
def spentRelease : State :=
  spentMatState fun a => { a with shadow := some spentLoad, feeders := [(0, { next := 1, entries := [(0, [.fin false 1 0])] })] }
/-- A vector of the second tile is about to reach the beam. -/
def spentWrite : State := spentMatState fun a => { a with flight := [spentVec] }
/-- The array is empty, and the tile offered. -/
def spentOffer : State := spentMatState id

/-- The vectors under way in core 0's array after a command, and whether its shadow registers hold a tile. -/
def flightAfter : Host.Outcome State Fault Refusal → Option (Nat × Bool)
  | .next s => some ((s.dev.core 0).array.flight.length, (s.dev.core 0).array.shadow.isSome)
  | _ => none

/-- Refutes O19: a vector of a completed MATMUL whose check meets an uncorrectable word enters the array. -/
theorem not_arrayLoadsAndReleases : ¬ Obligations.ArrayLoadsAndReleases := by
  unfold Obligations.ArrayLoadsAndReleases
  rintro ⟨_, h⟩
  have at_ : ReleaseAt spentRelease 0 spentMatJob spentMat chainRound := by decide +kernel
  obtain ⟨_, release⟩ := h spentRelease 0 spentMatJob spentMat chainRound uncorrectable at_
  obtain ⟨_, failed, _⟩ := release (by decide +kernel) (by decide +kernel) spentLoad true (by decide +kernel)
  have g := congrArg flightAfter (failed [.fin false 1 0] (by decide +kernel) rfl)
  exact absurd g (by decide +kernel)

/-- Refutes O20: a vector of a completed MATMUL that meets an uncorrectable beam row is written, and leaves the array. -/
theorem not_beamWrites : ¬ Obligations.BeamWrites := by
  unfold Obligations.BeamWrites
  rintro ⟨h, _⟩
  have at_ : ArrayAt spentWrite 0 spentMatJob spentMat chainRound := by decide +kernel
  obtain ⟨_, write, _⟩ := h spentWrite 0 spentMatJob spentMat chainRound uncorrectable at_
  obtain ⟨failed, _⟩ := write spentVec [] (by decide +kernel) rfl rfl (by decide +kernel) (by decide +kernel)
  have g := congrArg flightAfter (failed (by decide +kernel) rfl)
  exact absurd g (by decide +kernel)

/-- Refutes O22: a tile offered to a completed MATMUL whose check meets an uncorrectable word is taken. -/
theorem not_chainTiles : ¬ Obligations.ChainTiles := by
  unfold Obligations.ChainTiles
  intro h
  have at_ : LoadAt spentOffer 0 spentMatJob spentMat chainRound := by decide +kernel
  obtain ⟨_, taken⟩ := h spentOffer 0 spentMatJob spentMat chainRound spentTile spentMatJob uncorrectable at_
    (by decide +kernel) (by decide +kernel) (by decide +kernel) (by decide +kernel)
  obtain ⟨failed, _⟩ := taken (by decide +kernel) (by decide +kernel) (by decide +kernel) (by decide +kernel) (by decide +kernel)
  have g := congrArg flightAfter (failed rfl)
  exact absurd g (by decide +kernel)

end Sys2Proof.Machine
end

section
/-! The overflow repeat of the bead array (R82 to R84). -/

namespace Sys2Proof.Machine

/-! ### A job put back into its array -/

/-- Counting and an update of a core do not meet. -/
theorem Dev.updCore_bump (d : Dev) (n : Nat) (f : Core → Core) (i s m : Nat) : (d.updCore n f).bump i s m = (d.bump i s m).updCore n f := by
  unfold Dev.bump
  split <;> rfl

/-- The array with every job of `j`'s key replaced by `j`. -/
def ArrayEngine.withPut (a : ArrayEngine) (j : MatJob) : ArrayEngine :=
  { a with job := a.job.map (fun q => if q.key = j.key then j else q), next := a.next.map (fun q => if q.key = j.key then j else q),
           waiting := a.waiting.map fun q => if q.key = j.key then j else q }

theorem Dev.putJob_eq (d : Dev) (n : Nat) (j : MatJob) : d.putJob n j = d.updArray n fun a => a.withPut j := rfl

theorem ArrayEngine.withPut_next_any (a : ArrayEngine) (j : MatJob) :
    ((a.withPut j).next.any fun q => decide (q.key = j.key)) = a.next.any fun q => decide (q.key = j.key) := by
  unfold ArrayEngine.withPut
  cases a.next with
  | none => rfl
  | some q => by_cases h : q.key = j.key <;> simp [h]

/-- A job put back leaves the queues of the feeders as they were. -/
theorem ArrayEngine.feedersOf_withPut (a : ArrayEngine) (j : MatJob) : (a.withPut j).feedersOf j = a.feedersOf j := by
  unfold ArrayEngine.feedersOf
  rw [ArrayEngine.withPut_next_any]
  rfl

theorem ArrayEngine.heads_withPut (a : ArrayEngine) (j : MatJob) (g : Nat) : (a.withPut j).heads j g = a.heads j g := by
  unfold ArrayEngine.heads ArrayEngine.feeder
  rw [ArrayEngine.feedersOf_withPut]

theorem ArrayEngine.tileFor_withPut (a : ArrayEngine) (j : MatJob) : (a.withPut j).tileFor j = a.tileFor j := rfl

theorem ArrayEngine.feedersOf_congr (a : ArrayEngine) {j k : MatJob} (h : j.key = k.key) : a.feedersOf j = a.feedersOf k := by
  simp [ArrayEngine.feedersOf, h]

theorem ArrayEngine.putFeeders_congr (a : ArrayEngine) {j k : MatJob} (h : j.key = k.key) (t : Table Feeder) :
    a.putFeeders j t = a.putFeeders k t := by
  simp [ArrayEngine.putFeeders, h]

/-- The second of two jobs of one key stays. -/
theorem ArrayEngine.withPut_withPut (a : ArrayEngine) {j k : MatJob} (h : j.key = k.key) : (a.withPut j).withPut k = a.withPut k := by
  have e (q : MatJob) : (if (if q.key = k.key then j else q).key = k.key then k else if q.key = k.key then j else q) = if q.key = k.key then k else q := by
    by_cases hq : q.key = k.key <;> simp [hq, h]
  simp [ArrayEngine.withPut, h, Function.comp_def, e]

theorem putJob_putJob (d : Dev) (n : Nat) {j k : MatJob} (h : j.key = k.key) : (d.putJob n j).putJob n k = d.putJob n k := by
  simp only [Dev.putJob_eq, Dev.updArray, Dev.updCore_updCore, ArrayEngine.withPut_withPut _ h]

theorem MatJob.nextVec_key (j : MatJob) : j.nextVec.key = j.key := by unfold MatJob.nextVec; split <;> [rfl; split <;> rfl]

/-! ### A release -/

theorem weightUpset_of_sound (d : Dev) (k : DescKey) {u : Upset} (h : u.failed = false) : d.weightUpset k u = weightsChecked d u := by
  simp [Dev.weightUpset, weightsChecked, h]

/-- The vector that a job releases with the tile and the entries it meets. -/
def MatJob.vector (j : MatJob) (t : TileLoad) (acts : List Val) : VecSlot :=
  { key := j.key, blk := j.blk, tile := j.tile, m := j.rows.getD j.vec 0, drop := false, oext := t.oext, acts := acts,
    weights := t.codes.map (elemVal j.wfmt) }

/-- The head of a queue that a vector of the job takes. -/
def MatJob.takeHead (j : MatJob) (e : Nat × Feeder) : Nat × Feeder :=
  if e.1 < j.rowsUsed j.tile then (e.1, { e.2 with entries := e.2.entries.drop 1 }) else e

/-- The array once a vector of the job has entered it. -/
def ArrayEngine.entered (a : ArrayEngine) (j : MatJob) (t : TileLoad) (switch : Bool) (acts : List Val) : ArrayEngine :=
  ({ a with active := some t, shadow := if switch then none else a.shadow, flight := a.flight ++ [j.vector t acts] }).putFeeders j
    ((a.feedersOf j).map j.takeHead)

theorem ArrayEngine.flight_putFeeders (a : ArrayEngine) (j : MatJob) (t : Table Feeder) : (a.putFeeders j t).flight = a.flight := by
  unfold ArrayEngine.putFeeders
  split <;> rfl

theorem ArrayEngine.flight_entered (a : ArrayEngine) (j : MatJob) (t : TileLoad) (switch : Bool) (acts : List Val) :
    (a.entered j t switch acts).flight = a.flight ++ [j.vector t acts] :=
  ArrayEngine.flight_putFeeders _ _ _

/-- A release whose tile and heads are at hand and whose words can be corrected (R55). -/
theorem release_gives {d : Dev} {n : Nat} {j : MatJob} {u : Upset} {t : TileLoad} {switch : Bool} {acts : List Val}
    (ht : (d.core n).array.tileFor j = some (t, switch)) (ha : (d.core n).array.heads j ((j.blk * j.tiles + j.tile) * j.rows.length + j.vec) = some acts)
    (hu : u.failed = false) (hk : (weightsChecked d u).descOk j.key = true) :
    d.release n j u =
      ((weightsChecked d u).putJob n (if j.tile = 0 ∧ j.vec = 0 then { j with began := d.cycles } else j).nextVec).updArray n fun a =>
        a.entered j t switch acts := by
  unfold Dev.release
  simp only [ht, ha, weightUpset_of_sound _ _ hu, hk]
  rfl

theorem descOk_congr {d e : Dev} (h : e.descs = d.descs) (k : DescKey) : e.descOk k = d.descOk k := by
  simp [Dev.descOk, Dev.desc?, h]

theorem descOk_weightsChecked (d : Dev) (u : Upset) (k : DescKey) : (weightsChecked d u).descOk k = d.descOk k :=
  descOk_congr (by simp [weightsChecked]) k

theorem core_weightsChecked (d : Dev) (u : Upset) (n : Nat) : (weightsChecked d u).core n = d.core n := by
  simp [weightsChecked, Dev.core]

theorem array_updArray_self (d : Dev) (n : Nat) (f : ArrayEngine → ArrayEngine) : ((d.updArray n f).core n).array = f (d.core n).array := by
  simp [Dev.updArray, Dev.core_updCore]

/-- Updates of an array that agree on the array as it stands are equal. -/
theorem Dev.updArray_congr {d : Dev} {n : Nat} {f g : ArrayEngine → ArrayEngine} (h : f (d.core n).array = g (d.core n).array) :
    d.updArray n f = d.updArray n g :=
  Dev.updCore_congr (by rw [h])

theorem array_putJob_self (d : Dev) (n : Nat) (j : MatJob) : ((d.putJob n j).core n).array = (d.core n).array.withPut j :=
  array_updArray_self d n _

/-- The job as its next attempt begins. -/
def MatJob.further (j : MatJob) : MatJob := { j with overflow := false, attempt := j.attempt + 1 }

/-- The job once the first vector of its next attempt has left, at this cycle. -/
def MatJob.restarted (j : MatJob) (cycles : Nat) : MatJob := MatJob.nextVec { j.further with began := cycles }

theorem MatJob.restarted_key (j : MatJob) (cycles : Nat) : (j.restarted cycles).key = j.key := MatJob.nextVec_key _

/-- A drained array with tile 0 and every head at hand begins the next attempt with its first vector (R83). -/
theorem rescaleAttemptStart_gives {s : State} {c : CoreId} {j : MatJob} {x : Desc} {r : Round} {u : Upset} (h : ArrayAt s c j x r)
    (hover : j.overflow = true) (hflight : (s.dev.core c.toNat).array.flight = []) (htile : j.tile = 0) (hvec : j.vec = 0) {t : TileLoad}
    {acts : List Val} (ht : (s.dev.core c.toNat).array.tileFor j.further = some (t, true))
    (ha : (s.dev.core c.toNat).array.heads j.further (j.blk * j.tiles * j.rows.length) = some acts) (hu : u.failed = false) :
    rescaleAttemptStart c.toNat u s.dev =
      (((weightsChecked s.dev u).putJob c.toNat (j.restarted s.dev.cycles)).updArray c.toNat fun a =>
        a.entered j.further t true acts).bump 0x3040 2 (s.dev.cycles - j.began) := by
  have hok : s.dev.descOk j.key = true := by
    obtain ⟨⟨_, _, _, _, hok⟩, _⟩ := h
    exact hok
  have hchecked : weightsChecked (s.dev.putJob c.toNat j.further) u = (weightsChecked s.dev u).putJob c.toNat j.further := Dev.updCore_bump _ _ _ _ _ _
  have hrel := release_gives (d := s.dev.putJob c.toNat j.further) (n := c.toNat) (j := j.further) (u := u) (t := t) (switch := true) (acts := acts)
    (by rw [array_putJob_self]; exact ht)
    (by rw [array_putJob_self, ArrayEngine.heads_withPut, show j.further.tile = 0 from htile, show j.further.vec = 0 from hvec]; exact ha) hu
    (by rw [descOk_weightsChecked]; exact hok)
  rw [if_pos ⟨htile, hvec⟩, hchecked] at hrel
  have hrel' : (s.dev.putJob c.toNat j.further).release c.toNat j.further u =
      (((weightsChecked s.dev u).putJob c.toNat j.further).putJob c.toNat (j.restarted s.dev.cycles)).updArray c.toNat fun a =>
        a.entered j.further t true acts := hrel
  rw [putJob_putJob _ _ (show j.further.key = _ from (j.restarted_key _).symm)] at hrel'
  unfold rescaleAttemptStart
  rw [withJob_of_array h]
  simp only [hover, hflight, Bool.not_true, Bool.false_eq_true, ne_eq, not_true_eq_false, or_self, if_false]
  rw [show (s.dev.putJob c.toNat { j with overflow := false, attempt := j.attempt + 1 }).release c.toNat
    { j with overflow := false, attempt := j.attempt + 1 } u = _ from hrel', if_neg]
  rw [array_updArray_self]
  simp [ArrayEngine.flight_entered]

/-- An array that is drained takes the first vector of the next attempt as its only one. -/
theorem ArrayEngine.entered_of_drained (a : ArrayEngine) {j k : MatJob} (h : k.key = j.key) (hflight : a.flight = []) (t : TileLoad) (acts : List Val) :
    (a.withPut k).entered j t true acts =
      ({ a.withPut k with active := some t, shadow := none, flight := [j.vector t acts] }).putFeeders j ((a.feedersOf j).map j.takeHead) := by
  have hfeed : (a.withPut k).feedersOf j = a.feedersOf j := by
    rw [ArrayEngine.feedersOf_congr _ h.symm, ArrayEngine.feedersOf_withPut, ArrayEngine.feedersOf_congr _ h]
  unfold ArrayEngine.entered
  rw [hfeed, show (a.withPut k).flight = [] from hflight]
  rfl

/-- Settles O21: a repeat attempt starts where the heads of every queue meet tile 0, and a pass is sent again where some member still needs it. -/
theorem overflowRepeats : Obligations.OverflowRepeats := by
  unfold Obligations.OverflowRepeats
  constructor
  · intro s c j x r u h d n a hover hflight htile hvec j1 left t acts ht ha hu
    have hcore : d.core n = s.dev.core n := core_weightsChecked _ _ _
    have hleft : left = j1.takeHead := by
      funext e
      simp only [left, MatJob.takeHead, show j1.tile = 0 from htile]
      rfl
    have hcycles : d.cycles = s.dev.cycles := Dev.bump_cycles _ _ _ _
    have harray : a = (s.dev.core n).array := congrArg Core.array hcore
    refine onEngine_gives h.1.1 ?_
    rw [rescaleAttemptStart_gives h hover (harray ▸ hflight) htile hvec (harray ▸ ht) (harray ▸ ha) hu, hcycles, hleft]
    refine congrArg (Dev.bump · _ _ _) (Dev.updArray_congr ?_)
    have harray' : ((d.putJob n (j.restarted s.dev.cycles)).core n).array = a.withPut (j.restarted s.dev.cycles) := array_putJob_self _ _ _
    have hvector : j1.vector t acts =
        { key := j.key, blk := j.blk, tile := 0, m := j.rows.getD 0 0, drop := false, oext := t.oext, acts := acts, weights := t.codes.map (elemVal j.wfmt) } := by
      simp [MatJob.vector, j1, htile, hvec]
    refine (congrArg (fun b => b.entered j1 t true acts) harray').trans ?_
    rw [ArrayEngine.entered_of_drained a (j := j1) (j.restarted_key s.dev.cycles) hflight t acts, hvector, ← harray']
    rfl
  · intro s c j x r h hchain hown hmay hpos hend hagain
    have hb : s.dev.blockAgain x r j = true := by
      unfold Dev.blockAgain MatJob.remote
      rcases hagain with ⟨h1, h2, h3⟩ | h1 | h1 <;> simp [*]
    refine onEngine_gives h.1.1 ?_
    unfold repeatPassSend
    rw [withLoad_of_load h]
    simp [*]

end Sys2Proof.Machine
end

section
/-! The carry tree across cores (R89 to R91) and its shape (R90). -/

namespace Sys2Proof.Machine

/-! ### Sends and sums -/

theorem beamUpset_of_sound (d : Dev) (k : DescKey) {u : Upset} (h : u.failed = false) : d.beamUpset k u = beamChecked d u := by
  simp [Dev.beamUpset, beamChecked, h]

/-- The rows that `addRows` gives, column by column. -/
theorem addRows_gives (isInt : Bool) (width tagA tagB : Nat) (a b : List Word) :
    let tag := if isInt then max tagA tagB else 0
    let exact (col : Nat) : Int := rneShiftInt (a.getD col 0).toInt (tag - tagA) + rneShiftInt (b.getD col 0).toInt (tag - tagB)
    (addRows isInt width tagA a tagB b).tag = tag ∧
    (addRows isInt width tagA a tagB b).vals = (List.range 64).map (fun col =>
      if width ≤ col then a.getD col 0 else if isInt then (intResult (exact col)).1 else addFp32 (a.getD col 0) (b.getD col 0)) ∧
    (addRows isInt width tagA a tagB b).sat =
      ((List.range 64).filter fun col => isInt && decide (col < width) && (intResult (exact col)).2).length := by
  intro tag exact
  refine ⟨rfl, ?_, ?_⟩
  · simp only [addRows, List.map_map]
    refine List.map_congr_left fun col _ => ?_
    simp only [Function.comp]
    split
    · rfl
    · cases isInt
      · rfl
      · simp only [sat32_eq]
        rfl
  · simp only [addRows, List.filter_map, List.length_map]
    congr 1
    refine List.filter_congr fun col _ => ?_
    simp only [Function.comp]
    by_cases hw : width ≤ col
    · simp [hw]
    · cases isInt
      · simp [hw]
      · simp [hw, sat32_eq, exact, tag]
        omega

/-- The one job of a core sends its next row to the position above it. -/
theorem carrySend_gives {d : Dev} {n : Nat} {j : MatJob} {x : Desc} {r : Round} {blk m t : Nat} (h : d.ctxs n = [(j, x, r)])
    (hsend : nextSend (j, x, r) = some (blk, m)) (ht : (r.carryOf x.carry)[parentOf r.unordered ((r.carryPos x).getD 0)]? = some t) :
    carrySend n d =
      ((d.putRow n (j.rowOf blk m) { (d.core n).beamRow (j.rowOf blk m) with unread := false }).updJob n j.key fun q =>
        { q with sent := q.sent ++ [(blk, m)] }).nocSend
        { vc := 0, dest := endOfCore t, src := endOfCore n, op := 0x06, tag := 0, status := 0, lenm1 := 255, rslot := BitVec.ofNat 7 r.rslot, addr := 0,
          body := .carry (BitVec.ofNat 7 t)
            { group := x.carry, round := x.round, ordinal := x.carryOrd, pos := (r.carryPos x).getD 0, shape := (j.m, j.n, j.batch), blk := blk, row := m,
              isInt := ((d.core n).beamRow (j.rowOf blk m)).isInt, tag := ((d.core n).beamRow (j.rowOf blk m)).tag, mask := BitVec.ofNat 64 x.mask,
              vals := ((d.core n).beamRow (j.rowOf blk m)).vals } } := by
  unfold carrySend
  simp only [h, List.findSome?_cons, hsend, Option.map_some, ht]
  rfl

/-- The device once a partial `m` has entered its row as `w`, with its saturation events. -/
def Dev.partialIn (d : Dev) (n : Nat) (rest : List CarryMsg) (u : Upset) (j : MatJob) (m : CarryMsg) (w : BeamRow) (events : Nat) : Dev :=
  (((beamChecked (d.updCore n fun q => { q with carryIn := rest }) u).putRow n (j.rowOf m.blk m.row) w).updJob n j.key fun q =>
    { q with got := q.got ++ [(m.blk, m.row, m.pos)] }).updDesc j.key fun y => { y with sat := y.sat || 0 < events, nSat := y.nSat + events }

/-- A partial that enters its row leaves the vectors under way. -/
theorem flight_partialIn (d : Dev) (n : Nat) (rest : List CarryMsg) (u : Upset) (j : MatJob) (m : CarryMsg) (w : BeamRow) (events : Nat) :
    ((d.partialIn n rest u j m w events).core n).array.flight = (d.core n).array.flight := by
  have hdesc (e : Dev) (f : Desc → Desc) : (e.updDesc j.key f).core n = e.core n := rfl
  have hbump (e : Dev) : (beamChecked e u).core n = e.core n := by simp [beamChecked, Dev.core]
  unfold Dev.partialIn
  rw [hdesc]
  simp [Dev.updJob, array_updArray_self, Dev.putRow, Dev.core_updCore, hbump]

/-- The oldest partial, if it is due to the one job of its core, is added to its row (R91). -/
theorem carryPartialArrive_gives {d : Dev} {n : Nat} {j : MatJob} {x : Desc} {r : Round} {m : CarryMsg} {rest : List CarryMsg} {u : Upset}
    (h : d.ctxs n = [(j, x, r)]) (hin : (d.core n).carryIn = m :: rest) (hfor : carryFor m (j, x, r) = true) (hbad : carryBad m (j, x, r) = false)
    (hdue : carryDue m (j, x, r) = true) (hok : d.descOk j.key = true) (hu : u.failed = false) :
    let b := (d.core n).beamRow (j.rowOf m.blk m.row)
    let s := addRows j.isInt (j.width m.blk) b.tag b.vals m.tag m.vals
    carryPartialArrive n u d = (d.partialIn n rest u j m { b with tag := s.tag, vals := s.vals } s.sat).portTaken n := by
  intro b s
  have hok' : (beamChecked (d.updCore n fun c => { c with carryIn := rest }) u).descOk j.key = true :=
    (descOk_congr (by simp [beamChecked]) _).trans hok
  have herase : d.updCore n (fun c => { c with carryIn := c.carryIn.erase m }) = d.updCore n fun c => { c with carryIn := rest } :=
    Dev.updCore_congr (by rw [hin, List.erase_cons_head])
  unfold carryPartialArrive
  simp only [h, hin, List.findSome?_cons, List.find?_cons, hfor, hbad, hdue, Bool.or_true, Bool.and_self, Option.map_some, herase]
  simp only [beamUpset_of_sound _ _ hu]
  rw [if_neg (by simp), if_neg]
  · rfl
  · simp [hok']

/-! ### The shape of the tree -/

/-- A position receives from the positions one power of two above it, below its own lowest bit (R90). -/
theorem mem_duesOf (m i p : Nat) : p ∈ duesOf false m i ↔ p < m ∧ ∃ l, l < 12 ∧ i % 2 ^ (l + 1) = 0 ∧ p = i + 2 ^ l := by
  simp only [duesOf, Bool.false_eq_true, if_false, List.mem_filterMap, List.mem_range, Option.ite_none_right_eq_some, Option.some.injEq]
  constructor
  · rintro ⟨l, hl, ⟨hmod, hlt⟩, rfl⟩
    exact ⟨hlt, l, hl, hmod, rfl⟩
  · rintro ⟨hlt, l, hl, hmod, rfl⟩
    exact ⟨l, hl, ⟨hmod, hlt⟩, rfl⟩

/-- Positions whose lower bits are all clear are multiples of the power of two. -/
theorem mod_pow_of_bits_clear {i l : Nat} (h : ∀ k, k < l → i / 2 ^ k % 2 ≠ 1) : i % 2 ^ l = 0 := by
  induction l with
  | zero => simp [Nat.mod_one]
  | succ l ih =>
    have hl := h l (by omega)
    rw [Nat.mod_pow_succ, ih fun k hk => h k (by omega)]
    simp [Nat.mod_two_ne_one.mp hl]

/-- The lowest set bit of a position below 4,096 leads to its parent. -/
theorem parentOf_spec {i : Nat} (hi : i < 4096) (h0 : 0 < i) : ∃ l, l < 12 ∧ i % 2 ^ (l + 1) = 2 ^ l ∧ parentOf false i = i - 2 ^ l := by
  unfold parentOf
  simp only [Bool.false_eq_true, if_false]
  cases hf : (List.range 12).find? fun l => decide (i / 2 ^ l % 2 = 1) with
  | none =>
    rw [List.find?_eq_none] at hf
    have hz : i % 2 ^ 12 = 0 := mod_pow_of_bits_clear fun k hk => by simpa using hf k (by simpa using hk)
    omega
  | some l =>
    obtain ⟨hbit, hmem, hlow⟩ := List.find?_range_eq_some.mp hf
    have hz : i % 2 ^ l = 0 := mod_pow_of_bits_clear fun k hk => by simpa using hlow k hk
    have hbit' : i / 2 ^ l % 2 = 1 := by simpa using hbit
    refine ⟨l, by simpa using hmem, ?_, rfl⟩
    rw [Nat.mod_pow_succ, hz, hbit']
    simp

/-- The position one power of two above a multiple has that power as its lowest set bit. -/
theorem add_pow_mod {q l : Nat} (h : q % 2 ^ (l + 1) = 0) : (q + 2 ^ l) % 2 ^ (l + 1) = 2 ^ l := by
  rw [Nat.add_mod, h, Nat.zero_add, Nat.mod_mod, Nat.mod_eq_of_lt]
  exact Nat.pow_lt_pow_right (by omega) (by omega)

/-- A position has one lowest set bit. -/
theorem lowest_bit_unique {i k l : Nat} (hk : i % 2 ^ (k + 1) = 2 ^ k) (hl : i % 2 ^ (l + 1) = 2 ^ l) : k = l := by
  have lt_false {a b : Nat} (ha : i % 2 ^ (a + 1) = 2 ^ a) (hb : i % 2 ^ (b + 1) = 2 ^ b) (hab : a < b) : False := by
    have hdvd : 2 ^ (a + 1) ∣ 2 ^ (b + 1) := Nat.pow_dvd_pow 2 (by omega)
    have hzero : 2 ^ b % 2 ^ (a + 1) = 0 := Nat.mod_eq_zero_of_dvd (Nat.pow_dvd_pow 2 (by omega))
    have := Nat.mod_mod_of_dvd i hdvd
    rw [hb, hzero, ha] at this
    exact absurd this.symm (Nat.pos_iff_ne_zero.mp (Nat.two_pow_pos a))
  rcases Nat.lt_trichotomy k l with h | h | h
  · exact (lt_false hk hl h).elim
  · exact h
  · exact (lt_false hl hk h).elim

/-- Settles O23: a send and a sum each act on the row that their position names; the tree's shape follows from the levels that divide a position. -/
theorem carryTree : Obligations.CarryTree := by
  unfold Obligations.CarryTree
  refine ⟨?_, ?_⟩
  · intro s c j x r d n hclk hctx
    refine ⟨?_, ?_⟩
    · intro blk m t hsend ht row b
      exact onEngine_gives hclk (carrySend_gives hctx hsend ht)
    · intro m rest u hin hfor hbad hdue hok hu row b tag exact sum events d1
      obtain ⟨htag, hvals, hsat⟩ := addRows_gives j.isInt (j.width m.blk) b.tag m.tag b.vals m.vals
      have hgives := carryPartialArrive_gives hctx hin hfor hbad hdue hok hu
      have hflight : (d1.core n).array.flight = (d.core n).array.flight := flight_partialIn d n rest u j m _ events
      have hd1 : carryPartialArrive n u d = d1.portTaken n := by
        have hrow : (d.core n).beamRow (j.rowOf m.blk m.row) = b := rfl
        rw [hgives, hrow, htag, hvals, hsat]
        rfl
      refine ⟨fun hempty => onEngine_gives hclk ?_, fun hvec => onEngine_gives hclk ?_⟩
      · rw [show s.dev = d from rfl, hd1, Dev.portTaken, hflight, if_pos hempty]
      · rw [show s.dev = d from rfl, hd1, Dev.portTaken, hflight, if_neg hvec]
        rfl
  · intro m i hm hi
    refine ⟨mem_duesOf m i, fun h0 => ?_, fun q _ hq => ?_⟩
    · obtain ⟨l, hl, hlow, hparent⟩ := parentOf_spec (by omega) h0
      have hle : 2 ^ l ≤ i := hlow ▸ Nat.mod_le _ _
      have hpos : 0 < 2 ^ l := Nat.two_pow_pos l
      rw [hparent]
      refine ⟨by omega, (mem_duesOf _ _ _).mpr ⟨hi, l, hl, ?_, by omega⟩⟩
      rw [← hlow]
      exact Nat.mod_eq_zero_of_dvd (Nat.dvd_sub_mod i)
    · obtain ⟨_, k, _, hmod, rfl⟩ := (mem_duesOf _ _ _).mp hq
      obtain ⟨l, _, hlow, hparent⟩ := parentOf_spec (i := q + 2 ^ k) (by omega) (by have := Nat.two_pow_pos k; omega)
      rw [hparent, lowest_bit_unique hlow (add_pow_mod hmod)]
      omega

end Sys2Proof.Machine
end

section
/-! The starts of NOP, COPY, SLATE and MATMUL, and HANDLE_TAKE (R121). -/

namespace Sys2Proof.Machine

theorem Dev.withDesc_of {d : Dev} {k : DescKey} {x : Desc} (h : d.desc? k = some x) (f : Desc → Dev) : d.withDesc k f = f x := by
  simp [Dev.withDesc, h]

theorem Dev.withRound_of {d : Dev} {n : RoundNo} {r : Round} (h : d.round? n = some r) (f : Round → Dev) : d.withRound n f = f r := by
  simp [Dev.withRound, h]

theorem Dev.goOn_of {d : Dev} {k : DescKey} {x : Desc} (h : d.desc? k = some x) (hok : d.descOk k = true) (f : Desc → Dev → Dev) :
    d.goOn k f = f x d := by
  simp [Dev.goOn, hok, Dev.withDesc_of h]

theorem Dev.executed_of_ok {d : Dev} {k : DescKey} (hok : d.descOk k = true) (st : Option Status) :
    d.executed k st = d.updDesc k fun x => { x with stage := .executed, status := st.or x.status } := by
  simp [Dev.executed, hok]

/-- The load engine begins a descriptor that may begin. -/
theorem Dev.begin_of_mayBegin {s : State} {stream : StreamId} {slot : SlotId} {op : Nat} {x : Desc} {r : Round} (h : MayBegin s stream slot op x r)
    (f : Desc → Round → Dev → Dev) :
    s.dev.begin (descKey stream slot) op f = f x r (s.dev.updDesc (descKey stream slot) fun y => { y with begun := true }) := by
  obtain ⟨_, hx, hr, hop, hstage, hhead, hhalt, hwork, hempty⟩ := h
  unfold Dev.begin
  rw [Dev.withDesc_of hx, Dev.withRound_of hr]
  simp [hop, hstage, hhead, hhalt, hwork, hempty]

/-- Its descriptor as the load engine goes on with it. -/
theorem Dev.desc?_begun {d : Dev} {k : DescKey} {x : Desc} (h : d.desc? k = some x) :
    (d.updDesc k fun y => { y with begun := true }).desc? k = some { x with begun := true } :=
  desc?_updDesc_self d k x _ h fun _ => rfl

/-- An update that leaves the key and the status of a descriptor leaves whether it has met a fault. -/
theorem Dev.descOk_updDesc {d : Dev} {k : DescKey} {f : Desc → Desc} (hkey : ∀ y, (f y).key = y.key) (hstatus : ∀ y, (f y).status = y.status) :
    (d.updDesc k f).descOk k = d.descOk k := by
  unfold Dev.descOk
  rw [Dev.desc?_updDesc _ _ _ _ hkey]
  cases d.desc? k with
  | none => rfl
  | some y => by_cases h : y.key = k <;> simp [h, hstatus]

theorem Dev.descOk_begun {d : Dev} {k : DescKey} : (d.updDesc k fun y => { y with begun := true }).descOk k = d.descOk k :=
  Dev.descOk_updDesc (f := fun y => { y with begun := true }) (fun _ => rfl) fun _ => rfl

/-- A descriptor that has begun and then runs. -/
theorem Dev.setStage_begun (d : Dev) (n : Nat) (f : ArrayEngine → ArrayEngine) (k : DescKey) (st : Stage) :
    ((d.updDesc k fun y => { y with begun := true }).updArray n f).setStage k st =
      (d.updDesc k fun y => { y with begun := true, stage := st }).updArray n f := by
  have e (y : Desc) : (if (if y.key = k then { y with begun := true } else y).key = k
      then { (if y.key = k then { y with begun := true } else y) with stage := st } else if y.key = k then { y with begun := true } else y) =
      if y.key = k then { y with begun := true, stage := st } else y := by
    by_cases h : y.key = k <;> simp [h]
  simp only [Dev.setStage, Dev.updDesc, Dev.updArray, Dev.updCore, List.map_map, Function.comp_def, e]
  rfl

/-- A descriptor whose views name no handle ring takes no buffer and no handle. -/
theorem takeOut_of_no_ring {d : Dev} {x : Desc} (h : d.ringAt (x.view 2).base = none) : d.takeOut x = d := by
  simp [Dev.takeOut, h]

theorem untaken_of_no_ring {d : Dev} {x : Desc} (h : ∀ e, e < 3 → d.ringAt (x.view e).base = none) : d.untaken x = [] := by
  simp [Dev.untaken, h 0 (by omega), h 1 (by omega)]

theorem bindOf_of_no_ring {d : Dev} {x : Desc} {v : Nat} (h : d.ringAt (x.view v).base = none) : d.bindOf x v = none := by
  simp [Dev.bindOf, h]

/-- The descriptor that stores for a carry group is the same one, whatever has begun. -/
theorem find?_begun (l : List Desc) (k : DescKey) (p : Desc → Bool) (hp : ∀ y : Desc, p { y with begun := true } = p y) :
    (l.map fun y => if y.key = k then { y with begun := true } else y).find? p =
      (l.find? p).map fun y => if y.key = k then { y with begun := true } else y := by
  rw [List.find?_map]
  congr 2
  funext y
  by_cases h : y.key = k
  · simp only [Function.comp, if_pos h, hp]
  · simp only [Function.comp, if_neg h]

/-- N of a MATMUL does not depend on what its descriptors have begun. -/
theorem nOf_begun (d : Dev) (k : DescKey) (x : Desc) (r : Round) :
    (d.updDesc k fun y => { y with begun := true }).nOf { x with begun := true } r = d.nOf x r := by
  have hext : Desc.nExt ∘ (fun y : Desc => if y.key = k then { y with begun := true } else y) = Desc.nExt := by
    funext y
    by_cases h : y.key = k
    · simp only [Function.comp, if_pos h]
      rfl
    · simp only [Function.comp, if_neg h]
  unfold Dev.nOf
  refine if_congr Iff.rfl rfl ?_
  cases hc : (r.carryOf x.carry).head? with
  | none => simp only [show (r.carryOf (Desc.carry { x with begun := true })).head? = none from hc]
  | some c =>
    simp only [show (r.carryOf (Desc.carry { x with begun := true })).head? = some c from hc, Dev.updDesc]
    rw [find?_begun _ _ _ fun _ => rfl, Option.map_map, hext]
    rfl

/-- NOP (R121). -/
theorem nopRun_gives {d : Dev} {k : DescKey} {x : Desc} (hx : d.desc? k = some x) (hact : d.roundActive x.round = true) (hop : x.op = 0)
    (hstage : x.stage = .ready) (hok : d.descOk k = true) : nopRun k d = d.updDesc k fun y => { y with stage := .executed } := by
  unfold nopRun
  rw [Dev.withDesc_of hx, if_neg (by simp [hop, hstage, hact]), Dev.executed_of_ok hok]
  rfl

/-- MATMUL without a handle ring: its job enters the array, or stands behind the one there (R121, R172). -/
theorem matmulRun_gives {s : State} {stream : StreamId} {slot : SlotId} {x : Desc} {r : Round} (h : MayBegin s stream slot 3 x r)
    (hnext : (s.dev.core x.core).array.next = none) (hring : s.dev.ringAt (x.view 2).base = none) (hok : s.dev.descOk (descKey stream slot) = true) :
    matmulRun (descKey stream slot) s.dev =
      ((s.dev.updDesc (descKey stream slot) fun y => { y with begun := true }).updArray x.core fun a =>
        let j := newJob x ((s.dev.nOf x r).getD 64) (s.dev.nOf x r).isNone (if r.ownWeights x then (x.view 0).format else 0)
        if a.job.isSome then { a with next := some j, nextFeeders := [] } else { ArrayEngine.reset with job := some j, waiting := a.waiting }).setStage
        (descKey stream slot) .running := by
  obtain ⟨_, hx, _⟩ := id h
  unfold matmulRun
  rw [Dev.begin_of_mayBegin h]
  rw [if_neg (by simpa [Dev.core] using hnext), takeOut_of_no_ring (d := s.dev.updDesc _ _) hring,
    Dev.goOn_of (Dev.desc?_begun hx) (Dev.descOk_begun.trans hok)]
  simp only [nOf_begun]
  rfl

/-- HANDLE_TAKE (R165). -/
theorem handleTake_gives {d : Dev} {k : DescKey} {x : Desc} {v n q : Nat} {h : Handle} {rest : List Handle} (hx : d.desc? k = some x)
    (hstage : x.stage = .ready ∨ x.stage = .running) (hhead : (d.core x.core).loadQ.head? = some k)
    (hhalt : (d.core x.core).halt = 0 ∨ x.begun = true) (hwork : d.mayWork x = true) (hempty : x.isEmpty = false)
    (hun : (d.untaken x).head? = some v) (hring : d.ringAt (x.view v).base = some (n, q)) (hqueue : (d.ring n q).queue = h :: rest)
    (hround : h.round = x.round ∨ h.committed = true) :
    handleTake k d =
      (d.updRing n q fun g => { queue := rest, held := g.held ++ [{ handle := h, holder := .consumer k x.round }] }).updDesc k fun y =>
        if v = 0 then { y with inBuf0 := some h.buf, begun := true } else { y with inBuf1 := some h.buf, begun := true } := by
  have hheld : ¬((d.core x.core).halt ≠ 0 ∧ !x.begun) := by rcases hhalt with h | h <;> simp [h]
  have hgone : ¬(h.round ≠ x.round ∧ !h.committed) := by rcases hround with h | h <;> simp [h]
  have hidle : ¬(x.stage ≠ .ready ∧ x.stage ≠ .running) := by rcases hstage with h | h <;> simp [h]
  unfold handleTake
  rw [Dev.withDesc_of hx]
  simp only [hidle, hhead, hheld, hwork, hempty, hun, hring, hqueue, hgone, ne_eq, not_true_eq_false, Bool.not_true, Bool.false_eq_true, or_self, if_false]

/-- COPY without handle rings whose views do not overlap (R121, R157). -/
theorem copyRun_gives {s : State} {stream : StreamId} {slot : SlotId} {y : Desc} {r : Round} (h : MayBegin s stream slot 1 y r) {d : Dev} {x : Desc}
    (hd : d = s.dev.updDesc (descKey stream slot) fun y => { y with begun := true }) (hx : x = { y with begun := true })
    (hrings : ∀ e, e < 3 → d.ringAt (x.view e).base = none) (hok : d.descOk (descKey stream slot) = true) {vals : List Val} {d1 : Dev}
    (hpull : pullView s.fuses x.origin none (x.view 0) d = .ok vals d1) (hrings1 : ∀ e, e < 3 → d1.ringAt (x.view e).base = none)
    {parts : List Stored} (hparts : parts = storeWalk (x.view 2) (r.settingNat 0x4020 1) ((x.view 2).runs + 1) 0 vals)
    (hover : anyOverlap ((x.view 0).stretches.filterMap (d1.placeOf none))
      ((parts.flatMap Stored.writes).filterMap fun w => d1.placeOf none (w.1, w.2.length)) = false) :
    copyRun s.fuses (descKey stream slot) s.dev =
      ((d1.leaveLoad x).store s.fuses x
        { writes := parts.flatMap Stored.writes, sat := (parts.map Stored.sat).foldl (· + ·) 0,
          under := (parts.map Stored.under).foldl (· + ·) 0 }).executed (descKey stream slot) none := by
  obtain ⟨_, hy, _⟩ := id h
  unfold copyRun
  rw [Dev.begin_of_mayBegin h, ← hd]
  have hun : d.untaken y = [] := untaken_of_no_ring (x := y) fun e he => by rw [hx] at hrings; exact hrings e he
  have hout : d.takeOut y = d := takeOut_of_no_ring (by rw [hx] at hrings; exact hrings 2 (by omega))
  have hdx : d.desc? (descKey stream slot) = some x := by rw [hd, hx]; exact Dev.desc?_begun hy
  rw [if_neg (by simp [hun]), hout, Dev.goOn_of hdx hok]
  simp only [bindOf_of_no_ring (hrings 0 (by omega)), hpull, ← hparts, bindOf_of_no_ring (hrings1 0 (by omega)), bindOf_of_no_ring (hrings1 2 (by omega)),
    hover, Bool.false_eq_true, if_false]

/-- SLATE without handle rings (R99, R121). -/
theorem slateRun_gives {s : State} {stream : StreamId} {slot : SlotId} {y : Desc} {r : Round} (h : MayBegin s stream slot 2 y r) {d : Dev} {x : Desc}
    (hd : d = s.dev.updDesc (descKey stream slot) fun y => { y with begun := true }) (hx : x = { y with begun := true })
    (hrings : ∀ e, e < 3 → d.ringAt (x.view e).base = none) (hok : d.descOk (descKey stream slot) = true)
    (hjob : (d.core x.core).slate.job = none) (hepi : d.epilogues x.core = []) {ins : List (View × List Val)}
    {sides : List (Nat × List (Nat × Word))} {d1 d2 : Dev} (hins : pullInputs s.fuses x d = .ok ins d1)
    (hsides : pullSides s.fuses x 0 x.vl d1 = .ok sides d2) :
    slateRun s.fuses (descKey stream slot) s.dev =
      (sides.foldl (fun d e => d.updSlate x.core fun q => q.put e.1 e.2)
        (ins.foldl (fun d e => d.updCore x.core fun c => { c with slate := c.slate.put e.1.slate (c.viewWords e.1 e.2) })
          ((d2.leaveLoad x).freshSlates x.core (newSlateJob (descKey stream slot) x.round false)))).setStage (descKey stream slot) .running := by
  obtain ⟨_, hy, _⟩ := id h
  unfold slateRun
  rw [Dev.begin_of_mayBegin h, ← hd]
  have hun : d.untaken y = [] := untaken_of_no_ring (x := y) fun e he => by rw [hx] at hrings; exact hrings e he
  have hout : d.takeOut y = d := takeOut_of_no_ring (by rw [hx] at hrings; exact hrings 2 (by omega))
  have hdx : d.desc? (descKey stream slot) = some x := by rw [hd, hx]; exact Dev.desc?_begun hy
  have hcore : y.core = x.core := by rw [hx]; rfl
  rw [if_neg (by rw [hcore]; simp [hun, hjob, hepi]), hout, Dev.goOn_of hdx hok]
  simp only [hins, hsides, Pull.then]

/-- Settles O18: each operation starts by the equation of its command, once the descriptor is the next of its stream and nothing stands in its way. -/
theorem engineStarts : Obligations.EngineStarts := by
  unfold Obligations.EngineStarts
  refine ⟨?_, ?_⟩
  · intro s stream slot x r k d a
    refine ⟨?_, ?_, ?_⟩
    · intro hclk hx hact hop hstage hok
      exact onEngine_gives hclk (nopRun_gives hx hact hop hstage hok)
    · intro hmay hnext hring hok n isOpen hn j d1
      have hj : newJob x ((s.dev.nOf x r).getD 64) (s.dev.nOf x r).isNone (if r.ownWeights x then (x.view 0).format else 0) = j := by
        rcases hn with ⟨hn, rfl⟩ | ⟨hn, rfl, rfl⟩
        · rw [show s.dev.nOf x r = some n from hn]; rfl
        · rw [show s.dev.nOf x r = none from hn]; rfl
      have hgives := matmulRun_gives hmay hnext hring hok
      simp only [hj] at hgives
      refine ⟨fun hempty => onEngine_gives hmay.1 (hgives.trans ?_), fun hfull => onEngine_gives hmay.1 (hgives.trans ?_)⟩
      · rw [Dev.setStage_begun]
        exact Dev.updArray_congr (if_neg (show ¬a.job.isSome = true by rw [hempty]; simp))
      · rw [Dev.setStage_begun]
        exact Dev.updArray_congr (if_pos (show a.job.isSome = true from Option.isSome_iff_ne_none.mpr hfull))
    · intro v n q h rest hclk hx hstage hhead hhalt hwork hempty hun hring hqueue hround
      exact onEngine_gives hclk (handleTake_gives hx hstage hhead hhalt hwork hempty hun hring hqueue hround)
  · intro s stream slot y r k d x v hrings hok
    refine ⟨?_, ?_⟩
    · intro hmay vals d1 hpull parts writes hrings1 hover
      exact onEngine_gives hmay.1 (copyRun_gives hmay rfl rfl hrings hok hpull hrings1 rfl hover)
    · intro hmay hjob hepi ins sides d1 d2 hins hsides d3 d4
      exact onEngine_gives hmay.1 (slateRun_gives hmay rfl rfl hrings hok hjob hepi hins hsides)

end Sys2Proof.Machine
end

section
/-! What slate writes, the checks of slates and an idle array leave as it was (R99, R117). -/

namespace Sys2Proof.Machine

/-! ### Positions of a slate -/

theorem slateKey_inj {q r p e : Nat} (hp : p < 256) (he : e < 256) : slateKey q p = slateKey r e ↔ q = r ∧ p = e := by
  unfold slateKey
  omega

/-- What a position of a table of slate positions reads after writes of distinct positions of slate `dst`. -/
theorem tabGet_put (z : Word) (dst q p : Nat) (hp : p < 256) (l : List (Nat × Word)) (t : Table Word) (hl : ∀ e ∈ l, e.1 < 256)
    (hn : (l.map Prod.fst).Nodup) :
    tabGet z (l.foldl (fun t w => tabSet t (slateKey dst w.1) w.2) t) (slateKey q p) =
      if q = dst then ((l.find? fun e => e.1 = p).map Prod.snd).getD (tabGet z t (slateKey q p)) else tabGet z t (slateKey q p) := by
  induction l generalizing t with
  | nil => simp
  | cons e l ih =>
    obtain ⟨hnot, hn⟩ := List.nodup_cons.mp hn
    have he : e.1 < 256 := hl e List.mem_cons_self
    rw [List.foldl_cons, ih _ (fun e h => hl e (List.mem_cons_of_mem _ h)) hn, tabGet_tabSet]
    simp only [slateKey_inj hp he, List.find?_cons]
    by_cases hq : q = dst
    · by_cases hpe : e.1 = p
      · have hnone : l.find? (fun e => decide (e.1 = p)) = none := by
          rw [List.find?_eq_none]
          intro a ha
          simp only [decide_eq_true_eq]
          rintro rfl
          exact hnot (hpe ▸ List.mem_map_of_mem ha)
        simp [hq, hpe, hnone]
      · simp [hq, hpe, Ne.symm hpe]
    · simp [hq]

/-- The slate engine of a core after a step. -/
theorem core_slateThen (d : Dev) (c : CoreId) (j : SlateJob) (dst : Nat) (l : List (Nat × Word)) (sat lane n : Nat) :
    (slateThen d c j dst l sat lane).core n =
      if n = c.toNat then { d.core c.toNat with slate := { (d.core c.toNat).slate.put dst l with job := some { j with pc := j.pc + 1 } } } else d.core n :=
  Dev.core_updCore d c.toNat n fun q => { q with slate := { q.slate.put dst l with job := some { j with pc := j.pc + 1 } } }

/-! ### An idle array -/

/-- A key that a table finds is listed there. -/
theorem mem_of_tabFind {α : Type} {t : Table α} {k : Nat} {v : α} (h : tabFind t k = some v) : (k, v) ∈ t := by
  induction t with
  | nil => simp [tabFind] at h
  | cons e t ih =>
    obtain ⟨a, b⟩ := e
    simp only [tabFind] at h
    split at h
    · next hk => obtain rfl := Option.some.inj h; simp [hk]
    · exact List.mem_cons_of_mem _ (ih h)

/-- No core, listed or not, holds a MATMUL or a tile. -/
theorem idle_of_listed {d : Dev} (h : ∀ e ∈ d.cores, (d.core e.1).jobs = [] ∧ (d.core e.1).chainOut = none) (n : Nat) :
    (d.core n).jobs = [] ∧ (d.core n).chainOut = none := by
  cases hf : tabFind d.cores n with
  | none =>
    have : d.core n = Core.reset := by simp [Dev.core, tabGet, hf]
    rw [this]
    exact ⟨rfl, rfl⟩
  | some c => exact h (n, c) (mem_of_tabFind hf)

/-- An idle core settles as it is. -/
theorem settleCore_of_idle {d : Dev} (h : ∀ n, (d.core n).jobs = [] ∧ (d.core n).chainOut = none) (n : Nat) : d.settleCore n = d := by
  obtain ⟨hjobs, hout⟩ := h n
  have hlists := hjobs
  simp only [Core.jobs, List.append_eq_nil_iff, Option.toList_eq_nil_iff] at hlists
  obtain ⟨⟨hwaiting, hjob⟩, hnext⟩ := hlists
  have hctxs (m : Nat) : d.ctxs m = [] := by simp [Dev.ctxs, (h m).1]
  have hrow (q : NodeRow) : d.nodeCtx q = none := by simp [Dev.nodeCtx, hctxs]
  have hlearn : d.learnN n = d := by simp [Dev.learnN, hjobs]
  have hreport : d.chainReport n = d := by simp [Dev.chainReport, Dev.withLoad, Dev.onJob, hjob, hnext]
  have harray : d.settleArray n = d := by simp [Dev.settleArray, Dev.withJob, Dev.withLoad, Dev.onJob, hjob, hnext]
  have hask : d.askRows = d := by
    unfold Dev.askRows
    exact List.foldl_fixed' (fun q => by rw [hrow]) _
  have hrows : d.nodeRows n = d := by simp [Dev.nodeRows, hctxs, hask]
  have hwait : d.settleWaiting n = d := by simp [Dev.settleWaiting, hwaiting]
  have hpump : d.chainPump n = d := by simp [Dev.chainPump, hout]
  rw [Dev.settleCore, hlearn, hreport, harray, hrows, hwait, hpump]

/-- Settles O16: a slate reads through the table of its positions; a check only counts; and an array that holds nothing has nothing to settle. -/
theorem slateFrame : Obligations.SlateFrame := by
  unfold Obligations.SlateFrame
  refine ⟨?_, ?_, ?_⟩
  · intro d c j dst l sat lane q p hl hp hn
    refine ⟨?_, by simp, fun n hne => ?_⟩
    · rw [core_slateThen, if_pos rfl]
      exact tabGet_put _ dst q p hp l _ hl hn
    · rw [core_slateThen, if_neg hne]
  · intro d u
    refine ⟨Dev.bump_zero _ _ _, fun h => ?_, ?_⟩
    · have e := Dev.count_bump d 0x3050 2 u.corrected (0x3050, 2) h
      simpa [slateChecked] using e
    · unfold slateChecked Dev.bump
      split <;> rfl
  · intro d h
    have hidle := idle_of_listed h
    unfold Dev.settle
    exact List.foldl_fixed' (settleCore_of_idle hidle) _

end Sys2Proof.Machine
end

section
/-! Flags and stream control blocks (R125 to R127). -/

namespace Sys2Proof.Machine

/-- Updates of a stream that agree on the stream as it stands are equal. -/
theorem Dev.updStream_congr {d : Dev} {n : Nat} {f g : Stream → Stream} (h : f (d.stream n) = g (d.stream n)) : d.updStream n f = d.updStream n g := by
  simp only [Dev.updStream, h]

theorem streamEnable_of_bad {d : Dev} {n : Nat} (hoff : (d.stream n).enable = false) (hbad : d.enableBad (d.stream n) = true) :
    streamEnable n d = d.updStream n fun x => { x with status := 0x12 } := by
  simp [streamEnable, hoff, hbad]

/-- An accepted enable: with every slot released the stream begins anew, and otherwise goes on where it was (R127). -/
theorem streamEnable_of_good {d : Dev} {n : Nat} (hoff : (d.stream n).enable = false) (hgood : d.enableBad (d.stream n) = false) :
    streamEnable n d =
      if (d.stream n).release = (d.stream n).fetch then
        d.updStream n fun x =>
          { x with enable := true, status := 0, fetch := 0, release := 0, tail := 0, phase := true, freed := [], refetch := [], openWait := false,
                   remote := [], remoteStatus := none }
      else d.updStream n fun x => { x with enable := true, status := 0 } := by
  by_cases h : (d.stream n).release = (d.stream n).fetch <;> simp [streamEnable, Stream.unreleased, hoff, hgood, h]

theorem doorbell_gives {d : Dev} {n : Nat} (tail : BitVec 16) (h : 0 < (d.stream n).size.toNat) :
    doorbell n tail d = d.updStream n fun x => { x with tail := BitVec.ofNat 16 (tail.toNat % (16 * (d.stream n).size.toNat)) } := by
  have he : (d.stream n).entries ≠ 0 := by unfold Stream.entries; omega
  refine Dev.updStream_congr ?_
  rw [if_neg he, Stream.wrap, if_neg he, Stream.entries, Nat.mul_comm]

/-- A power of two is the one that its logarithm gives. -/
theorem two_pow_log2_iff (n : Nat) : n = 2 ^ Nat.log2 n ↔ ∃ k, n = 2 ^ k := by
  constructor
  · exact fun h => ⟨_, h⟩
  · rintro ⟨k, rfl⟩
    rw [Nat.log2_two_pow]

/-- Settles O24: each register has one equation, and an enable turns on whether its block is sound. -/
theorem sequencerRegisterWrites : Obligations.SequencerRegisterWrites := by
  unfold Obligations.SequencerRegisterWrites
  constructor
  · intro s stream flag v tail hclk d n x
    refine ⟨onClock_gives hclk, onClock_gives hclk, onClock_gives hclk, ?_, ?_, ?_, ?_, ?_, ?_⟩
    · intro hoff hbad
      exact onClock_gives_of_eq hclk (streamEnable_of_bad hoff hbad)
    · intro hoff hgood hrel
      exact onClock_gives_of_eq hclk ((streamEnable_of_good hoff hgood).trans (if_pos hrel))
    · intro hoff hgood hrel
      exact onClock_gives_of_eq hclk ((streamEnable_of_good hoff hgood).trans (if_neg hrel))
    · intro hon
      exact onClock_ignored (f := streamEnable n) (by simp [streamEnable, show (s.dev.stream n).enable = true from hon])
    · intro hfab hsize
      exact onClock_gives_of_eq hclk ((if_neg (by rw [show s.dev.fabricStream n = false from hfab]; simp)).trans (doorbell_gives tail hsize))
    · intro hfab
      exact onClock_gives_of_eq hclk (if_pos hfab)
  · intro d x
    unfold Dev.enableBad
    simp only [Stream.entries, Bool.or_eq_true, bne_iff_ne, beq_iff_eq, decide_eq_true_eq, Bool.not_eq_true', ne_eq, two_pow_log2_iff, or_assoc,
      Nat.mul_comm _ 16]

end Sys2Proof.Machine
end

section
/-! What DESCRIPTOR_FETCH does with a slot (R128, R145, R426, R427). -/

namespace Sys2Proof.Machine

/-- The upper half of a word of eight bytes is the word of its last four. -/
theorem bits_field_upper (b : List Byte) : bits (field b 0 8) 63 32 = field b 4 4 := by
  have hb (i : Nat) := (b.getD i 0).isLt
  have h0 := hb 0; have h1 := hb 1; have h2 := hb 2; have h3 := hb 3
  have h4 := hb 4; have h5 := hb 5; have h6 := hb 6; have h7 := hb 7
  simp only [bits, field, slice, List.range, List.range.loop, List.map_cons, List.map_nil, leNat, Nat.zero_add, Nat.reduceAdd]
  omega

theorem roundField_newDesc (k : DescKey) (n : RoundNo) (a : Nat) (p : Bool) (b : List Byte) :
    (newDesc k n a p b).roundField = BitVec.ofNat 32 (field b 4 4) := by
  rw [Desc.roundField, Desc.word, ← bits_field_upper b]
  rfl

/-- A slot may be fetched: no earlier descriptor of the stream waits unissued, and fewer than 1,024 are in flight (R130, R132). -/
def Dev.MayFetch (d : Dev) (s slot : Nat) : Prop :=
  (d.descs.any fun q => q.key.stream == s && q.stage == .fetched && (d.stream s).place q.key.slot < (d.stream s).place slot && (d.firstWait q).isSome) = false ∧
  d.inFlight < 1024

/-- A descriptor read within the run of an active round. -/
theorem fetchSlot_inRun {fz : Fuses} {d d1 : Dev} {s slot : Nat} {phase again : Bool} {m : RoundNo} {r : Round} {b : List Byte} (h : d.MayFetch s slot)
    (hr : d.round? m = some r) (hact : r.active = true) (hb : fetchBytes fz s ((d.stream s).slotAddr slot) 128 d = .ok b d1)
    (hfirst : ¬(again ∧ r.startsAt s slot ∧ r.streams = 0)) :
    d.fetchSlot fz s slot phase again (some m) = d1.takeInRun r s slot again (newDesc { stream := s, slot := slot } r.number r.attempt phase b) := by
  obtain ⟨hstall, hroom⟩ := h
  unfold Dev.fetchSlot
  dsimp only
  rw [hstall, if_neg (by simp; omega)]
  simp only [hr, hact, if_true, hb, if_neg hfirst]

/-- A descriptor read between two runs. -/
theorem fetchSlot_outside {fz : Fuses} {d d1 : Dev} {s slot : Nat} {phase again : Bool} {b : List Byte} (h : d.MayFetch s slot)
    (hb : fetchBytes fz s ((d.stream s).slotAddr slot) 128 d = .ok b d1) :
    d.fetchSlot fz s slot phase again none =
      let q := newDesc { stream := s, slot := slot } (BitVec.ofNat 32 (field b 4 4)) 0 phase b
      if q.isOpen then d1.takeOpen fz s slot q else d1.orphan fz s slot phase q := by
  obtain ⟨hstall, hroom⟩ := h
  unfold Dev.fetchSlot
  dsimp only
  rw [hstall, if_neg (by simp; omega)]
  simp only [hb]

/-- A slot between two runs that cannot be read. -/
theorem fetchSlot_outside_fail {fz : Fuses} {d d1 : Dev} {s slot : Nat} {phase again : Bool} {st : Status} (h : d.MayFetch s slot)
    (hb : fetchBytes fz s ((d.stream s).slotAddr slot) 128 d = .fail st d1) :
    d.fetchSlot fz s slot phase again none = d1.fetchFail s none again st := by
  obtain ⟨hstall, hroom⟩ := h
  unfold Dev.fetchSlot
  dsimp only
  rw [hstall, if_neg (by simp; omega)]
  simp only [hb]

/-- A descriptor of the run in progress enters the attempt of its round. -/
theorem takeInRun_fresh {d : Dev} {r : Round} {s slot : Nat} {q : Desc} (hopen : q.isOpen = false) (hcommit : q.isCommit = false)
    (hround : q.roundField = r.number) :
    d.takeInRun r s slot false q =
      ((d.placeDesc q).updStream s fun y => y.fetched false slot).updRound r.number fun r =>
        { r with runs := r.runs.map fun u => if u.stream = s then { u with stuck := false } else u } := by
  unfold Dev.takeInRun
  simp [hopen, hcommit, hround]

/-- A descriptor that a restart fetches again, from a slot that FETCH has passed. -/
theorem takeInRun_again {d : Dev} {r : Round} {s slot : Nat} {q : Desc} (hopen : q.isOpen = false) (hcommit : q.isCommit = false)
    (hround : q.roundField = r.number) (hfirst : r.startsAt s slot = false) (hpassed : (d.stream s).fetch.toNat ≠ slot) :
    d.takeInRun r s slot true q = ((d.placeDesc q).updStream s fun y => y.fetched true slot).updRound r.number id := by
  unfold Dev.takeInRun
  simp [hopen, hcommit, hround, hfirst, hpassed.symm]
  rfl

/-- A ROUND_OPEN of a round that is not open, whose record can be read, opens it. -/
theorem takeOpen_opens {fz : Fuses} {d d2 : Dev} {s slot k w0 : Nat} {q : Desc} {ins : List (Nat × Nat)} (hcommit : q.isCommit = false)
    (hfree : d.objNat 0x7100 1 ≠ 1) (hround : d.round? q.roundField = none) (hk : d.freeRslot = some k) (hroom : d.rounds.length < 64)
    (hrec : d.readRecord fz s d.objs q.rrec = .ok (w0, .ok ins) d2) :
    d.takeOpen fz s slot q =
      ((Dev.placeDesc { d2 with rounds := d2.rounds ++
        [newRound q.roundField k q.rrec d2.objs w0 ins { stream := s, first := slot, commitSlot := none, stuck := false }] } q).updStream s fun y =>
          y.fetched false slot).updStream s fun y => { y with run := some q.roundField } := by
  unfold Dev.takeOpen
  simp only [hfree, hround, hk, hrec, hcommit, if_false, if_neg (show ¬64 ≤ d.rounds.length by omega), Bool.false_eq_true]

theorem descriptorFetch_of_ring {fz : Fuses} {d : Dev} {s : Nat} (hre : (d.stream s).refetch = []) (hon : (d.stream s).enable = true)
    (hfull : (d.stream s).empty = false) :
    descriptorFetch fz s d = d.fetchSlot fz s (d.stream s).fetch.toNat (d.stream s).phase false (d.stream s).run := by
  simp [descriptorFetch, hre, hon, hfull]

theorem descriptorFetch_of_refetch {fz : Fuses} {d : Dev} {s : Nat} {e : Refetch} {rest : List Refetch} (hre : (d.stream s).refetch = e :: rest) :
    descriptorFetch fz s d = d.fetchSlot fz s e.slot e.phase true (some e.round) := by
  simp [descriptorFetch, hre]

/-- Settles O26: a fetch is the reading of one slot, and its outcome goes by the run that the stream is in. -/
theorem descriptorFetches : Obligations.DescriptorFetches := by
  unfold Obligations.DescriptorFetches
  constructor
  · intro s stream b d1 d n x slot passes hclk hon hfull hre hroom hstall
    have hpasses : (fun y : Stream => y.fetched false slot) = passes := by rfl
    have hfetch (t : Dev) (h : d.fetchSlot s.fuses n slot x.phase false x.run = t) : descriptorFetch s.fuses n d = t :=
      (descriptorFetch_of_ring hre hon hfull).trans h
    refine ⟨?_, ?_, ?_⟩
    · intro r m hrun hr hact hb q hopen hcommit hround
      refine onClock_gives_of_eq hclk (hfetch _ ?_)
      rw [hrun, fetchSlot_inRun ⟨hstall, hroom⟩ hr hact hb (by simp), takeInRun_fresh hopen hcommit hround, hpasses]
    · intro hrun hb m q
      refine ⟨fun hopen => ?_, fun k w0 ins d2 hopen hcommit hfree hm hk hlen hrec => ?_⟩
      · refine onClock_gives_of_eq hclk (hfetch _ ?_)
        rw [hrun, fetchSlot_outside ⟨hstall, hroom⟩ hb]
        exact if_neg (by rw [show Desc.isOpen _ = false from hopen]; simp)
      · refine onClock_gives_of_eq hclk (hfetch _ ?_)
        have hfield : q.roundField = m := roundField_newDesc _ _ _ _ b
        rw [hrun, fetchSlot_outside ⟨hstall, hroom⟩ hb]
        refine (if_pos hopen).trans ?_
        rw [takeOpen_opens hcommit hfree (hfield ▸ hm) hk hlen hrec, hpasses, hfield]
    · intro st hrun hb
      refine onClock_gives_of_eq hclk (hfetch _ ?_)
      rw [hrun, fetchSlot_outside_fail ⟨hstall, hroom⟩ hb]
      rfl
  · intro s stream b d1 e rest r d n x q hclk hre hroom hstall hr hact hfirst hb hopen hcommit hround hpassed
    have hstart : r.startsAt n e.slot = false := by
      simp only [Round.startsAt, List.any_eq_false, Bool.and_eq_true, beq_iff_eq]
      exact hfirst
    have hstream : ((d1.placeDesc q).updStream n fun y => y.fetched true e.slot).stream n =
        { d1.stream n with remote := [], remoteStatus := none, openWait := false, refetch := (d1.stream n).refetch.drop 1 } := by
      rw [Dev.stream_updStream, if_pos rfl]
      exact if_pos ⟨rfl, Ne.symm hpassed⟩
    refine ⟨((d1.placeDesc q).updStream n fun y => y.fetched true e.slot).updRound r.number id, onClock_gives_of_eq hclk ?_, rfl, rfl, hstream⟩
    have hkey := fetchSlot_inRun (phase := e.phase) (again := true) ⟨hstall, hroom⟩ hr hact hb (by simp [hstart])
    rw [takeInRun_again hopen hcommit hround hstart hpassed] at hkey
    exact (descriptorFetch_of_refetch hre).trans hkey

end Sys2Proof.Machine
end

section
/-! Delivery and completion of descriptors (R136 to R141, R186, R188). -/

namespace Sys2Proof.Machine

/-! ### Delivery -/

/-- A descriptor that is next to be delivered, issued and not held by an aborted attempt or a fence. -/
def Dev.Deliverable (d : Dev) (s : Nat) (x : Desc) (r : Round) : Prop :=
  d.nextDelivery s = some x ∧ d.round? x.round = some r ∧ x.stage = .issued ∧ d.undelivered s x.key.slot = false ∧ r.active = true ∧ d.fencesOk x = true

/-- A deliverable descriptor waits for its cluster, or for its core, or is delivered. -/
theorem descriptorDelivery_gives {fz : Fuses} {d : Dev} {s : Nat} {x : Desc} {r : Round} (h : d.Deliverable s x r) :
    descriptorDelivery fz s d =
      if d.awake x.core = false then d.requestWake (x.core / 8) else if d.coreAccepts r x = false then d else d.deliver fz r x := by
  obtain ⟨hnext, hr, hstage, hund, hact, hfence⟩ := h
  unfold descriptorDelivery
  simp only [hnext, Dev.withRound_of hr]
  rw [if_neg (by simp [hstage, hund, hact, hfence])]
  cases d.awake x.core <;> cases d.coreAccepts r x <;> rfl

/-- A delivered descriptor with its 320-byte image, numbered among those of its round (R121). -/
def Dev.imaged (d : Dev) (x : Desc) (vs : List (List Byte)) : Dev :=
  (d.number x).updDesc x.key fun q => { q with image := x.image ++ vs.flatten, original := x.image ++ vs.flatten, remote := [] }

/-- It joins its core's load queue, unless it is a NOP. -/
def Dev.enqueued (d : Dev) (x : Desc) : Dev := if x.op = 0 then d else d.updCore x.core fun c => { c with loadQ := c.loadQ ++ [x.key] }

/-- A descriptor whose records can be read is checked, or awaits its patch where the Reckoner runs (R121, R188, R196). -/
theorem deliver_of_records {fz : Fuses} {d d1 : Dev} {r : Round} {x : Desc} {vs : List (List Byte)}
    (h : pullAll ((List.range 3).map (pullRecord fz x)) d = .ok vs d1) :
    d.deliver fz r x =
      if x.isPatch = false then ((d1.imaged x vs).enqueued x).checked r x.key
      else if (d1.core x.core).rk.mode = .running then
        (((d1.imaged x vs).enqueued x).updCore x.core fun c => { c with patchQ := c.patchQ ++ [x.key] }).setStage x.key .patching
      else (d1.imaged x vs).failDesc x.key .badDescriptor := by
  unfold Dev.deliver
  rw [h]
  cases hp : x.isPatch with
  | false => rfl
  | true => by_cases hm : (d1.core x.core).rk.mode = .running <;> simp [hm] <;> rfl

theorem deliver_of_unreadable {fz : Fuses} {d d1 : Dev} {r : Round} {x : Desc} {st : Status}
    (h : pullAll ((List.range 3).map (pullRecord fz x)) d = .fail st d1) : d.deliver fz r x = (d1.number x).failDesc x.key st := by
  simp [Dev.deliver, h]

/-- Settles O27: the delivery asks in turn whether the cluster is awake, whether the core accepts and whether the records can be read. -/
theorem descriptorDeliveries : Obligations.DescriptorDeliveries := by
  unfold Obligations.DescriptorDeliveries
  intro s stream x r vs d1 d hclk hnext hr hstage hund hact hfence
  have hgives := descriptorDelivery_gives (fz := s.fuses) (s := stream.toNat) ⟨hnext, hr, hstage, hund, hact, hfence⟩
  have hdeliver (hawake : d.awake x.core = true) (haccept : d.coreAccepts r x = true) :
      descriptorDelivery s.fuses stream.toNat d = d.deliver s.fuses r x :=
    hgives.trans ((if_neg (by simp [hawake])).trans (if_neg (by simp [haccept])))
  refine ⟨fun hawake => ?_, fun hawake haccept => ?_, fun hawake haccept hpull => ?_, fun st hawake haccept hpull => ?_⟩
  · exact onClock_gives_of_eq hclk (hgives.trans (if_pos hawake))
  · exact onClock_ignored (f := descriptorDelivery s.fuses stream.toNat) (hgives.trans ((if_neg (by simp [hawake])).trans (if_pos haccept)))
  · intro image d2 d3
    have hrecords := (hdeliver hawake haccept).trans (deliver_of_records hpull)
    refine ⟨fun hpatch => ?_, fun hpatch hmode => ?_, fun hpatch hmode => ?_⟩
    · exact onClock_gives_of_eq hclk (hrecords.trans (if_pos hpatch))
    · exact onClock_gives_of_eq hclk (hrecords.trans ((if_neg (by simp [hpatch])).trans (if_pos hmode)))
    · exact onClock_gives_of_eq hclk (hrecords.trans ((if_neg (by simp [hpatch])).trans (if_neg hmode)))
  · exact onClock_gives_of_eq hclk ((hdeliver hawake haccept).trans (deliver_of_unreadable hpull))

end Sys2Proof.Machine
end

section
/-! Completion of descriptors and their records (R137, R141). -/

namespace Sys2Proof.Machine

theorem key_of_desc? {d : Dev} {k : DescKey} {x : Desc} (h : d.desc? k = some x) : x.key = k := by
  have := List.find?_some h
  simpa using this

/-- A descriptor has met no fault where the status of its record is a success. -/
theorem descOk_eq_finalStatus {d : Dev} {k : DescKey} {x : Desc} (h : d.desc? k = some x) : d.descOk k = x.finalStatus.isSuccess := by
  unfold Dev.descOk Desc.finalStatus
  simp only [h]
  generalize x.sticky = n
  rcases x.status with _ | st
  · by_cases hn : n = 0 <;> simp only [hn, if_true, if_false] <;> rfl
  · cases st <;> by_cases hn : n = 0 <;> simp only [hn, if_true, if_false] <;> rfl

/-- An executed descriptor that is no ROUND_COMMIT completes once it may, or at once where it has failed. -/
theorem descriptorComplete_gives {fz : Fuses} {d : Dev} {k : DescKey} {x : Desc} (hx : d.desc? k = some x) (hstage : x.stage = .executed)
    (hcommit : x.isCommit = false) (hmay : x.finalStatus.isSuccess = false ∨ d.mayComplete x = true) :
    descriptorComplete fz k d = match d.signalFails x with | some st => d.failDesc k st | none => d.complete fz x := by
  unfold descriptorComplete
  rw [Dev.withDesc_of hx, descOk_eq_finalStatus hx]
  exact if_neg (by rcases hmay with h | h <;> simp [hstage, hcommit, h])

/-- Settles O28: the order of record, handle and signal is that of the definition, and a failed descriptor has its record alone. -/
theorem descriptorCompletions : Obligations.DescriptorCompletions := by
  unfold Obligations.DescriptorCompletions
  constructor
  · intro s stream slot x d k hclk hx hstage hcommit
    have hkey : x.key = k := key_of_desc? hx
    refine ⟨fun hfail => ?_, fun st hmay hsig => ?_, fun hmay hsig hok => ?_⟩
    · refine onClock_gives_of_eq hclk ((descriptorComplete_gives hx hstage hcommit (.inl hfail)).trans ?_)
      have hsig : s.dev.signalFails x = none := by simp [Dev.signalFails, hfail]
      simp [hsig, Dev.complete, hfail, hkey, Dev.setStage, d]
    · refine onClock_gives_of_eq hclk ((descriptorComplete_gives hx hstage hcommit (.inr hmay)).trans ?_)
      simp [show s.dev.signalFails x = some st from hsig, d]
    · intro d2
      have hgives : descriptorComplete s.fuses k d = d.complete s.fuses x := by
        rw [descriptorComplete_gives hx hstage hcommit (.inr hmay), hsig]
      refine ⟨fun hno => onClock_gives_of_eq hclk (hgives.trans ?_), fun hsignals hcommit => onClock_gives_of_eq hclk (hgives.trans ?_)⟩
      · have : ¬(x.signals = true ∧ x.atCommit = false) := by rcases hno with h | h <;> simp [h]
        simp [Dev.complete, hok, hkey, Dev.setStage, d2, this]
      · simp [Dev.complete, hok, hkey, Dev.setStage, d2, hsignals, hcommit]
  · intro st sticky attempt phase round time hsticky htime b
    have hcode : st.code < 256 := by cases st <;> decide
    have hattempt : 2 * min attempt 7 + (if phase then 1 else 0) < 256 := by split <;> omega
    have hone (v : Nat) (h : v < 256) : leNat (leBytes 1 v) = v := by rw [leNat_leBytes]; omega
    have hround : leNat (leBytes 4 round.toNat) = round.toNat := by rw [leNat_leBytes]; exact Nat.mod_eq_of_lt round.isLt
    have htime' : leNat (leBytes 8 time) = time := by rw [leNat_leBytes]; exact Nat.mod_eq_of_lt htime
    exact ⟨rfl, hone _ hcode, hone _ (by omega), hone _ hattempt, hone 0 (by omega), hround, htime'⟩

end Sys2Proof.Machine
end

section
/-! Causes and aborts of rounds (R8, R149, R390, R394). -/

namespace Sys2Proof.Machine

theorem updRound_of_not_open {d : Dev} {n : RoundNo} (h : d.round? n = none) (f : Round → Round) : d.updRound n f = d := by
  have hnone : ∀ r ∈ d.rounds, r.number ≠ n := by simpa [Dev.round?] using h
  have hmap : d.rounds.map (fun r => if r.number = n then f r else r) = d.rounds :=
    (List.map_congr_left fun r hr => if_neg (hnone r hr)).trans (List.map_id' _)
  simp only [Dev.updRound, hmap]

/-- ROUND_ABORT of a round with a cause: alone it aborts here, with others it hands a frame to the bus (R390, R394). -/
theorem roundAbort_gives {fz : Fuses} {d : Dev} {n : RoundNo} {r : Round} {st : Status} (hr : d.round? n = some r) (hc : r.cause = some st) :
    roundAbort fz n none d =
      if r.peerGroup = 0 then d.abortRound fz n st (r.endsOn st) (r.endsOn st && st.isHardware) false else d.tallyFrame n (!r.endsOn st) st := by
  simp [roundAbort, Dev.withRound_of hr, hc]

/-- The first cause of a running round stands, and a worse one of the same cycle after it (R8). -/
theorem raise_cause_first {r : Round} {now : Nat} {a : Status} (hrun : r.phase = .running) (hc : r.cause = none) :
    (r.raise now a).cause = some a ∧ (r.raise now a).causeAt = now := by
  simp [Round.raise, hrun, hc, Status.join]

theorem raise_cause_same_cycle {r : Round} {now : Nat} {a b : Status} (hrun : r.phase = .running) (hc : r.cause = some a) (hat : r.causeAt = now) :
    (r.raise now b).cause = some (a.worse b) := by
  by_cases h : a.worse b = a <;> simp [Round.raise, hrun, hc, hat, Status.join, h]

theorem raise_cause_later_cycle {r : Round} {now : Nat} {a b : Status} (hrun : r.phase = .running) (hc : r.cause = some a) (hat : r.causeAt ≠ now) :
    (r.raise now b).cause = some a := by
  by_cases h : b.isHardware <;> simp [Round.raise, hrun, hc, hat, h]

/-- A program fault is worse than a hardware fault, whichever came first (R8). -/
theorem worse_of_hardware_of_program {a b : Status} (hb : b.isHardware = true) (ha : a.isProgram = true) : a.worse b = a ∧ b.worse a = a := by
  have hbr : b.rank = 2 := by
    simp only [Status.isHardware, Bool.and_eq_true, decide_eq_true_eq] at hb
    simp only [Status.rank, Status.isProgram, Status.isControl, Status.isHardware, Bool.and_eq_true, decide_eq_true_eq]
    rw [if_neg (by omega), if_neg (by omega), if_pos (by omega)]
  have har : a.rank = 0 := by simp [Status.rank, ha]
  simp [Status.worse, hbr, har]

/-- Settles O29: what an abort does goes by the cause that stands after the command's own has been raised. -/
theorem roundAborts : Obligations.RoundAborts := by
  unfold Obligations.RoundAborts
  refine ⟨?_, ?_, ?_⟩
  · intro s n hclk
    exact ⟨onClock_gives hclk, fun h => onClock_ignored (f := hostAbort n) (updRound_of_not_open h _)⟩
  · intro s n r st hclk hr d hard ends
    refine ⟨fun hc => ?_, fun hc hpeer => ?_, fun hc hpeer => ?_, fun hst => ?_⟩
    · exact onClock_ignored (f := roundAbort s.fuses n none) (by simp [roundAbort, Dev.withRound_of hr, hc])
    · exact onClock_gives_of_eq hclk ((roundAbort_gives hr hc).trans (if_pos hpeer))
    · exact onClock_gives_of_eq hclk ((roundAbort_gives hr hc).trans (if_neg hpeer))
    · have hraise : roundAbort s.fuses n (some st) d = roundAbort s.fuses n none (d.raise n st) := by simp [roundAbort, hst]
      refine (onClock_gives_of_eq hclk hraise).trans ?_
      exact (onClock_gives (s := s.withDev (d.raise n st)) (f := roundAbort s.fuses n none) hclk).symm
  · intro r now a b hrun
    exact ⟨raise_cause_first hrun, raise_cause_same_cycle hrun, raise_cause_later_cycle hrun, worse_of_hardware_of_program⟩

end Sys2Proof.Machine
end

section
/-! The commit of a round (R140), and what an abort clears (R390). -/

namespace Sys2Proof.Machine

theorem number_of_round? {d : Dev} {n : RoundNo} {r : Round} (h : d.round? n = some r) : r.number = n := by
  have := List.find?_some h
  simpa using this

/-- What remains of a round that is dropped. -/
theorem rounds_dropRound (d : Dev) (r : Round) : ∀ q ∈ (d.dropRound r).rounds, q.number ≠ r.number := by
  intro q hq
  simpa using (List.mem_filter.mp hq).2

theorem descs_dropRound (d : Dev) (r : Round) : ∀ x ∈ (d.dropRound r).descs, x.round ≠ r.number := by
  intro x hx
  simpa using (List.mem_filter.mp hx).2

/-- Settles O30: the command changes nothing until the round is ready, and then takes it out of the rounds. -/
theorem roundCommits : Obligations.RoundCommits := by
  unfold Obligations.RoundCommits
  intro s n r hclk hr hpeer
  have hnumber := number_of_round? hr
  refine ⟨fun hnot => ?_, fun hready => ?_⟩
  · exact onClock_ignored (f := roundCommit s.fuses n) (by simp [roundCommit, Dev.withRound_of hr, hnot])
  · have hgives : roundCommit s.fuses n s.dev = s.dev.commitRound s.fuses r := by simp [roundCommit, Dev.withRound_of hr, hpeer, hready]
    refine ⟨_, onClock_gives_of_eq hclk hgives, rfl, ?_, ?_⟩
    · exact hnumber ▸ rounds_dropRound _ r
    · exact hnumber ▸ descs_dropRound _ r

/-! ### What an abort clears -/

/-- A promotion moves a job and brings none. -/
theorem ArrayEngine.promote_jobs {P : MatJob → Prop} {a : ArrayEngine} (hj : ∀ j, a.job = some j → P j) (hn : ∀ j, a.next = some j → P j)
    (hw : ∀ j ∈ a.waiting, P j) :
    (∀ j, a.promote.job = some j → P j) ∧ (∀ j, a.promote.next = some j → P j) ∧ ∀ j ∈ a.promote.waiting, P j := by
  unfold ArrayEngine.promote
  split
  · exact ⟨hj, hn, hw⟩
  · exact ⟨hn, fun j h => absurd h (by simp), hw⟩

/-- No job of the round is left in an array. -/
theorem ArrayEngine.clearRound_jobs (a : ArrayEngine) (n : RoundNo) :
    (∀ j, (a.clearRound n).job = some j → j.round ≠ n) ∧ (∀ j, (a.clearRound n).next = some j → j.round ≠ n) ∧
      ∀ j ∈ (a.clearRound n).waiting, j.round ≠ n := by
  have hfilter (o : Option MatJob) (j : MatJob) (h : o.filter (fun j => j.round != n) = some j) : j.round ≠ n := by
    rw [Option.filter_eq_some_iff] at h
    simpa using h.2
  exact ArrayEngine.promote_jobs (hfilter a.job) (hfilter a.next) fun j h => by simpa using (List.mem_filter.mp h).2

/-- The answer of some commands leaves outstanding only commands that were, under other tags. -/
theorem outstanding_answers (st : Status) (l : List (BitVec 4 × FabCmd)) (p : FabricPort) :
    ∀ q ∈ (l.foldl (fun p o => p.answer o.1 o.2.tag st 0 0 []) p).outstanding, q ∈ p.outstanding ∧ ∀ o ∈ l, q.2.tag ≠ o.2.tag := by
  induction l generalizing p with
  | nil => simp
  | cons o l ih =>
    intro q hq
    obtain ⟨hin, htags⟩ := ih _ q hq
    obtain ⟨hp, htag⟩ := List.mem_filter.mp hin
    exact ⟨hp, by simpa using ⟨by simpa using htag, fun a b h => htags (a, b) h⟩⟩

/-- What the abort of an attempt clears in a core. -/
theorem Core.clearRound_spec (c : Core) (n : RoundNo) (st : Status) (mine : DescKey → Bool) :
    let t := c.clearRound n st mine
    (∀ b ∈ t.beam, b.2.owner ≠ some n) ∧ (∀ j, t.slate.job = some j → j.round ≠ n) ∧ (∀ q ∈ t.carryIn, q.round ≠ n) ∧
      (∀ q ∈ t.chainIn, q.round ≠ n) ∧ (∀ q ∈ t.chainParts, q.tile.round ≠ n) ∧ (∀ q, t.chainOut = some q → q.round ≠ n) ∧
      (∀ q ∈ t.port.injects, cmdOfRound q n = false) ∧ ∀ q ∈ t.port.outstanding, cmdOfRound q.2 n = false := by
  intro t
  refine ⟨?_, ?_, ?_, ?_, ?_, ?_, ?_, ?_⟩
  · intro b hb
    obtain ⟨a, _, rfl⟩ := List.mem_map.mp hb
    by_cases h : a.2.owner = some n <;> simp [h]
  · intro j hj
    cases hs : c.slate.job with
    | none => simp [t, Core.clearRound, hs] at hj
    | some k => by_cases hk : k.round = n <;> simp [t, Core.clearRound, hs, hk] at hj; exact hj ▸ hk
  · intro q hq
    simpa using (List.mem_filter.mp hq).2
  · intro q hq
    simpa using (List.mem_filter.mp hq).2
  · intro q hq
    simpa using (List.mem_filter.mp hq).2
  · intro q hq
    cases hs : c.chainOut with
    | none => simp [t, Core.clearRound, hs] at hq
    | some k => by_cases hk : k.round = n <;> simp [t, Core.clearRound, hs, hk] at hq; exact hq ▸ hk
  · intro q hq
    simpa using (List.mem_filter.mp hq).2
  · intro q hq
    obtain ⟨hin, htags⟩ := outstanding_answers st _ _ q hq
    by_contra hround
    exact htags q (List.mem_filter.mpr ⟨hin, by simpa using hround⟩) rfl

/-- Settles O31: every part of the clearing is a filter on the round's own work, so what is left belongs to other rounds. -/
theorem abortClearsTheAttempt : Obligations.AbortClearsTheAttempt := by
  unfold Obligations.AbortClearsTheAttempt
  intro d n st t
  refine ⟨rfl, rfl, rfl, rfl, rfl, ?_, ?_⟩
  · intro q hq
    simpa using (List.mem_filter.mp hq).2
  · intro e he
    obtain ⟨e1, he1, rfl⟩ := List.mem_map.mp he
    obtain ⟨e0, _, rfl⟩ := List.mem_map.mp he1
    obtain ⟨hbeam, hslate, hcarry, hin, hparts, hout, hinj, houts⟩ := Core.clearRound_spec e0.2 n st
      fun k => match d.desc? k with | some x => x.round == n | none => false
    obtain ⟨hjob, hnext, hwaiting⟩ := ArrayEngine.clearRound_jobs e0.2.array n
    refine ⟨hbeam, hjob, hnext, hwaiting, hslate, hcarry, hin, hparts, hout, hinj, houts, ?_⟩
    intro g hg h hh
    obtain ⟨g0, _, rfl⟩ := List.mem_map.mp hg
    simpa using (List.mem_filter.mp hh).2

end Sys2Proof.Machine
end

section
/-! FLAG_RESTORE (R134) and ROUND_RESTART (R392). -/

namespace Sys2Proof.Machine

/-! ### Flags restored -/

/-- Signals that stay in this device are subtracted from their flags, and nothing else changes. -/
theorem foldl_signalAdd_here (l : List Incr) (use : SaeriUse) (d : Dev) (h : ∀ i ∈ l, d.isHere i.node = true) :
    ∃ flags, l.foldl (fun d i => d.signalAdd i true use) d = { d with flags := flags } ∧
      ∀ f, tabGet 0 flags f = d.flag f - ((l.filter fun i => i.flag.toNat = f).map Incr.amount).sum := by
  induction l generalizing d with
  | nil => exact ⟨d.flags, rfl, fun f => by simp [Dev.flag]⟩
  | cons i l ih =>
    have hstep : d.signalAdd i true use = d.setFlag i.flag.toNat (d.flag i.flag.toNat - i.amount) := by
      simp [Dev.signalAdd, h i List.mem_cons_self, flagAdd, BitVec.sub_eq_add_neg]
    obtain ⟨flags, heq, hflags⟩ := ih (d.setFlag i.flag.toNat (d.flag i.flag.toNat - i.amount)) fun k hk => h k (List.mem_cons_of_mem _ hk)
    refine ⟨flags, by rw [List.foldl_cons, hstep, heq]; rfl, fun f => ?_⟩
    rw [hflags f]
    by_cases hf : i.flag.toNat = f
    · subst hf
      simp [Dev.flag, Dev.setFlag, tabGet_tabSet, sub_sub]
    · simp [Dev.flag, Dev.setFlag, tabGet_tabSet, hf, Ne.symm hf]

/-! ### Slots fetched again -/

theorem mem_insertRefetch (x : Stream) (e a : Refetch) (l : List Refetch) : a ∈ insertRefetch x e l ↔ a = e ∨ a ∈ l := by
  induction l with
  | nil => simp [insertRefetch]
  | cons h t ih =>
    unfold insertRefetch
    split
    · simp
    · simp [ih]
      tauto

theorem mem_foldl_insertRefetch (x : Stream) (a : Refetch) (new l : List Refetch) :
    a ∈ new.foldl (fun l e => insertRefetch x e l) l ↔ a ∈ new ∨ a ∈ l := by
  induction new generalizing l with
  | nil => simp
  | cons e new ih =>
    rw [List.foldl_cons, ih, mem_insertRefetch]
    simp
    tauto

/-- A run refetched changes its stream alone, and of that the slots to fetch again. -/
theorem refetchRun_eq (d : Dev) (n : RoundNo) (u : Run) :
    d.refetchRun n u = { d with streams := (d.refetchRun n u).streams } := rfl

theorem stream_refetchRun (d : Dev) (n : RoundNo) (u : Run) (m : Nat) :
    ∃ l, (d.refetchRun n u).stream m = { d.stream m with refetch := l } ∧ (d.stream m).refetch ⊆ l := by
  unfold Dev.refetchRun
  rw [Dev.stream_updStream]
  by_cases h : m = u.stream
  · subst h
    rw [if_pos rfl]
    exact ⟨_, rfl, fun a ha => (mem_foldl_insertRefetch _ _ _ _).mpr (.inr ha)⟩
  · rw [if_neg h]
    exact ⟨_, rfl, List.Subset.refl _⟩

/-- A run refetched puts each of its slots among those to fetch again. -/
theorem mem_refetchRun {d : Dev} {n : RoundNo} {u : Run} {m : Nat} (h : m ∈ d.runSlots u) :
    ∃ e ∈ ((d.refetchRun n u).stream u.stream).refetch, e.slot = m ∧ e.round = n := by
  unfold Dev.refetchRun
  rw [Dev.stream_updStream, if_pos rfl]
  refine ⟨{ slot := m, phase := (d.stream u.stream).slotPhase m, round := n }, ?_, rfl, rfl⟩
  exact (mem_foldl_insertRefetch _ _ _ _).mpr (.inl (List.mem_append_left _ (List.mem_map.mpr ⟨m, h, rfl⟩)))

/-- The slots of a run do not depend on what is to be fetched again. -/
theorem runSlots_refetchRun (d : Dev) (n : RoundNo) (u v : Run) : (d.refetchRun n v).runSlots u = d.runSlots u := by
  obtain ⟨l, hl, _⟩ := stream_refetchRun d n v u.stream
  unfold Dev.runSlots
  rw [hl]
  rfl

/-- The device once runs are refetched: only its streams differ, and every slot of the runs is to be fetched again. -/
theorem foldl_refetchRun (n : RoundNo) (l : List Run) (d : Dev) :
    l.foldl (fun d u => d.refetchRun n u) d = { d with streams := (l.foldl (fun d u => d.refetchRun n u) d).streams } ∧
    (∀ m, (d.stream m).refetch ⊆ ((l.foldl (fun d u => d.refetchRun n u) d).stream m).refetch) ∧
    ∀ u ∈ l, ∀ m ∈ d.runSlots u, ∃ e ∈ ((l.foldl (fun d u => d.refetchRun n u) d).stream u.stream).refetch, e.slot = m ∧ e.round = n := by
  induction l generalizing d with
  | nil => simp
  | cons v l ih =>
    obtain ⟨heq, hsub, hslots⟩ := ih (d.refetchRun n v)
    simp only [List.foldl_cons]
    refine ⟨heq, fun m => ?_, fun u hu m hm => ?_⟩
    · obtain ⟨k, hk, hkeep⟩ := stream_refetchRun d n v m
      have := hsub m
      rw [hk] at this
      exact List.Subset.trans hkeep this
    · rcases List.mem_cons.mp hu with rfl | hu
      · obtain ⟨e, he, hslot⟩ := mem_refetchRun (n := n) hm
        exact ⟨e, hsub _ he, hslot⟩
      · exact hslots u hu m (by rwa [runSlots_refetchRun])

/-- A round at the start of its next attempt. -/
def Round.nextAttempt (r : Round) : Round :=
  { r with phase := .running, attempt := r.attempt + 1, cause := none, later := none, undelivered := [], nodesUsed := [], recorded := [], deps := [] }

/-- The device once the next attempt of a round has begun, but for the counter of unordered restarts. -/
def Dev.restarted (d : Dev) (r : Round) : Dev :=
  ((r.runs.foldl (fun d u => d.refetchRun r.number u) d).updRound r.number Round.nextAttempt).bump 0x3170 1 1

theorem restartRound_eq (d : Dev) (r : Round) :
    d.restartRound r = if r.settingNat 0x4040 1 = 1 then (d.restarted r).bump 0x3040 3 1 else d.restarted r := rfl

/-- What the beginning of the next attempt leaves, counts and changes. -/
theorem restartRound_spec (d : Dev) (r : Round) :
    (d.restartRound r).mem = d.mem ∧ (d.restartRound r).flags = d.flags ∧ (d.restartRound r).count 0x3170 1 = (d.count 0x3170 1 + 1) % 2 ^ 64 ∧
    (d.restartRound r).rounds = d.rounds.map (fun q => if q.number = r.number then q.nextAttempt else q) ∧
    (d.restartRound r).streams = (r.runs.foldl (fun d u => d.refetchRun r.number u) d).streams := by
  obtain ⟨heq, _⟩ := foldl_refetchRun r.number r.runs d
  have hcount : (d.restarted r).count 0x3170 1 = (d.count 0x3170 1 + 1) % 2 ^ 64 := by
    refine (Dev.count_bump _ 0x3170 1 1 (0x3170, 1) (by decide)).trans ?_
    rw [if_pos rfl, heq]
    rfl
  have hother : ((d.restarted r).bump 0x3040 3 1).count 0x3170 1 = (d.restarted r).count 0x3170 1 :=
    (Dev.count_bump _ 0x3040 3 1 (0x3170, 1) (by decide)).trans (if_neg (by decide))
  have hbase : (d.restarted r).mem = d.mem ∧ (d.restarted r).flags = d.flags ∧
      (d.restarted r).rounds = d.rounds.map (fun q => if q.number = r.number then q.nextAttempt else q) ∧
      (d.restarted r).streams = (r.runs.foldl (fun d u => d.refetchRun r.number u) d).streams := by
    unfold Dev.restarted
    rw [heq]
    simp [Dev.updRound]
  obtain ⟨hmem, hflags, hrounds, hstreams⟩ := hbase
  rw [restartRound_eq]
  split
  · exact ⟨by simp [hmem], by simp [hflags], hother.trans hcount, by simp [hrounds], by simp [hstreams]⟩
  · exact ⟨hmem, hflags, hcount, hrounds, hstreams⟩

/-- Every increment that stays here is subtracted at once, and the round is restored (R134). -/
theorem flagRestore_here {d : Dev} {n : RoundNo} {e : Restore} (hfind : d.restores.find? (fun e => e.round = n) = some e)
    (htraffic : d.trafficOf e = false) (hhere : ∀ i ∈ e.increments, d.isHere i.node = true)
    (hno : ∀ q ∈ d.saeri.outstanding, q.use ≠ .restore n e.rslot) :
    ∃ flags, flagRestore n d =
        Dev.updRound { d with restores := d.restores.erase e, flags := flags } n (fun r =>
          if r.phase = .aborted ∧ r.rslot = e.rslot then { r with phase := .restored } else r) ∧
      ∀ f, tabGet 0 flags f = d.flag f - ((e.increments.filter fun i => i.flag.toNat = f).map Incr.amount).sum := by
  obtain ⟨flags, heq, hflags⟩ := foldl_signalAdd_here e.increments (.restore n e.rslot)
    { d with restores := { e with increments := [] } :: d.restores.erase e } hhere
  refine ⟨flags, ?_, hflags⟩
  have hany : (d.saeri.outstanding.any fun q => decide (q.use = .restore n e.rslot)) = false := by simpa using hno
  unfold flagRestore
  simp only [hfind, htraffic, Bool.false_eq_true, if_false, heq, hany]

/-- Settles O32: the flags get their increments back one by one, and a restart then begins the runs of the round again. -/
theorem roundRestarts : Obligations.RoundRestarts := by
  unfold Obligations.RoundRestarts
  constructor
  · intro s n e hclk hfind htraffic
    refine ⟨fun hhere hno => ?_, fun hinc hopen => ?_⟩
    · obtain ⟨flags, heq, hflags⟩ := flagRestore_here hfind htraffic hhere hno
      refine ⟨_, onClock_gives_of_eq hclk heq, rfl, rfl, fun f _ => hflags f, ?_⟩
      refine List.map_congr_left fun r _ => ?_
      by_cases h1 : r.number = n <;> by_cases h2 : r.phase = .aborted ∧ r.rslot = e.rslot <;> simp [h1, h2]
    · refine onClock_gives_of_eq hclk ?_
      have hany : (s.dev.saeri.outstanding.any fun q => decide (q.use = .restore n e.rslot)) = true := by simpa using hopen
      have hempty : { e with increments := [] } = e := by rw [← hinc]
      unfold flagRestore
      simp only [hfind, htraffic, hinc, List.foldl_nil, hany, if_true, Bool.false_eq_true, if_false, hempty]
  · intro s n r hclk hr hpeer
    have hnumber := number_of_round? hr
    refine ⟨fun hnot => ?_, fun hphase hhold hcause => ?_⟩
    · have hready : r.restartReady = false := by
        unfold Round.restartReady
        rcases hnot with h | h | h
        · simp [h]
        · simp [h]
        · simp [Option.ne_none_iff_isSome.mp h]
      exact onClock_ignored (f := roundRestart n) (by simp [roundRestart, Dev.withRound_of hr, hready])
    · have hgives : roundRestart n s.dev = s.dev.restartRound r := by
        simp [roundRestart, Dev.withRound_of hr, hpeer, Round.restartReady, hphase, hhold, hcause]
      obtain ⟨_, _, hslots⟩ := foldl_refetchRun r.number r.runs s.dev
      obtain ⟨hmem, hflags, hcount, hrounds, hstreams⟩ := restartRound_spec s.dev r
      refine ⟨_, onClock_gives_of_eq hclk hgives, hmem, hflags, hcount, hnumber ▸ hrounds, fun q hq m _ hm _ => ?_⟩
      obtain ⟨e, he, hslot, hround⟩ := hslots q hq m hm
      refine ⟨e, ?_, hslot, hround.trans hnumber⟩
      simpa only [State.withDev, Dev.stream, hstreams] using he

end Sys2Proof.Machine
end

section
/-! The timers of rounds, the declaration of deadlock (R148, R151, R152) and the Tally bus (R394 to R401). -/

namespace Sys2Proof.Machine

/-! ### Timers and deadlock -/

theorem roundTooLong_of_round {d : Dev} {n : RoundNo} {r : Round} (hr : d.round? n = some r) (us : Nat) :
    roundTooLong n us d =
      if r.phase = .running ∧ leNat (objIn r.settings 0x2060 1) ≤ us ∧ d.timersStand n = false then d.raise n .roundTooLong else d := by
  simp [roundTooLong, Dev.withRound_of hr, Round.settingNat, Round.setting]

/-- A quiescent round of one device is declared once its conditions have held for 65,536 cycles. -/
theorem deadlock_of_alone {d : Dev} {n : RoundNo} {r : Round} {es : List (List Byte)} {cycles : Nat} (hr : d.round? n = some r)
    (hq : d.quiescent r = some es) (hpeer : r.peerGroup = 0) (h : 65536 ≤ cycles) :
    deadlock n cycles d = Dev.raise { d with deadlockRecord := d.deadlockBytes n es } n .deadlock := by
  have hd : d.declares r = true := by simp [Dev.declares, hpeer]
  simp [deadlock, Dev.withRound_of hr, hq, hd, Nat.not_lt.mpr h]

theorem deadlock_not_declared {d : Dev} {n : RoundNo} {r : Round} {cycles : Nat} (hr : d.round? n = some r)
    (h : d.quiescent r = none ∨ cycles < 65536) : deadlock n cycles d = d := by
  unfold deadlock
  rw [Dev.withRound_of hr]
  rcases h with h | h
  · rw [h]
  · cases d.quiescent r <;> simp [h]

/-- Settles O33: each timer asks for its round, its limit and what holds it back, and acts only where all three agree. -/
theorem roundTimers : Obligations.RoundTimers := by
  unfold Obligations.RoundTimers
  intro s n r hclk hr
  refine ⟨fun us hrun hlong hstand => ?_, fun us hno => ?_, fun cycles es hq hpeer hlong => ?_, fun cycles hno => ?_⟩
  · exact onClock_gives_of_eq hclk ((roundTooLong_of_round hr us).trans (if_pos ⟨hrun, hlong, hstand⟩))
  · refine onClock_ignored (f := roundTooLong n us) ((roundTooLong_of_round hr us).trans (if_neg ?_))
    rintro ⟨_, hlong, hstand⟩
    rcases hno with h | h
    · omega
    · rw [h] at hstand
      exact absurd hstand (by decide)
  · exact onClock_gives_of_eq hclk (deadlock_of_alone hr hq hpeer hlong)
  · exact onClock_ignored (f := deadlock n cycles) (deadlock_not_declared hr hno)

/-! ### Frames and votes -/

/-- The device once a frame has completed on TALLY1: none of the round is left to send. -/
def Dev.frameTaken (d : Dev) (n : RoundNo) : Dev := { d with tally := { d.tally with frames := d.tally.frames.filter fun f => f.1 ≠ n } }

/-- The abort that a frame brings about (R395). -/
def Dev.frameAbort (fz : Fuses) (d : Dev) (n : RoundNo) (r : Round) (final : Bool) (st own : Status) (received : Bool) : Dev :=
  let hold : Hold := if st = .peerLost then .peer else if r.hold = .peer then .none else r.hold
  (d.updRound n fun r => { r with hold := if final then hold else r.hold }).abortRound fz n own (!final) (!final && st.isHardware) received

theorem abortFrame_of_peer {fz : Fuses} {d : Dev} {n : RoundNo} {r : Round} {final : Bool} {code : Nat} (hr : d.round? n = some r)
    (hframe : (n, final, Status.ofCode code) ∉ d.tally.frames) :
    abortFrame fz n final code true d =
      if r.peerGroup = 0 ∨ (r.phase ≠ .running ∧ final = true) then d.frameTaken n
      else (d.frameTaken n).frameAbort fz n r final (Status.ofCode code)
        (if r.causeAt = d.cycles then (Status.join r.cause .peerAbort).getD .peerAbort else .peerAbort) true := by
  have hr' : (d.frameTaken n).round? n = some r := hr
  unfold abortFrame
  simp only [Dev.frameTaken] at hr' ⊢
  simp only [hframe, List.contains_eq_mem, decide_false, Bool.not_true, Bool.false_eq_true, if_false, Dev.withRound_of hr']
  rfl

theorem abortFrame_of_own {fz : Fuses} {d : Dev} {n : RoundNo} {r : Round} {final : Bool} {code : Nat} (hr : d.round? n = some r)
    (hframe : (n, final, Status.ofCode code) ∈ d.tally.frames) (hpeer : r.peerGroup ≠ 0) (hopen : r.phase = .running ∨ final = false) :
    abortFrame fz n final code true d =
      ((d.frameTaken n).bump 0x3170 4 1).frameAbort fz n r final (Status.ofCode code) (r.cause.getD (Status.ofCode code)) false := by
  have hr' : ((d.frameTaken n).bump 0x3170 4 1).round? n = some r := hr
  have hlive : ¬(r.peerGroup = 0 ∨ (r.phase ≠ .running ∧ final = true)) := by rcases hopen with h | h <;> simp [hpeer, h]
  unfold abortFrame
  simp only [Dev.frameTaken] at hr' ⊢
  simp only [hframe, List.contains_eq_mem, decide_true, Bool.not_true, Bool.false_eq_true, if_false, if_true, Dev.withRound_of hr', if_neg hlive]
  rfl

theorem commitVote_gives {fz : Fuses} {d : Dev} {n : RoundNo} {r : Round} {group : Nat} (hr : d.round? n = some r) :
    commitVote fz n group true true d =
      if r.peerGroup = group ∧ r.peerGroup ≠ 0 ∧ d.commitReady r = true then (d.bump 0x3170 8 1).commitRound fz r else d := by
  unfold commitVote
  rw [Dev.withRound_of hr]
  have hb : (r.peerGroup == group && r.peerGroup != 0 && d.commitReady r) = decide (r.peerGroup = group ∧ r.peerGroup ≠ 0 ∧ d.commitReady r = true) := by
    simp [Bool.decide_and, Bool.and_assoc, bne, beq_eq_decide]
  simp only [hb, Dev.countVote, and_true, decide_eq_true_eq]
  split <;> rfl

theorem restartVote_gives {d : Dev} {n : RoundNo} {r : Round} {group : Nat} (hr : d.round? n = some r) :
    restartVote n group true true d =
      if r.peerGroup = group ∧ r.peerGroup ≠ 0 ∧ r.restartReady = true ∧ d.tally.stuck1 = false ∧ d.tally.stuck0 = false then
        (d.bump 0x3170 8 1).restartRound r
      else d := by
  unfold restartVote
  rw [Dev.withRound_of hr]
  have hb : (r.peerGroup == group && r.peerGroup != 0 && r.restartReady && !d.tally.stuck1 && !d.tally.stuck0) =
      decide (r.peerGroup = group ∧ r.peerGroup ≠ 0 ∧ r.restartReady = true ∧ d.tally.stuck1 = false ∧ d.tally.stuck0 = false) := by
    simp [Bool.decide_and, Bool.and_assoc, bne, beq_eq_decide]
  simp only [hb, Dev.countVote, and_true, decide_eq_true_eq]
  split <;> rfl

/-! ### Stuck lines -/

/-- Updates of distinct rounds, each made from the round as it stood, are one update of all of them. -/
theorem foldl_updRound (F : Round → Round → Round) (hF : ∀ r q, (F r q).number = q.number) (l : List Round) (d : Dev)
    (hl : (l.map Round.number).Nodup) :
    l.foldl (fun d r => d.updRound r.number (F r)) d =
      { d with rounds := d.rounds.map fun q => ((l.find? fun r => r.number = q.number).map fun r => F r q).getD q } := by
  induction l generalizing d with
  | nil => simp
  | cons r l ih =>
    obtain ⟨hnot, hl⟩ := List.nodup_cons.mp hl
    rw [List.foldl_cons, ih _ hl]
    simp only [Dev.updRound, List.map_map]
    congr 1
    refine List.map_congr_left fun q _ => ?_
    by_cases hq : q.number = r.number
    · have hnone : l.find? (fun a => decide (a.number = r.number)) = none := by
        rw [List.find?_eq_none]
        intro a ha
        simp only [decide_eq_true_eq]
        exact fun h => hnot (h ▸ List.mem_map_of_mem ha)
      simp [hq, hF, hnone]
    · simp [hq, Ne.symm hq]

/-- The rounds of a device that span devices, found by their numbers. -/
theorem find?_spanning {d : Dev} (hn : (d.rounds.map Round.number).Nodup) {q : Round} (hq : q ∈ d.rounds) :
    (d.spanning.find? fun r => r.number = q.number) = if q.peerGroup = 0 then none else some q := by
  have hinj : ∀ r ∈ d.rounds, r.number = q.number → r = q := fun r hr h => List.inj_on_of_nodup_map hn hr hq h
  split
  · next hp =>
    rw [List.find?_eq_none]
    intro r hr
    obtain ⟨hr, hspan⟩ := List.mem_filter.mp hr
    simp only [decide_eq_true_eq]
    intro h
    rw [hinj r hr h] at hspan
    simp [hp] at hspan
  · next hp =>
    cases hf : d.spanning.find? fun r => decide (r.number = q.number) with
    | none =>
      rw [List.find?_eq_none] at hf
      exact absurd (decide_eq_true rfl) (hf q (List.mem_filter.mpr ⟨hq, by simpa using hp⟩))
    | some r =>
      have hnum := List.find?_some hf
      have hmem := (List.mem_filter.mp (List.mem_of_find?_eq_some hf)).1
      rw [hinj r hmem (by simpa using hnum)]

theorem raise_number (r : Round) (now : Nat) (st : Status) : (r.raise now st).number = r.number := by
  unfold Round.raise
  split
  · split
    · dsimp only
      split <;> rfl
    · split <;> rfl
  · split <;> rfl

/-- A round is held, unless something holds it already. -/
def Round.heldBy (r : Round) (h : Hold) : Round := if r.hold = .none then { r with hold := h } else r

theorem heldBy_number (r : Round) (h : Hold) : (r.heldBy h).number = r.number := by unfold Round.heldBy; split <;> rfl

/-- What a stuck TALLY0 does to a round `q` that stood as `r` (R401). -/
def Round.tally0Stuck (now : Nat) (r q : Round) : Round :=
  (if r.phase = .running then q.raise now .hwUncorrectable else q).heldBy .tally0

theorem tally0Stuck_number (now : Nat) (r q : Round) : (r.tally0Stuck now q).number = q.number := by
  unfold Round.tally0Stuck
  rw [heldBy_number]
  split
  · exact raise_number _ _ _
  · rfl

/-- One round's step on a stuck TALLY0. -/
theorem holdRound_tally0 (d : Dev) (r : Round) :
    (if r.phase = .running then d.raise r.number .hwUncorrectable else d).holdRound r.number .tally0 =
      d.updRound r.number (r.tally0Stuck d.cycles) := by
  have hnum (q : Round) : (q.raise d.cycles .hwUncorrectable).number = q.number := raise_number _ _ _
  unfold Round.tally0Stuck Round.heldBy Dev.holdRound Dev.raise
  split
  · simp only [Dev.updRound, List.map_map]
    congr 1
    refine List.map_congr_left fun q _ => ?_
    by_cases hq : q.number = r.number <;> simp [hq, hnum]
  · rfl

theorem foldl_holdRound_tally0 (l : List Round) (d : Dev) :
    l.foldl (fun d r => (if r.phase = .running then d.raise r.number .hwUncorrectable else d).holdRound r.number .tally0) d =
      l.foldl (fun e r => e.updRound r.number (r.tally0Stuck d.cycles)) d := by
  induction l generalizing d with
  | nil => rfl
  | cons r l ih =>
    rw [List.foldl_cons, List.foldl_cons, holdRound_tally0, ih]
    rfl

theorem tally0Stuck_gives {d : Dev} {cycles : Nat} (h : 64 ≤ cycles) (hs : d.tally.stuck0 = false) (hn : (d.rounds.map Round.number).Nodup) :
    tally0Stuck cycles d =
      { d with tally := { d.tally with stuck0 := true }
               rounds := d.rounds.map fun q => if q.peerGroup = 0 then q else q.tally0Stuck d.cycles q } := by
  have hspan : (d.spanning.map Round.number).Nodup := hn.sublist (List.filter_sublist.map _)
  unfold tally0Stuck
  rw [if_neg (by simp [hs]; omega)]
  dsimp only
  refine (foldl_holdRound_tally0 _ _).trans ((foldl_updRound (Round.tally0Stuck d.cycles) (tally0Stuck_number d.cycles) d.spanning _ hspan).trans ?_)
  simp only [Dev.mk.injEq, true_and, and_true]
  refine List.map_congr_left fun q hq => ?_
  rw [find?_spanning hn hq]
  by_cases hp : q.peerGroup = 0 <;> simp [hp]

/-- TALLY1 stuck where the one open round runs and spans devices (R397). -/
theorem tally1Stuck_alone {fz : Fuses} {d : Dev} {r : Round} {cycles : Nat} (h : 64 ≤ cycles) (hs : d.tally.stuck1 = false) (hr : d.rounds = [r])
    (hp : r.peerGroup ≠ 0) (hrun : r.phase = .running) :
    tally1Stuck fz cycles d =
      let own := ((r.raise d.cycles .hwUncorrectable).cause).getD .hwUncorrectable
      (Dev.holdRound { d with tally := { d.tally with stuck1 := true, frames := [] } } r.number .tally1).abortRound fz r.number own (r.endsOn own)
        (r.endsOn own && own.isHardware) false := by
  unfold tally1Stuck
  rw [if_neg (by simp [hs]; omega)]
  simp [Dev.spanning, hr, hp, hrun]

theorem tally1Stuck_none {fz : Fuses} {d : Dev} {cycles : Nat} (h : 64 ≤ cycles) (hs : d.tally.stuck1 = false) (hp : ∀ q ∈ d.rounds, q.peerGroup = 0) :
    tally1Stuck fz cycles d = { d with tally := { d.tally with stuck1 := true, frames := [] } } := by
  have hspan : d.spanning = [] := by simpa [Dev.spanning] using hp
  unfold tally1Stuck
  rw [if_neg (by simp [hs]; omega)]
  simp only [show Dev.spanning { d with tally := { d.tally with stuck1 := true, frames := [] } } = [] from hspan, List.foldl_nil]

/-- Settles O34: each frame, vote and line has one equation that goes by the round's group and by its phase. -/
theorem tallyBus : Obligations.TallyBus := by
  unfold Obligations.TallyBus
  intro s n r code group final cycles hclk hr d st taken abort
  refine ⟨?_, ?_, ?_, ?_, ?_, ?_, ?_, ?_, ?_, ?_, ?_⟩
  · exact onClock_ignored (f := abortFrame s.fuses n final code.toNat false) rfl
  · intro hpeer hopen
    have hlive : ¬(r.peerGroup = 0 ∨ (r.phase ≠ .running ∧ final = true)) := by rcases hopen with h | h <;> simp [hpeer, h]
    refine ⟨fun hframe => ?_, fun hframe => ?_⟩
    · exact onClock_gives_of_eq hclk ((abortFrame_of_peer hr hframe).trans (if_neg hlive))
    · exact onClock_gives_of_eq hclk (abortFrame_of_own hr hframe hpeer hopen)
  · intro hframe hdead
    exact onClock_gives_of_eq hclk ((abortFrame_of_peer hr hframe).trans (if_pos hdead))
  · intro hgroup hpeer hready
    exact onClock_gives_of_eq hclk ((commitVote_gives hr).trans (if_pos ⟨hgroup, hpeer, hready⟩))
  · intro hgroup
    exact ⟨onClock_ignored (f := commitVote s.fuses n group.toNat true true) ((commitVote_gives hr).trans (if_neg fun h => hgroup h.1)),
      onClock_ignored (f := restartVote n group.toNat true true) ((restartVote_gives hr).trans (if_neg fun h => hgroup h.1))⟩
  · intro hgroup hpeer hphase hhold hcause h1 h0
    have hready : r.restartReady = true := by simp [Round.restartReady, hphase, hhold, hcause]
    exact onClock_gives_of_eq hclk ((restartVote_gives hr).trans (if_pos ⟨hgroup, hpeer, hready, h1, h0⟩))
  · intro hlong hs hn fails
    exact onClock_gives_of_eq hclk (tally0Stuck_gives hlong hs hn)
  · intro hlong hs stuck
    refine ⟨fun hp => ?_, fun halone hpeer hrun => ?_⟩
    · exact onClock_gives_of_eq hclk (tally1Stuck_none hlong hs hp)
    · rw [← number_of_round? hr]
      exact onClock_gives_of_eq hclk (tally1Stuck_alone hlong hs halone hpeer hrun)
  · intro hlong hs
    refine onClock_gives_of_eq hclk ?_
    unfold tally0Recovered
    rw [if_neg (by simp [show s.dev.tally.stuck0 = true from hs]; omega)]
    rfl
  · intro hlong hs
    refine onClock_gives_of_eq hclk ?_
    unfold tally1Recovered
    rw [if_neg (by simp [show s.dev.tally.stuck1 = true from hs]; omega)]
    rfl
  · intro hshort
    exact ⟨onClock_ignored (f := tally0Stuck cycles) (if_pos (.inl hshort)), onClock_ignored (f := tally1Stuck s.fuses cycles) (if_pos (.inl hshort)),
      onClock_ignored (f := tally0Recovered cycles) (if_pos (.inl hshort)), onClock_ignored (f := tally1Recovered cycles) (if_pos (.inl hshort))⟩

end Sys2Proof.Machine
end

section
/-! Patches, the bank swap and the stop of a Reckoner, and the halt of a core (R96, R189, R190, R193, R195, R196). -/

namespace Sys2Proof.Machine

theorem Dev.updRk_congr {d : Dev} {n : Nat} {f g : Reckoner → Reckoner} (h : f (d.core n).rk = g (d.core n).rk) : d.updRk n f = d.updRk n g :=
  Dev.updCore_congr (congrArg (fun k => { d.core n with rk := k }) h)

theorem Dev.updRk_updRk (d : Dev) (n : Nat) (f g : Reckoner → Reckoner) : (d.updRk n f).updRk n g = d.updRk n fun k => g (f k) :=
  Dev.updCore_updCore d n _ _

theorem patchEvent_gives {d : Dev} {n : Nat} {k : DescKey} {rest : List DescKey} {x : Desc} (hq : (d.core n).patchQ = k :: rest)
    (hx : d.desc? k = some x) (hstage : x.stage = .patching) (hrun : (d.core n).rk.mode = .running) (hmain : (d.core n).rk.inShadow = false)
    (hawake : d.awake n = true) :
    patchEvent n d =
      (d.updRk n fun k => { k with inShadow := true, waiting := false, shadow := { k.shadow with pc := 0x20 } }).bump 0x3081 1 1 := by
  simp only [patchEvent, hq, hx, hstage, hrun, hmain, hawake]
  exact if_pos (by decide)

theorem patchRelease_gives {d : Dev} {n : Nat} {x : Desc} {r : Round} (hx : (d.descs.find? fun x => x.core == n && x.stage == .frozen) = some x)
    (hr : d.round? x.round = some r) (hact : r.active = true) : patchRelease n d = d.checked r x.key := by
  simp only [patchRelease, hx]
  exact (Dev.withRound_of hr _).trans (if_pos hact)

section idle
variable {d : Dev} {n : Nat}

/-- A running Reckoner that waits in the main bank with no descriptor queued for a patch: where it swaps and where it stops. -/
def WaitsInMain (d : Dev) (n : Nat) : Prop :=
  (d.core n).rk.mode = .running ∧ (d.core n).rkIdle = true

theorem bankSwap_gives {b : Bool} (h : WaitsInMain d n) (hswap : (d.core n).rk.swap = some b) :
    bankSwap n d =
      (d.updRk n fun k => { k with abank := b, swap := none, waiting := false, main := { k.main with pc := 0 } }).requestWake (clusterOf n) := by
  have hdo : d.updRk n Reckoner.doSwap =
      d.updRk n fun k => { k with abank := b, swap := none, waiting := false, main := { k.main with pc := 0 } } :=
    Dev.updRk_congr (by simp only [Reckoner.doSwap, hswap])
  exact (if_pos ⟨h.1, h.2, by simp [hswap]⟩).trans (congrArg (Dev.requestWake · _) hdo)

theorem bankSwap_of_none (hswap : (d.core n).rk.swap = none) : bankSwap n d = d :=
  if_neg (by simp [hswap])

theorem reckonerStopped_gives (h : WaitsInMain d n) (hstop : (d.core n).rk.stopReq = true) :
    reckonerStopped n d = d.updRk n fun k => { k.doSwap with mode := .stopped, stopReq := false, waiting := false } :=
  if_pos ⟨h.1, h.2, hstop⟩

theorem reckonerStopped_swaps {b : Bool} (h : WaitsInMain d n) (hstop : (d.core n).rk.stopReq = true) (hswap : (d.core n).rk.swap = some b) :
    reckonerStopped n d =
      (d.updRk n fun k => { k with abank := b, swap := none, waiting := false, main := { k.main with pc := 0 } }).updRk n fun k =>
        { k with mode := .stopped, stopReq := false } := by
  rw [reckonerStopped_gives h hstop, Dev.updRk_updRk]
  exact Dev.updRk_congr (by simp only [Reckoner.doSwap, hswap])

theorem reckonerStopped_keepsBank (h : WaitsInMain d n) (hstop : (d.core n).rk.stopReq = true) (hswap : (d.core n).rk.swap = none) :
    reckonerStopped n d = d.updRk n fun k => { k with mode := .stopped, stopReq := false, waiting := false } :=
  (reckonerStopped_gives h hstop).trans (Dev.updRk_congr (by simp only [Reckoner.doSwap, hswap]))

theorem coreHalted_gives (hhalt : (d.core n).halt = 1) (harray : (d.core n).array.job = none) (hslate : (d.core n).slate.job = none)
    (hdescs : ∀ x ∈ d.descs, x.core = n → x.stage ≠ .running ∧ (x.stage = .ready → x.begun = false)) :
    coreHalted n d = d.updCore n fun c => { c with halt := 2 } := by
  refine if_pos ⟨hhalt, by simp [harray], by simp [hslate], List.all_eq_true.2 fun x hx => ?_⟩
  by_cases hcore : x.core = n
  · obtain ⟨hrunning, hready⟩ := hdescs x hx hcore
    by_cases hr : x.stage = .ready
    · simp [hr, hready hr]
    · simp [hr, hrunning]
  · simp [hcore]

end idle

/-- Settles O35, each clause from the command's own lemma. -/
theorem patchesStopsAndHalts : Obligations.PatchesStopsAndHalts := by
  unfold Obligations.PatchesStopsAndHalts
  intro s c hclk d n q
  refine ⟨fun k rest x hq hx hstage hrun hmain hawake => ?_, fun x r hx hr hact => ?_, fun hrun hwait hmain hnone => ?_,
    fun hhalt harray hslate hdescs => ?_⟩
  · exact onClock_gives_of_eq hclk (patchEvent_gives hq hx hstage hrun hmain hawake)
  · exact onClock_gives_of_eq hclk (patchRelease_gives hx hr hact)
  · have hidle : WaitsInMain s.dev n := ⟨hrun, by
      rw [Core.rkIdle, show (s.dev.core n).rk.waiting = true from hwait, show (s.dev.core n).rk.inShadow = false from hmain,
        show (s.dev.core n).patchQ = [] from hnone]
      rfl⟩
    refine ⟨fun b hswap => ⟨?_, fun hstop => ?_⟩, fun hswap => ?_, fun hswap hstop => ?_⟩
    · exact onClock_gives_of_eq hclk (bankSwap_gives hidle hswap)
    · exact onClock_gives_of_eq hclk (reckonerStopped_swaps hidle hstop hswap)
    · exact onClock_ignored (f := bankSwap n) (bankSwap_of_none hswap)
    · exact onClock_gives_of_eq hclk (reckonerStopped_keepsBank hidle hstop hswap)
  · exact onClock_gives_of_eq hclk (coreHalted_gives hhalt harray hslate hdescs)

end Sys2Proof.Machine
end

section
/-! What runs without clocks (R371, R381, R418 to R421). -/

namespace Sys2Proof.Machine

section stopped
variable {s : State} (hclk : s.dev.pins.clocks = false) (hosc : s.dev.pins.oscillator = false)
include hclk

theorem clockLoss_of_stopped : s.onDev clockLoss = .next s := by
  simp [State.onDev, clockLoss, hclk]

include hosc

theorem dictRuns_of_stopped (via : Transport) : s.dev.dictRuns via = false := by
  simp [Dev.dictRuns, hclk, hosc]

theorem dict_of_stopped (via : Transport) (i j : Nat) (b : List Byte) : s.dict via i j b = .next s :=
  if_neg (by simp [dictRuns_of_stopped hclk hosc])

theorem transfer_of_stopped (via : Transport) (f : TFrame) (cmd : Byte) : s.transfer via f cmd = .next s :=
  if_neg (by simp [dictRuns_of_stopped hclk hosc])

theorem onDictClock_of_stopped (via : Transport) (f : Dev → Dev) : (s.onDev fun d => d.when (d.dictRuns via) f) = .next s := by
  simp [State.onDev, Dev.when, dictRuns_of_stopped hclk hosc]

theorem canErrorFrame_of_stopped : s.onDev canErrorFrame = .next s := by
  simp [State.onDev, canErrorFrame, Dev.when, hclk, hosc]

end stopped

/-- Settles O38: every command that the statement leaves runs on the clock, or as a write of an object or a transfer, which need a clock too. -/
theorem nothingRunsWithoutClocks : Obligations.NothingRunsWithoutClocks := by
  unfold Obligations.NothingRunsWithoutClocks
  intro i s hclk hosc hpower hreset hrail hperst hlock htrip hbatt
  cases i
  case powerOn straps => exact absurd rfl (hpower straps)
  case deviceReset straps => exact absurd rfl (hreset straps)
  case railFault rail ns => exact absurd rfl (hrail rail ns)
  case pciePerst => exact absurd rfl hperst
  case pllLock => exact absurd rfl hlock
  case thermalTrip c t => exact absurd rfl (htrip c t)
  case vbattRemoval => exact absurd rfl hbatt
  case clockLoss => exact clockLoss_of_stopped hclk
  case canErrorFrame => exact canErrorFrame_of_stopped hclk hosc
  case configStream via bytes => exact onDictClock_of_stopped hclk hosc via _
  case transferTimeout via tid ms => exact onDictClock_of_stopped hclk hosc via _
  case registerWrite via target bytes =>
    cases target
    · exact dict_of_stopped hclk hosc ..
    · exact State.onClock_stopped _ hclk
  all_goals first
    | exact State.onClock_stopped _ hclk
    | exact dict_of_stopped hclk hosc ..
    | exact transfer_of_stopped hclk hosc ..

end Sys2Proof.Machine
end

section
/-! Resets, clocks and supplies (R125, R323, R371, R381, R417 to R421). -/

namespace Sys2Proof.Machine

/-! ### Clearing a range of memory -/

theorem tabFind_filter_key {α : Type} (p : Nat → Bool) (t : Table α) (k : Nat) :
    tabFind (t.filter fun e => p e.1) k = if p k then tabFind t k else none := by
  induction t with
  | nil => simp [tabFind]
  | cons e t ih =>
    obtain ⟨k', v⟩ := e
    by_cases hk : k' = k
    · subst hk
      by_cases hp : p k' <;> simp [tabFind, hp, ih]
    · by_cases hp : p k' <;> simp [tabFind, hp, hk, ih]

/-- A byte of a cleared range reads 0, and every other byte as before. -/
theorem memGet_memClear (m : List Host.Cell) (lo hi a : Nat) :
    memGet (memClear m lo hi) a = if lo ≤ a ∧ a < hi then 0 else memGet m a := by
  unfold memGet memClear tabGet
  rw [tabFind_filter_key fun a => !(lo ≤ a && a < hi)]
  by_cases h : lo ≤ a ∧ a < hi
  · simp [h]
  · rw [if_neg h, if_pos (by simp; omega)]

/-! ### Resets -/

/-- A reset leaves its reset values, the battery-backed key and what the pins say. -/
theorem railFault_resets {rail : Rail} {ns : Nat} (d : Dev) (h : 1000 < ns) :
    railFault rail ns d = { Dev.reset with
      bbramKey := if rail = .vddIo ∧ d.pins.vbatt = false then none else d.bbramKey
      pins := { d.pins with powered := true, vddIo := decide (rail ≠ .vddIo), straps := d.pins.straps, doneReleased := false, thermTrip := false,
                            pllLocked := false, clocks := false, oscillator := false, resetCause := 0 } } := by
  unfold railFault
  rw [if_neg (by omega)]
  simp [Dev.deviceReset, Dev.updPins, Pins.resetRise]

/-- Settles O36: the values of the reset state are those of its definition, and each reset leaves that state by its own definition. -/
theorem resetsLeaveTheResetState : Obligations.ResetsLeaveTheResetState := by
  unfold Obligations.ResetsLeaveTheResetState
  refine ⟨?_, fun s straps rail ns => ⟨rfl, rfl, fun hshort => ?_, fun hlong => ?_⟩⟩
  · refine ⟨rfl, rfl, rfl, rfl, rfl, rfl, fun o ho => absurd ho (List.not_mem_nil (a := o)), fun _ => rfl, fun _ _ => rfl, fun _ _ => rfl, fun _ _ => rfl,
      fun _ => ⟨rfl, rfl, rfl, rfl, rfl⟩, fun _ => ⟨rfl, rfl, rfl, rfl, rfl, rfl⟩, fun _ => ⟨rfl, rfl, rfl, rfl⟩, fun _ => ⟨rfl, rfl⟩⟩
  · exact congrArg (fun d => Host.Outcome.next (s.withDev d)) (if_pos hshort)
  · exact congrArg (fun d => Host.Outcome.next (s.withDev d)) (railFault_resets s.dev hlong)

/-! ### Clocks and supplies -/

theorem onDev_gives {s : State} {f : Dev → Dev} {d : Dev} (h : f s.dev = d) : s.onDev f = .next (s.withDev d) :=
  congrArg (fun d => Host.Outcome.next (s.withDev d)) h

theorem pllLock_starts {d : Dev} (htrip : d.pins.thermTrip = false) (hunlocked : d.pins.pllLocked = false) :
    pllLock d = (if d.pins.oscillator then d.reprogram 3 else d).updPins fun p =>
      { p with pllLocked := true, clocks := true, oscillator := false } := by
  unfold pllLock
  rw [if_neg (by simp [htrip, hunlocked])]
  cases d.pins.oscillator <;> rfl

theorem thermalTrip_ignored {d : Dev} {c : Nat} {t : Int} (h : t < 110 ∨ d.pins.powered = false) : thermalTrip c t d = d :=
  if_pos (by simpa using h)

/-- At 110 °C the memory below the top of HBM is cleared and the clocks stop. -/
theorem thermalTrip_trips {d : Dev} {c : Nat} {t : Int} (ht : 110 ≤ t) (hp : d.pins.powered = true) :
    thermalTrip c t d =
      let e := (d.updCluster c fun k => { k with celsius := t }).zeroRange 0 0x4800000000
      { e with pins := { e.pins with thermTrip := true, clocks := false, oscillator := false, pllLocked := false, doneReleased := false } } :=
  if_neg (by simp [hp, ht])

theorem count_bumpSat32 (d : Dev) (i j : Nat) : (d.bumpSat32 i j).count i j = min (2 ^ 32 - 1) (d.count i j + 1) := by
  simp [Dev.count, Dev.bumpSat32, tabGet_tabSet, Nat.min_comm]

theorem canErrorFrame_gives {d : Dev} (h : d.pins.clocks = true ∨ d.pins.oscillator = true) : canErrorFrame d = d.bumpSat32 0x1120 2 :=
  if_pos (by simpa using h)

/-- Settles O37: each clock and supply is one update of the pins, taken after a reset where the rule asks for one. -/
theorem clocksAndSupplies : Obligations.ClocksAndSupplies := by
  unfold Obligations.ClocksAndSupplies
  intro s c t d stopped
  refine ⟨fun htrip hun hosc => ?_, fun htrip hun hosc => ?_, fun h => ?_, fun h => ?_, fun h => ?_, fun ht hp => ?_, fun h => ?_, fun h => ?_,
    fun h => ?_, fun h => ⟨?_, count_bumpSat32 _ _ _⟩, fun hclk hosc => ?_⟩
  · refine onDev_gives ((pllLock_starts htrip hun).trans ?_)
    rw [show s.dev.pins.oscillator = false from hosc]
    rfl
  · refine onDev_gives ((pllLock_starts htrip hun).trans ?_)
    rw [show s.dev.pins.oscillator = true from hosc]
    rfl
  · exact onDev_gives (if_pos h)
  · exact onDev_gives (if_pos h)
  · exact onDev_gives (if_neg (Bool.eq_false_iff.1 h))
  · have hcluster := fun q => Dev.cluster_updCluster s.dev c.toNat q fun k => { k with celsius := t }
    refine ⟨_, onDev_gives (thermalTrip_trips ht hp), rfl, fun a ha => ?_, fun a ha => ?_, ?_, fun q hq => ?_, rfl, rfl⟩
    · exact (memGet_memClear ..).trans (if_pos ⟨Nat.zero_le _, ha⟩)
    · exact (memGet_memClear ..).trans (if_neg (by omega))
    · exact congrArg Cluster.celsius ((hcluster _).trans (if_pos rfl))
    · exact (hcluster q).trans (if_neg hq)
  · exact onDev_gives (thermalTrip_ignored h)
  · exact onDev_gives (if_pos h)
  · exact onDev_gives (if_neg (Bool.eq_false_iff.1 h))
  · exact onDev_gives (canErrorFrame_gives h)
  · exact canErrorFrame_of_stopped hclk hosc

end Sys2Proof.Machine
end

section
/-! Power states, the capper and ageing (R207, R372 to R387). -/

namespace Sys2Proof.Machine

/-! ### Folds over the units of the device -/

/-- A fold whose every step keeps a view of the device keeps that view. -/
theorem foldl_kept {α β : Type} {view : Dev → β} {g : Dev → α → Dev} (kept : ∀ e a, view (g e a) = view e) (l : List α) (d : Dev) :
    view (l.foldl g d) = view d := by
  induction l generalizing d with
  | nil => rfl
  | cons a l ih => exact (ih _).trans (kept d a)

/-- A fold that updates each cluster of a list once. -/
theorem cluster_foldl_updCluster (F : Nat → Cluster → Cluster) {l : List Nat} (hl : l.Nodup) (d : Dev) (q : Nat) :
    (l.foldl (fun e c => e.updCluster c (F c)) d).cluster q = if q ∈ l then F q (d.cluster q) else d.cluster q := by
  induction l generalizing d with
  | nil => simp
  | cons a l ih =>
    obtain ⟨ha, hl⟩ := List.nodup_cons.1 hl
    rw [List.foldl_cons, ih hl, Dev.cluster_updCluster]
    by_cases hq : q = a
    · subst hq; simp [ha]
    · simp [hq]

/-- A fold that updates each core of a list once. -/
theorem core_foldl_updCore (F : Nat → Core → Core) {l : List Nat} (hl : l.Nodup) (d : Dev) (q : Nat) :
    (l.foldl (fun e c => e.updCore c (F c)) d).core q = if q ∈ l then F q (d.core q) else d.core q := by
  induction l generalizing d with
  | nil => simp
  | cons a l ih =>
    obtain ⟨ha, hl⟩ := List.nodup_cons.1 hl
    rw [List.foldl_cons, ih hl, Dev.core_updCore]
    by_cases hq : q = a
    · subst hq; simp [ha]
    · simp [hq]

theorem Dev.updCluster_updCluster (d : Dev) (n : Nat) (f g : Cluster → Cluster) :
    (d.updCluster n f).updCluster n g = d.updCluster n fun c => g (f c) := by
  simp only [Dev.updCluster, Dev.cluster, tabGet_tabSet, if_true, tabSet_tabSet]

theorem Dev.updCluster_congr {d : Dev} {n : Nat} {f g : Cluster → Cluster} (h : f (d.cluster n) = g (d.cluster n)) :
    d.updCluster n f = d.updCluster n g := by
  rw [Dev.updCluster, Dev.updCluster, h]

theorem mem_coresOf {c n : Nat} : n ∈ coresOf c ↔ n / 8 = c := by
  simp only [coresOf, List.mem_map, List.mem_range]
  constructor
  · rintro ⟨i, hi, rfl⟩; omega
  · intro h; exact ⟨n % 8, Nat.mod_lt _ (by omega), by omega⟩

theorem coresOf_nodup (c : Nat) : (coresOf c).Nodup :=
  List.nodup_range.map fun a b h => by simpa using h

/-! ### Power states -/

theorem Dev.cluster_choose (d : Dev) (c : Nat) : (d.choose c).cluster c = { d.cluster c with chosen := d.chosenState c, rank := d.rankOf c } :=
  (Dev.cluster_updCluster ..).trans (if_pos rfl)

theorem stateEntry_eq (c ns : Nat) (d : Dev) :
    stateEntry c ns d =
      if (d.choose c).clusterIdle c = true ∧ (d.cluster c).state < d.chosenState c ∧ heldLong (d.chosenState c) ns = true ∧ (d.cluster c).wake = false then
        (d.choose c).enterState c (d.chosenState c)
      else d.choose c := by
  simp only [stateEntry, Dev.cluster_choose, Bool.not_eq_true']

theorem requestWake_ignored {d : Dev} {c : Nat} (h : (d.cluster c).state = 0) : d.requestWake c = d := if_pos h

theorem requestWake_gives {d : Dev} {c : Nat} (h : (d.cluster c).state ≠ 0) : d.requestWake c = d.updCluster c fun k => { k with wake := true } :=
  if_neg h

/-- The one condition of a grant that other clusters decide: no cluster that waits for a slot ranks lower (R377). -/
theorem ranksFirst_iff {d : Dev} {c : Nat} :
    ((List.range 16).all fun q => let w := d.cluster q; !(w.wake && !w.granted) || decide (d.rankOf c ≤ d.rankOf q)) = true ↔
      ∀ q, q < 16 → (d.cluster q).wake = true → (d.cluster q).granted = false → d.rankOf c ≤ d.rankOf q := by
  simp only [List.all_eq_true, List.mem_range, Bool.or_eq_true, Bool.not_eq_true', Bool.and_eq_false_iff, Bool.not_eq_false', decide_eq_true_eq]
  refine forall₂_congr fun q _ => ?_
  cases (d.cluster q).wake <;> cases (d.cluster q).granted <;> simp

theorem wakeSlotGrant_gives {d : Dev} {c ns : Nat} (hwake : (d.cluster c).wake = true) (hgrant : (d.cluster c).granted = false)
    (hstate : (d.cluster c).state ≠ 0) (hslot : d.slotsWithin 1 ns = true)
    (hfirst : ∀ q, q < 16 → (d.cluster q).wake = true → (d.cluster q).granted = false → d.rankOf c ≤ d.rankOf q) :
    wakeSlotGrant c ns d = d.updCluster c fun k => { k with granted := true } :=
  if_pos ⟨hwake, by simp [hgrant], hstate, ranksFirst_iff.2 hfirst, hslot⟩

theorem wakeSlotGrant_ignored {d : Dev} {c ns q : Nat} (hq : q < 16) (hwake : (d.cluster q).wake = true) (hgrant : (d.cluster q).granted = false)
    (hlower : d.rankOf q < d.rankOf c) : wakeSlotGrant c ns d = d :=
  if_neg fun h => absurd (ranksFirst_iff.1 h.2.2.2.1 q hq hwake hgrant) (by omega)

theorem wakeComplete_gives {fz : Fuses} {d : Dev} {c ns : Nat} (hgrant : (d.cluster c).granted = true) (hret : (d.cluster c).noRetention = false)
    (hwait : (d.cluster c).waiting = []) (hns : exitNs (d.cluster c).state true ≤ ns) :
    wakeComplete fz c ns d = d.updCluster c fun k => { k with state := 0, wake := false, granted := false, noRetention := false } := by
  have hdone : d.wakeDone c = d.updCluster c fun k => { k with state := 0, wake := false, granted := false, noRetention := false } := by
    simp [Dev.wakeDone, hret]
  unfold wakeComplete
  rw [if_pos ⟨hgrant, by simpa [hret] using hns⟩, hdone, Dev.drainCluster, Dev.cluster_updCluster, if_pos rfl, hwait]
  exact (Dev.updCluster_updCluster ..).trans (Dev.updCluster_congr (by rw [hwait]))

theorem wakeComplete_ignored {fz : Fuses} {d : Dev} {c ns : Nat} (hgrant : (d.cluster c).granted = false) : wakeComplete fz c ns d = d :=
  if_neg (by simp [hgrant])

/-! ### What the deep states lose -/

/-- The cluster's own part of an entry into a state. -/
def Cluster.entered (k : Cluster) (st : Nat) (keep : Bool) : Cluster :=
  { k with state := st, noRetention := st = 3 && !keep, cache := if 2 ≤ st then [] else k.cache, fills := if 2 ≤ st then [] else k.fills,
           cacheErrors := if 2 ≤ st then [] else k.cacheErrors, wake := false, granted := false }

/-- A core whose beams lose their contents. -/
def Core.beamsLost (draw : Nat) (k : Core) : Core := { k with beam := [], beamLost := some draw }

/-- The beams of the listed cores are lost, each with a draw of its own. -/
def Dev.loseBeams (d : Dev) (draws : Nat) (l : List Nat) : Dev := l.foldl (fun e n => e.updCore n (Core.beamsLost (draws + n % 8))) d

theorem Dev.cluster_loseBeams (d : Dev) (draws : Nat) (l : List Nat) (c : Nat) : (d.loseBeams draws l).cluster c = d.cluster c :=
  foldl_kept (view := fun e => e.cluster c) (g := fun e n => e.updCore n (Core.beamsLost (draws + n % 8))) (fun _ _ => rfl) l d

theorem Dev.core_loseBeams (d : Dev) (draws : Nat) {l : List Nat} (hl : l.Nodup) (n : Nat) :
    (d.loseBeams draws l).core n = if n ∈ l then (d.core n).beamsLost (draws + n % 8) else d.core n :=
  core_foldl_updCore (fun n => Core.beamsLost (draws + n % 8)) hl d n

/-- The device after the draws that lost beams take. -/
def Dev.drawsTaken (d : Dev) : Dev := { d with draws := d.draws + 8 }

theorem Dev.cluster_drawsTaken (d : Dev) (c : Nat) : d.drawsTaken.cluster c = d.cluster c := rfl
theorem Dev.core_drawsTaken (d : Dev) (n : Nat) : d.drawsTaken.core n = d.core n := rfl

theorem Dev.enterState_eq (d : Dev) (c st : Nat) :
    d.enterState c st =
      if st = 3 then ((d.updCluster c fun k => k.entered st (d.retains c)).loseBeams d.draws (coresOf c)).drawsTaken
      else d.updCluster c fun k => k.entered st (d.retains c) := rfl

theorem Dev.cluster_enterState (d : Dev) (c st : Nat) : (d.enterState c st).cluster c = (d.cluster c).entered st (d.retains c) := by
  have h1 := (Dev.cluster_updCluster d c c fun k => k.entered st (d.retains c)).trans (if_pos rfl)
  rw [Dev.enterState_eq]
  split
  · rw [Dev.cluster_drawsTaken, Dev.cluster_loseBeams, h1]
  · exact h1

/-- In C3 the beams of the cluster's cores are lost, and the cores of other clusters stay. -/
theorem Dev.core_enterC3 (d : Dev) (c n : Nat) :
    (d.enterState c 3).core n = if n / 8 = c then (d.core n).beamsLost (d.draws + n % 8) else d.core n := by
  rw [Dev.enterState_eq, if_pos rfl, Dev.core_drawsTaken, Dev.core_loseBeams _ _ (coresOf_nodup c)]
  simp only [mem_coresOf]
  rfl

theorem Dev.core_enterState {d : Dev} {c st : Nat} (h : st ≠ 3) (n : Nat) : (d.enterState c st).core n = d.core n := by
  rw [Dev.enterState_eq, if_neg h]
  rfl

/-- Settles O41: an entry turns on four conditions; a wake passes through request, slot and completion; and an entry touches the cores of its own
cluster only. -/
theorem powerStates : Obligations.PowerStates := by
  unfold Obligations.PowerStates
  constructor
  · intro s c ns hclk d n k d1 st
    refine ⟨fun hidle hdeep hheld hwake => ?_, fun h => ?_, fun h => ?_, fun h => ?_, fun hwake hgrant hstate hslot => ⟨fun hfirst => ?_, ?_⟩,
      fun hgrant hret hwait hns => ?_, fun hgrant => ?_, ?_⟩
    · exact onClock_gives_of_eq hclk ((stateEntry_eq n ns s.dev).trans (if_pos ⟨hidle, hdeep, hheld, hwake⟩))
    · refine onClock_gives_of_eq hclk ((stateEntry_eq n ns s.dev).trans (if_neg ?_))
      rintro ⟨hidle, hdeep, hheld, hwake⟩
      rcases h with h | h | h | h
      · exact Bool.false_ne_true (h.symm.trans hidle)
      · exact absurd hdeep (Nat.not_lt.2 h)
      · exact Bool.false_ne_true (h.symm.trans hheld)
      · exact Bool.false_ne_true (hwake.symm.trans h)
    · exact onClock_ignored (f := fun d => d.requestWake n) (requestWake_ignored h)
    · exact onClock_gives_of_eq hclk (requestWake_gives h)
    · exact onClock_gives_of_eq hclk (wakeSlotGrant_gives hwake hgrant hstate hslot hfirst)
    · rintro ⟨q, hq, hqwake, hqgrant, hlower⟩
      exact onClock_ignored (f := wakeSlotGrant n ns) (wakeSlotGrant_ignored hq hqwake hqgrant hlower)
    · exact onClock_gives_of_eq hclk (wakeComplete_gives hgrant hret hwait hns)
    · exact onClock_ignored (f := wakeComplete s.fuses n ns) (wakeComplete_ignored hgrant)
    · exact onClock_gives_of_eq hclk rfl
  · intro d c st _ _ t
    have hcluster : t.cluster c = (d.cluster c).entered st (d.retains c) := d.cluster_enterState c st
    refine ⟨by rw [hcluster]; rfl, fun h => ?_, fun h => ?_, d.enterState_mem c st, fun n hn _ => ⟨?_, fun hst => Dev.core_enterState hst n⟩, fun n hn => ?_⟩
    · rw [hcluster]; exact if_pos h
    · rw [hcluster]; exact if_neg (by omega)
    · rintro rfl
      have hcore : t.core n = (d.core n).beamsLost (d.draws + n % 8) := (d.core_enterC3 c n).trans (if_pos hn)
      rw [hcore]
      exact ⟨rfl, rfl⟩
    · by_cases hst : st = 3
      · subst hst
        exact (d.core_enterC3 c n).trans (if_neg hn)
      · exact Dev.core_enterState hst n

end Sys2Proof.Machine
end

section
/-! The power capper, the thermal limit and ageing (R380 to R387). -/

namespace Sys2Proof.Machine

/-! ### Allowances -/

theorem power_foldl_updCluster {α : Type} (c : α → Nat) (F : α → Cluster → Cluster) (l : List α) (d : Dev) :
    (l.foldl (fun e a => e.updCluster (c a) (F a)) d).power = d.power :=
  foldl_kept (view := Dev.power) (g := fun e a => e.updCluster (c a) (F a)) (fun _ _ => rfl) l d

theorem cores_foldl_updCluster (F : Nat → Cluster → Cluster) (l : List Nat) (d : Dev) :
    (l.foldl (fun e c => e.updCluster c (F c)) d).cores = d.cores :=
  foldl_kept (view := Dev.cores) (g := fun e c => e.updCluster c (F c)) (fun _ _ => rfl) l d

/-- What a sample above 125 % of PowerCap does to a cluster. -/
def Cluster.capped (k : Cluster) : Cluster := { k with capAllowance := min 8 k.capAllowance }

theorem capSample_eq (mw average : Nat) (d : Dev) :
    capSample mw average d =
      let d1 : Dev := { d with power := { d.power with sample := mw, average := average } }
      if d.objNat 0x2160 3 * 1250 < mw then (List.range 16).foldl (fun e c => e.updCluster c Cluster.capped) d1 else d1 := rfl

theorem capSample_gives (mw average : Nat) (d : Dev) :
    (capSample mw average d).power = { d.power with sample := mw, average := average } ∧ (capSample mw average d).cores = d.cores ∧
      ∀ q, q < 16 → ((capSample mw average d).cluster q).capAllowance =
        if d.objNat 0x2160 3 * 1250 < mw then min 8 (d.cluster q).capAllowance else (d.cluster q).capAllowance := by
  rw [capSample_eq]
  dsimp only
  split
  next =>
    refine ⟨power_foldl_updCluster id (fun _ => Cluster.capped) _ _, cores_foldl_updCluster (fun _ => Cluster.capped) _ _, fun q hq => ?_⟩
    rw [cluster_foldl_updCluster (fun _ => Cluster.capped) List.nodup_range, if_pos (List.mem_range.2 hq)]
    rfl
  next => exact ⟨rfl, rfl, fun _ _ => rfl⟩

/-- The cluster after one 10 µs step of its allowances. -/
def Cluster.stepped (k : Cluster) (cap average : Nat) (t : Int) : Cluster :=
  let cooling := 100 ≤ t || (k.cooling && 98 < t)
  { k with
    celsius := t, cooling := cooling
    capAllowance := if cap < average then max 1 (k.capAllowance - 1)
      else if average * 100 < 98 * cap then min 16 (k.capAllowance + 1) else k.capAllowance
    allowance := if cooling then max 1 (k.allowance - 1) else min 16 (k.allowance + 1) }

theorem allowanceStep_eq (c : Nat) (t : Int) (d : Dev) :
    allowanceStep c t d = d.updCluster c fun k => k.stepped (d.objNat 0x2160 3 * 1000) d.power.average t := rfl

section stepped
variable (k : Cluster) (cap average : Nat) (t : Int)

theorem Cluster.stepped_within (h1 : 1 ≤ k.capAllowance) (h2 : k.capAllowance ≤ 16) (h3 : 1 ≤ k.allowance) (h4 : k.allowance ≤ 16) :
    1 ≤ (k.stepped cap average t).capAllowance ∧ (k.stepped cap average t).capAllowance ≤ 16 ∧ 1 ≤ (k.stepped cap average t).allowance ∧
      (k.stepped cap average t).allowance ≤ 16 := by
  simp only [Cluster.stepped]
  refine ⟨?_, ?_, ?_, ?_⟩ <;> split <;> [skip; split; skip; split; skip; skip; skip; skip] <;> omega

theorem Cluster.stepped_over (h : cap < average) (h1 : 1 < k.capAllowance) : (k.stepped cap average t).capAllowance + 1 = k.capAllowance := by
  simp only [Cluster.stepped, if_pos h]
  omega

theorem Cluster.stepped_hot (h : 100 ≤ t) (h1 : 1 < k.allowance) : (k.stepped cap average t).allowance + 1 = k.allowance := by
  simp only [Cluster.stepped, h, decide_true, Bool.true_or, if_true]
  omega

theorem Cluster.stepped_cool (h : t ≤ 98) (h1 : k.allowance < 16) : (k.stepped cap average t).allowance = k.allowance + 1 := by
  have hcold : ¬(100 ≤ t) ∧ ¬(98 < t) := by omega
  simp only [Cluster.stepped, hcold, decide_false, Bool.and_false, Bool.or_false, Bool.false_eq_true, if_false]
  omega

end stepped

/-- At 105 °C the thermal allowance is 0 (R381). -/
theorem engineOk_of_hot {d : Dev} {core : Nat} (h : 105 ≤ (d.cluster (core / 8)).celsius) : d.engineOk core = false := by
  simp [Dev.engineOk, clusterOf, Cluster.thermal, h]

/-! ### The re-plan -/

theorem foldl_max_multiple (f : Nat → Int) (l : List Nat) (m : Int) (hm : 650 ≤ m) (h5 : m % 5 = 0) :
    650 ≤ l.foldl (fun m c => max m (5 * f c)) m ∧ l.foldl (fun m c => max m (5 * f c)) m % 5 = 0 := by
  induction l generalizing m with
  | nil => exact ⟨hm, h5⟩
  | cons c l ih =>
    rw [List.foldl_cons]
    exact ih _ (by omega) (by omega)

theorem replan_ignored {d : Dev} (h : ∀ q, q < 16 → (d.cluster q).measurements = 0) : replan d = d :=
  if_pos (List.filter_eq_nil_iff.2 fun q hq => by simp [h q (List.mem_range.1 hq)])

/-- A re-plan either has no measurement to go by, or sets a target of the regulator's steps and takes group 0x4161. -/
theorem replan_gives (d : Dev) :
    replan d = d ∨ 650 ≤ (replan d).power.target ∧ (replan d).power.target ≤ 850 ∧ (replan d).power.target % 5 = 0 ∧
      (replan d).power.setpoint = d.power.setpoint ∧ (replan d).power.bus = d.objNat 0x4161 2 ∧
      (replan d).power.interval = d.objNat 0x4161 4 := by
  unfold replan
  extract_lets cs top vb trimOf limitOf trims d1 before w d2 d3 after
  have htop : 650 ≤ top ∧ top % 5 = 0 :=
    foldl_max_multiple (fun c => ceilInt ((d.needOf c).1 - 50 * (d.needOf c).2) (5 * (d.needOf c).2)) cs 650 (by omega) (by omega)
  obtain ⟨hlow, hhigh, hmul⟩ : 650 ≤ vb.toNat ∧ vb.toNat ≤ 850 ∧ vb.toNat % 5 = 0 := by omega
  have hset : before = d.power := power_foldl_updCluster id (fun c k => { k with limit := limitOf c }) cs d
  have hw : 650 ≤ w.target ∧ w.target ≤ 850 ∧ w.target % 5 = 0 ∧ w.setpoint = d.power.setpoint ∧ w.bus = d.objNat 0x4161 2 ∧
      w.interval = d.objNat 0x4161 4 := ⟨hlow, hhigh, hmul, (congrArg Power.setpoint hset : before.setpoint = _), rfl, rfl⟩
  have hafter : after = w := power_foldl_updCluster Prod.fst (fun t k => { k with trim := t.2 }) trims d2
  clear_value w
  split
  · exact .inl rfl
  · right
    split
    · exact hw
    · rw [hafter]; exact hw

/-! ### The setpoint -/

/-- A write that is acknowledged and does not yet reach the target. -/
theorem setpointStep_moves {d : Dev} {sp : Nat} (h : d.power.setpoint ≠ d.power.target)
    (hsp : (if d.power.setpoint < d.power.target then min d.power.target (d.power.setpoint + 5) else max d.power.target (d.power.setpoint - 5)) = sp)
    (hne : sp ≠ d.power.target) :
    setpointStep true d = { d with power := { d.power with setpoint := sp, tries := 0, writeFailed := false } } := by
  subst hsp
  unfold setpointStep
  rw [if_neg h, if_pos (.inl rfl)]
  exact if_neg hne

theorem setpointStep_rises {d : Dev} (h : d.power.setpoint + 5 < d.power.target) :
    setpointStep true d = { d with power := { d.power with setpoint := d.power.setpoint + 5, tries := 0, writeFailed := false } } :=
  setpointStep_moves (by omega) (by rw [if_pos (by omega), Nat.min_eq_right (by omega)]) (by omega)

theorem setpointStep_falls {d : Dev} (h : d.power.target + 5 < d.power.setpoint) :
    setpointStep true d = { d with power := { d.power with setpoint := d.power.setpoint - 5, tries := 0, writeFailed := false } } :=
  setpointStep_moves (by omega) (by rw [if_neg (by omega), Nat.max_eq_right (by omega)]) (by omega)

/-- A write that is not acknowledged is tried three times. -/
theorem setpointStep_unacked {d : Dev} (hbus : d.power.bus ≠ 0) (h : d.power.setpoint ≠ d.power.target) :
    setpointStep false d =
      if d.power.tries < 2 then { d with power := { d.power with tries := d.power.tries + 1 } }
      else { d with power := { d.power with tries := 0, writeFailed := true, target := d.power.setpoint, newTrims := [] } } := by
  unfold setpointStep
  rw [if_neg h, if_neg (by simp [hbus])]

/-- Settles O42: each allowance takes one step within its limits, and the setpoint one step towards its target. -/
theorem allowancesAndAgeing : Obligations.AllowancesAndAgeing := by
  unfold Obligations.AllowancesAndAgeing
  constructor
  · intro s c t mw average hclk d n cap
    have hstep : exec (.allowanceStep c t) s = .next (s.withDev (allowanceStep n t s.dev)) := onClock_gives_of_eq hclk rfl
    have hself : (allowanceStep n t s.dev).cluster n = (s.dev.cluster n).stepped (s.dev.objNat 0x2160 3 * 1000) s.dev.power.average t :=
      (Dev.cluster_updCluster ..).trans (if_pos rfl)
    refine ⟨⟨_, onClock_gives_of_eq hclk rfl, capSample_gives mw average s.dev⟩, _, hstep, ?_⟩
    simp only [State.withDev, hself]
    refine ⟨rfl, fun q hq => (Dev.cluster_updCluster ..).trans (if_neg hq), Cluster.stepped_within _ _ _ _, Cluster.stepped_over _ _ _ _,
      Cluster.stepped_hot _ _ _ _, Cluster.stepped_cool _ _ _ _, fun ht core hcore => engineOk_of_hot ?_⟩
    rw [hcore, hself]
    exact ht
  · intro s c ns hours o acked hclk d n w taken
    refine ⟨fun hidle hstate hns => ?_, fun h => ?_, fun h => ?_, fun h => ?_, fun h => ?_, ?_, fun h => ?_, fun hack h => ?_, fun hack h => ?_,
      fun hack hbus h => ⟨fun ht => ?_, fun ht => ?_⟩⟩
    · exact onClock_gives_of_eq hclk (if_pos ⟨hidle, hstate, hns⟩)
    · refine onClock_ignored (f := marginMeasurement n ns o) (if_neg ?_)
      rintro ⟨hidle, hstate, hns⟩
      rcases h with h | h | h
      · exact Bool.false_ne_true (h.symm.trans hidle)
      · exact Nat.not_lt.2 hstate h
      · exact Nat.not_lt.2 hns h
    · exact onClock_gives_of_eq hclk (if_pos h)
    · exact onClock_ignored (f := forcedMeasurement n hours o) (if_neg (Nat.not_le.2 h))
    · exact onClock_ignored (f := replan) (replan_ignored h)
    · exact ⟨_, onClock_gives_of_eq hclk rfl, replan_gives s.dev⟩
    · exact onClock_ignored (f := setpointStep acked) (if_pos h)
    · subst hack; exact onClock_gives_of_eq hclk (setpointStep_rises h)
    · subst hack; exact onClock_gives_of_eq hclk (setpointStep_falls h)
    · subst hack; exact onClock_gives_of_eq hclk ((setpointStep_unacked hbus h).trans (if_pos ht))
    · subst hack; exact onClock_gives_of_eq hclk ((setpointStep_unacked hbus h).trans (if_neg (Nat.not_lt.2 ht)))

end Sys2Proof.Machine
end

section
/-! What the answers to accesses change, the isolation of a region, and scrubbing (R343, R344, R348). -/

namespace Sys2Proof.Machine

/-! ### What the answers to accesses change -/

/-- `e` is `d` after answers to accesses: to the host, to a fabric port, over the network, to a peer, to a descriptor or to a stream. Of the
counters only that of injected descriptors moves (R307). -/
structure AnswerOnly (d e : Dev) : Prop where
  shape : e = { d with counters := e.counters, streams := e.streams, descs := e.descs, rounds := e.rounds, cores := e.cores, noc := e.noc,
                       saeri := e.saeri, ports := e.ports, hostOut := e.hostOut, accesses := e.accesses }
  count : ∀ i k, okey i k ≠ okey 0x3130 4 → e.count i k = d.count i k

namespace AnswerOnly

theorem refl (d : Dev) : AnswerOnly d d := ⟨rfl, fun _ _ _ => rfl⟩

theorem trans {d e f : Dev} (h : AnswerOnly d e) (k : AnswerOnly e f) : AnswerOnly d f := by
  refine ⟨?_, fun i j hij => (k.count i j hij).trans (h.count i j hij)⟩
  have hf := k.shape
  rw [h.shape] at hf
  exact hf

theorem of_fabricOnly {d e : Dev} (h : FabricOnly d e) : AnswerOnly d e := by
  unfold FabricOnly at h
  rw [h]
  exact ⟨rfl, fun _ _ _ => rfl⟩

theorem foldl {α : Type} {g : Dev → α → Dev} (kept : ∀ e a, AnswerOnly e (g e a)) (l : List α) (d : Dev) : AnswerOnly d (l.foldl g d) := by
  induction l generalizing d with
  | nil => exact .refl d
  | cons a l ih => exact (kept d a).trans (ih _)

variable {d e : Dev} (h : AnswerOnly d e)
include h

theorem cfg : e.cfg = d.cfg := by rw [h.shape]
theorem mem : e.mem = d.mem := by rw [h.shape]
theorem pins : e.pins = d.pins := by rw [h.shape]

end AnswerOnly

theorem answerOnly_updFab (d : Dev) (n : Nat) (f : FabricPort → FabricPort) : AnswerOnly d (d.updFab n f) := ⟨rfl, fun _ _ _ => rfl⟩

theorem answerOnly_updStream (d : Dev) (n : Nat) (f : Stream → Stream) : AnswerOnly d (d.updStream n f) := ⟨rfl, fun _ _ _ => rfl⟩

theorem answerOnly_injected (d : Dev) (op : BitVec 4) (cmd : FabCmd) (st : Status) : AnswerOnly d (d.injected op cmd st) := by
  unfold Dev.injected
  split
  · exact (answerOnly_updStream d cmd.addr.toNat Stream.tailNext).trans
      ⟨rfl, fun i k h => (Dev.count_bump _ 0x3130 4 1 (i, k) (by omega)).trans (if_neg h)⟩
  · exact .refl d

theorem answerOnly_nocSend (d : Dev) (k : NocPacket) : AnswerOnly d (d.nocSend k) := by
  unfold Dev.nocSend
  split <;> exact ⟨rfl, fun _ _ _ => rfl⟩

theorem answerOnly_failDesc (d : Dev) (k : DescKey) (st : Status) : AnswerOnly d (d.failDesc k st) := by
  unfold Dev.failDesc
  split
  · split <;> exact ⟨rfl, fun _ _ _ => rfl⟩
  · exact .refl d

theorem answerOnly_reply (d : Dev) (a : Access) (st : Status) (data : List Byte) : AnswerOnly d (d.reply a st data) := by
  unfold Dev.reply
  dsimp only
  split
  case h_1 => exact ⟨rfl, fun _ _ _ => rfl⟩
  case h_2 =>
    split
    · exact (answerOnly_injected ..).trans (answerOnly_updFab ..)
    · split
      · exact (answerOnly_injected ..).trans (answerOnly_updFab ..)
      · exact .refl d
  case h_3 => exact answerOnly_nocSend ..
  case h_4 => exact .of_fabricOnly (fabricOnly_sendSaeri ..)
  case h_5 =>
    split
    · split
      · split
        · exact answerOnly_failDesc ..
        · split
          · exact ⟨rfl, fun _ _ _ => rfl⟩
          · exact .refl d
      · exact .refl d
    · exact .refl d
  case h_6 => exact answerOnly_updStream ..
  case h_7 =>
    split
    · exact answerOnly_updStream ..
    · exact .refl d

theorem answerOnly_partDone (d : Dev) (p : Part) (st : Status) (data : List Byte) : AnswerOnly d (d.partDone p st data) := by
  unfold Dev.partDone
  split
  · exact .refl d
  · dsimp only
    split
    · exact AnswerOnly.trans (e := { d with accesses := d.accesses.filter fun x => x.id ≠ p.id }) ⟨rfl, fun _ _ _ => rfl⟩ (answerOnly_reply ..)
    · exact ⟨rfl, fun _ _ _ => rfl⟩

/-! ### What a crossing of the network changes -/

/-- `e` is `d` with other counters and another state of the network. -/
def CrossOnly (d e : Dev) : Prop := e = { d with counters := e.counters, noc := e.noc }

theorem CrossOnly.refl (d : Dev) : CrossOnly d d := rfl

theorem CrossOnly.trans {d e f : Dev} (h : CrossOnly d e) (k : CrossOnly e f) : CrossOnly d f := by
  unfold CrossOnly at h k ⊢
  rw [h] at k
  exact k

theorem CrossOnly.mem {d e : Dev} (h : CrossOnly d e) : e.mem = d.mem := by
  unfold CrossOnly at h
  rw [h]

theorem CrossOnly.pins {d e : Dev} (h : CrossOnly d e) : e.pins = d.pins := by
  unfold CrossOnly at h
  rw [h]

theorem crossOnly_foldl_carried {α β : Type} {dev : β → Dev} {g : β → α → β} (kept : ∀ b a, CrossOnly (dev b) (dev (g b a))) (l : List α) (b : β) :
    CrossOnly (dev b) (dev (l.foldl g b)) := by
  induction l generalizing b with
  | nil => exact .refl _
  | cons a l ih => exact (kept b a).trans (ih _)

theorem crossOnly_bump (d : Dev) (i k n : Nat) : CrossOnly d (d.bump i k n) := by
  unfold Dev.bump
  split <;> rfl

theorem crossOnly_probe (d : Dev) (k : NocPacket) (left : List (Nat × Nat)) (q : Nat) : CrossOnly d (d.probe k left q) := by
  unfold Dev.probe
  dsimp only
  split
  · exact .refl d
  · split
    · exact (crossOnly_bump d 0x7102 (q + 1) 1).trans rfl
    · exact crossOnly_bump ..

theorem crossOnly_probesAt (d : Dev) (k : NocPacket) (left : List (Nat × Nat)) : CrossOnly d (d.probesAt k left) := by
  unfold Dev.probesAt
  split
  · exact crossOnly_foldl_carried (dev := id) (fun e q => crossOnly_probe e k left q) _ d
  · exact .refl d

theorem crossOnly_cross (d : Dev) (k : NocPacket) : CrossOnly d (d.cross k).2 := by
  unfold Dev.cross
  split <;> exact crossOnly_probesAt ..

theorem crossOnly_crossAll (d : Dev) (ks : List NocPacket) : CrossOnly d (d.crossAll ks).2 :=
  crossOnly_foldl_carried (dev := Prod.snd) (g := fun acc k => let r := acc.2.cross k; (acc.1 && r.1, r.2)) (fun acc k => crossOnly_cross acc.2 k) ks
    (true, d)

theorem crossOnly_seam (d : Dev) (key : Nat) (write : Bool) (die n : Nat) : CrossOnly d (d.seam key write die n).2 := by
  unfold Dev.seam
  split
  · exact .refl d
  · exact (crossOnly_crossAll ..).trans rfl

/-! ### The isolation of a region -/

theorem answerOnly_isolatePort (d : Dev) (n : Nat) : AnswerOnly d (d.isolatePort n) :=
  (answerOnly_updFab d n _).trans (.foldl (fun e _ => answerOnly_partDone e _ _ _) _ _)

theorem answerOnly_isolateRegion (d : Dev) (p st cause : Nat) : AnswerOnly (d.setRegion p st cause) (d.isolateRegion p st cause) :=
  .foldl answerOnly_isolatePort _ _

theorem answerOnly_raiseHeld (d : Dev) (n : RoundNo) (st : Status) (h : Hold) (regions : List Nat) : AnswerOnly d (d.raiseHeld n st h regions) :=
  ⟨rfl, fun _ _ _ => rfl⟩

theorem regionState_setRegion (d : Dev) (p st cause : Nat) : (d.setRegion p st cause).regionState p = (st, cause) :=
  (tabGet_tabSet ..).trans (if_pos rfl)

/-! ### Frames that a scrubber marks -/

/-- A frame's mark, its count and its log entry (R344), before its region is isolated. -/
def Dev.marked (d : Dev) (f word : Nat) : Dev :=
  (d.bump 0x3150 2 1).updCfg fun c =>
    { c with frames := tabSet c.frames f { tabGet Frame.clear c.frames f with bad := true }
             scrubLog := logPush c.scrubLog { frame := f, word := word, partition := d.frameOwner f, time := d.timestamp } }

theorem Dev.marked_bad (d : Dev) (f word : Nat) : (tabGet Frame.clear (d.marked f word).cfg.frames f).bad = true :=
  congrArg Frame.bad ((tabGet_tabSet ..).trans (if_pos rfl))

theorem Dev.marked_count (d : Dev) (f word : Nat) : (d.marked f word).count 0x3150 2 = (d.count 0x3150 2 + 1) % 2 ^ 64 :=
  (Dev.count_bump d 0x3150 2 1 (0x3150, 2) (by omega)).trans (if_pos rfl)

/-- Marking a frame isolates its region where that is VALID (R344). -/
theorem answerOnly_markBad (d : Dev) (f word : Nat) :
    AnswerOnly (if (d.regionState (d.frameOwner f)).1 = 1 then (d.marked f word).setRegion (d.frameOwner f) 3 5 else d.marked f word)
      (d.markBad f word) := by
  have hregion : (d.marked f word).regionState (d.frameOwner f) = d.regionState (d.frameOwner f) := rfl
  unfold Dev.markBad
  extract_lets p e marked hitRegions hit isolated
  rw [show marked.regionState p = d.regionState p from hregion, ite_not]
  split
  · refine .trans ?_ (.foldl (fun e (r : Round) => answerOnly_raiseHeld e r.number _ _ _) _ _)
    by_cases hp : p = 0
    · rw [show isolated = _ from if_pos hp, show d.frameOwner f = 0 from hp]
      exact .foldl answerOnly_isolatePort _ _
    · rw [show isolated = _ from if_neg hp]
      exact answerOnly_isolateRegion ..
  · exact .refl _

/-! ### Scrubbing -/

/-- A scrubber's place after it has read a frame. -/
def Dev.scrubPassed (d : Dev) (f : Nat) : Dev := { d with cfg := { d.cfg with scrubAt := tabSet d.cfg.scrubAt (frameDie f) (f + 1) } }

/-- The count of votes of a read (R342). -/
def Dev.scrubVoted (d : Dev) (o : ScrubObs) : Dev := if o.voteMismatch then d.bump 0x3150 4 1 else d

/-- The word that a read reports bad: the first one that cannot be corrected, or 0xFF for the frame's CRC. -/
def scrubReported (o : ScrubObs) : Option Nat :=
  match o.badWord with
  | some w => some w.toNat
  | none => if o.crcBad then some 0xFF else none

theorem scrubReported_word {o : ScrubObs} {w : BitVec 6} (h : o.badWord = some w) : scrubReported o = some w.toNat := by simp [scrubReported, h]
theorem scrubReported_crc {o : ScrubObs} (h : o.badWord = none) (hc : o.crcBad = true) : scrubReported o = some 0xFF := by simp [scrubReported, h, hc]
theorem scrubReported_none {o : ScrubObs} (h : o.badWord = none) (hc : o.crcBad = false) : scrubReported o = none := by simp [scrubReported, h, hc]

/-- What follows the report of a frame. -/
def Dev.scrubReport (d : Dev) (f : Nat) (word : Option Nat) : Dev :=
  if (tabGet Frame.clear d.cfg.frames f).bad then d else word.elim d fun w => d.markBad f w

theorem scrubFrame_ignored {f : Nat} {o : ScrubObs} {d : Dev}
    (h : frameValid f = false ∨ f < tabGet (2 ^ 18) d.cfg.scrubAt (frameDie f) ∨ ∃ w, o.badWord = some w ∧ 36 ≤ w.toNat) : scrubFrame f o d = d := by
  refine if_pos ?_
  rcases h with h | h | ⟨w, hw, hlarge⟩
  · exact .inl (by simp [h])
  · exact .inr (.inr h)
  · exact .inr (.inl (by simp [hw, hlarge]))

/-- A frame that the pass has not reached is read, one of die 1 over the seam. -/
theorem scrubFrame_reads {f : Nat} {o : ScrubObs} {d : Dev} (hvalid : frameValid f = true) (hnext : tabGet (2 ^ 18) d.cfg.scrubAt (frameDie f) ≤ f)
    (hword : ∀ w, o.badWord = some w → w.toNat < 36) :
    scrubFrame f o d =
      let e := ((d.scrubPassed f).seam 419 false (frameDie f) 576).2.scrubVoted o
      if d.frameOwner f ≠ 0 ∧ (e.regionState (d.frameOwner f)).1 ≠ 1 then e else (e.bump 0x3150 1 o.corrected).scrubReport f (scrubReported o) := by
  have hno : ¬((!frameValid f) = true ∨ (o.badWord.any fun w => decide (36 ≤ w.toNat)) = true ∨ f < tabGet (2 ^ 18) d.cfg.scrubAt (frameDie f)) := by
    rintro (h | h | h)
    · simp [hvalid] at h
    · obtain ⟨w, hw, hlarge⟩ := (Option.any_eq_true _ _).1 h
      exact absurd (of_decide_eq_true hlarge) (Nat.not_le.2 (hword w hw))
    · omega
  refine (if_neg hno).trans ?_
  unfold Dev.scrubReport scrubReported
  rcases o.badWord with - | w
  · rcases o.crcBad with - | - <;> rfl
  · rfl

theorem Dev.seam_here (d : Dev) (key n : Nat) (write : Bool) : (d.seam key write 0 n).2 = d := rfl

section voted
variable (d : Dev) (f : Nat) (o : ScrubObs)

theorem Dev.scrubVoted_cfg : (d.scrubVoted o).cfg = d.cfg := by unfold Dev.scrubVoted; split <;> simp
theorem Dev.scrubVoted_mem : (d.scrubVoted o).mem = d.mem := by unfold Dev.scrubVoted; split <;> simp
theorem Dev.scrubVoted_pins : (d.scrubVoted o).pins = d.pins := by unfold Dev.scrubVoted; split <;> simp
theorem Dev.scrubVoted_cycles : (d.scrubVoted o).cycles = d.cycles := by unfold Dev.scrubVoted; split <;> simp

/-- Votes and corrections are counted apart from the frames marked bad. -/
theorem Dev.scrubVoted_count (n : Nat) : ((d.scrubVoted o).bump 0x3150 1 n).count 0x3150 2 = d.count 0x3150 2 := by
  have hkeep (e : Dev) (k n : Nat) (hk : okey 0x3150 2 ≠ okey 0x3150 k) : (e.bump 0x3150 k n).count 0x3150 2 = e.count 0x3150 2 := by
    by_cases hn : n = 0
    · rw [hn, Dev.bump_zero]
    · exact (Dev.count_bump e 0x3150 k n (0x3150, 2) hn).trans (if_neg hk)
  rw [hkeep _ 1 n (by decide)]
  unfold Dev.scrubVoted
  split
  · exact hkeep d 4 1 (by decide)
  · rfl

end voted

/-- What a report that marks a frame leaves (R344), for a device `e` that agrees with `d` but for the scrubber's place. -/
theorem scrubReport_marks {d e : Dev} {f w : Nat} {at' : Table Nat} (hcfg : e.cfg = { d.cfg with scrubAt := at' }) (hcycles : e.cycles = d.cycles)
    (hmem : e.mem = d.mem) (hcount : e.count 0x3150 2 = d.count 0x3150 2) (hgood : (tabGet Frame.clear d.cfg.frames f).bad = false) :
    (tabGet Frame.clear (e.scrubReport f (some w)).cfg.frames f).bad = true ∧
      (e.scrubReport f (some w)).cfg.scrubLog =
        logPush d.cfg.scrubLog { frame := f, word := w, partition := d.frameOwner f, time := d.timestamp } ∧
      (e.scrubReport f (some w)).count 0x3150 2 = (d.count 0x3150 2 + 1) % 2 ^ 64 ∧ (e.scrubReport f (some w)).mem = d.mem ∧
      (e.scrubReport f (some w)).regionState (d.frameOwner f) =
        if (d.regionState (d.frameOwner f)).1 = 1 then (3, 5) else d.regionState (d.frameOwner f) := by
  have howner : e.frameOwner f = d.frameOwner f := by simp only [Dev.frameOwner, hcfg]
  have hstate (p : Nat) : e.regionState p = d.regionState p := by simp only [Dev.regionState, hcfg]
  have htime : e.timestamp = d.timestamp := by simp only [Dev.timestamp, hcycles]
  have hreport : e.scrubReport f (some w) = e.markBad f w := if_neg (by simp [hcfg, hgood])
  have hmark := answerOnly_markBad e f w
  have hlog : (e.marked f w).cfg.scrubLog = logPush d.cfg.scrubLog { frame := f, word := w, partition := d.frameOwner f, time := d.timestamp } := by
    rw [← howner, ← htime, ← show e.cfg.scrubLog = d.cfg.scrubLog by rw [hcfg]]
    rfl
  rw [howner, hstate] at hmark
  rw [hreport, Dev.regionState, hmark.cfg, hmark.mem, hmark.count 0x3150 2 (by decide)]
  split
  · exact ⟨e.marked_bad f w, hlog, (e.marked_count f w).trans (by rw [hcount]), hmem, regionState_setRegion ..⟩
  · exact ⟨e.marked_bad f w, hlog, (e.marked_count f w).trans (by rw [hcount]), hmem, hstate _⟩

/-- A scrubber never touches memory or pins. -/
theorem scrubFrame_pins (f : Nat) (o : ScrubObs) (d : Dev) : (scrubFrame f o d).pins = d.pins := by
  have hmark (e : Dev) (w : Nat) : (e.markBad f w).pins = e.pins := by
    rw [(answerOnly_markBad e f w).pins]
    split <;> rfl
  have hreport (e : Dev) (w : Option Nat) : (e.scrubReport f w).pins = e.pins := by
    unfold Dev.scrubReport
    rcases w with - | w
    · simp
    · simp [apply_ite Dev.pins, hmark]
  by_cases h : frameValid f = false ∨ f < tabGet (2 ^ 18) d.cfg.scrubAt (frameDie f) ∨ ∃ w, o.badWord = some w ∧ 36 ≤ w.toNat
  · rw [scrubFrame_ignored h]
  · push Not at h
    obtain ⟨hvalid, hnext, hword⟩ := h
    have hread : (((d.scrubPassed f).seam 419 false (frameDie f) 576).2.scrubVoted o).pins = d.pins :=
      (Dev.scrubVoted_pins _ o).trans (crossOnly_seam ..).pins
    rw [scrubFrame_reads (by simpa using hvalid) hnext hword]
    dsimp only
    split
    · exact hread
    · rw [hreport, Dev.bump_pins, hread]

/-- Settles O40: a frame is read where its pass has come to it, and `markBad` adds to its counts and its log whatever the rounds of its region
meet. -/
theorem scrubbing : Obligations.Scrubbing := by
  unfold Obligations.Scrubbing
  intro s die f o hclk d p bad at' voted read entry marked
  refine ⟨fun h => onClock_gives_of_eq hclk (if_neg h), fun h => onClock_ignored (f := scrubPass die.toNat) (if_pos h),
    fun hvalid hnext hdie hword => ?_, fun _ => ?_, fun h => onClock_ignored (f := scrubFrame f.toNat o) (scrubFrame_ignored h)⟩
  · have hreads := scrubFrame_reads (o := o) hvalid hnext hword
    rw [hdie, Dev.seam_here] at hreads
    have hvoted : (s.dev.scrubPassed f.toNat).scrubVoted o = voted := rfl
    have hcfg : voted.cfg = { s.dev.cfg with scrubAt := tabSet s.dev.cfg.scrubAt (frameDie f.toNat) (f.toNat + 1) } :=
      Dev.scrubVoted_cfg (s.dev.scrubPassed f.toNat) o
    have hstate : voted.regionState p = s.dev.regionState p := by simp only [Dev.regionState, hcfg]
    dsimp only at hreads
    rw [hvoted, show s.dev.frameOwner f.toNat = p from rfl, hstate] at hreads
    refine ⟨fun hp hother => onClock_gives_of_eq hclk (hreads.trans (if_pos ⟨hp, hother⟩)), fun hown => ?_⟩
    have hreads' : scrubFrame f.toNat o s.dev = read.scrubReport f.toNat (scrubReported o) :=
      hreads.trans (if_neg fun h => hown.elim h.1 h.2)
    have hread : read.cfg = { s.dev.cfg with scrubAt := tabSet s.dev.cfg.scrubAt (frameDie f.toNat) (f.toNat + 1) } := (Dev.bump_cfg ..).trans hcfg
    have hmarks (w : Nat) (hgood : bad = false) : marked w (read.scrubReport f.toNat (some w)) :=
      scrubReport_marks hread ((Dev.bump_cycles ..).trans (Dev.scrubVoted_cycles (s.dev.scrubPassed f.toNat) o))
        ((Dev.bump_mem ..).trans (Dev.scrubVoted_mem (s.dev.scrubPassed f.toNat) o)) (Dev.scrubVoted_count (s.dev.scrubPassed f.toNat) o o.corrected) hgood
    refine ⟨fun h => onClock_gives_of_eq hclk (hreads'.trans ?_), fun hgood hnone hcrc => ⟨_, onClock_gives_of_eq hclk hreads', ?_⟩,
      fun w hgood hw => ⟨_, onClock_gives_of_eq hclk hreads', ?_⟩⟩
    · rcases h with ⟨hnone, hcrc⟩ | hbad
      · rw [scrubReported_none hnone hcrc, Dev.scrubReport, Option.elim_none, ite_self]
      · exact if_pos ((congrArg (fun c : Cfg => (tabGet Frame.clear c.frames f.toNat).bad) hread).trans hbad)
    · rw [scrubReported_crc hnone hcrc]; exact hmarks _ hgood
    · rw [scrubReported_word hw]; exact hmarks _ hgood
  · exact ⟨_, onClock_gives_of_eq hclk rfl, scrubFrame_mem .., scrubFrame_pins ..⟩

end Sys2Proof.Machine
end

section
/-! A host read that lies partly in reserved space, over a network that no longer carries it (R22, R233). -/

namespace Sys2Proof.Machine

/-- A state with its clocks running and every link of the network removed. -/
def linklessState : State :=
  { State.reset with dev := { Dev.reset with
      pins := { Pins.reset with clocks := true }
      noc := { Noc.reset with health := (List.range 52).map fun b => (b, 0x3F) } } }

/-- The last byte of tile memory 63. -/
def lastTileByte : BitVec 52 := BitVec.ofNat 52 (tileBase + 63 * 0x200000 + 0xFFFFF)

/-- Where no link carries the request, the host is answered with HW_UNCORRECTABLE and not with ADDRESS. -/
theorem linklessState_read :
    (linklessState.dev.issue linklessState.fuses { origin := .host, addr := lastTileByte.toNat, len := 2, data := none }).hostOut =
      [{ status := .hwUncorrectable, data := deadBytes lastTileByte.toNat 2 }] := by decide +kernel

theorem linklessState_noImports : linklessState.dev.imports = [] := by decide +kernel
theorem linklessState_reserved : linklessState.dev.regionOfRange lastTileByte.toNat 2 = .reserved := by decide +kernel

/-- Refutes O48: a range that lies partly in reserved space crosses the network to the endpoint of its first byte, and with every link of the way
removed the read fails with HW_UNCORRECTABLE (R233) before the address is looked at. -/
theorem not_hostPort : ¬ Obligations.HostPort := by
  unfold Obligations.HostPort
  intro h
  obtain ⟨_, _, hreserved, _⟩ := h linklessState lastTileByte 2 [] rfl (fun o ho => absurd ho (List.not_mem_nil (a := o)))
  obtain ⟨t, hgives, _, hout⟩ := hreserved linklessState_noImports (by decide) linklessState_reserved
  have hdev : linklessState.dev.issue linklessState.fuses { origin := .host, addr := lastTileByte.toNat, len := 2, data := none } = t :=
    congrArg State.dev (Host.Outcome.next.inj hgives)
  rw [← hdev, linklessState_read] at hout
  exact absurd hout (by decide +kernel)

end Sys2Proof.Machine
end

section
/-! Writes of memory that is ready, and accesses of HBM (R202, R205, R209 to R217). -/

namespace Sys2Proof.Machine

/-! ### Words and pieces of a range -/

theorem mem_wordsOf {a n w : Nat} : w ∈ wordsOf a n ↔ n ≠ 0 ∧ a / 16 ≤ w ∧ w ≤ (a + n - 1) / 16 := by
  unfold wordsOf
  split
  next h => simp [h]
  next h =>
    simp only [List.mem_map, List.mem_range, h, not_false_eq_true, ne_eq, true_and]
    constructor
    · rintro ⟨i, hi, rfl⟩; omega
    · intro hw; exact ⟨w - a / 16, by omega, by omega⟩

/-- A piece lies in its range. -/
theorem within_of_mem_piecesOf {a n : Nat} {p : Nat × Nat} (h : p ∈ piecesOf a n) : a ≤ p.1 ∧ p.1 + p.2 ≤ a + n ∧ p.2 ≠ 0 := by
  unfold piecesOf at h
  split at h
  · simp at h
  · simp only [List.mem_map, List.mem_range] at h
    obtain ⟨i, hi, rfl⟩ := h
    dsimp only
    omega

theorem mem_wordsOf_of_piece {a n w : Nat} {p : Nat × Nat} (h : p ∈ piecesOf a n) (hw : w ∈ wordsOf p.1 p.2) : w ∈ wordsOf a n := by
  obtain ⟨h1, h2, h3⟩ := within_of_mem_piecesOf h
  rw [mem_wordsOf] at hw ⊢
  omega

theorem slice_length (l : List Byte) (i n : Nat) : (slice l i n).length = n := by simp [slice]

theorem slice_eq_take_drop {l : List Byte} {i n : Nat} (h : i + n ≤ l.length) : slice l i n = (l.drop i).take n := by
  refine List.ext_getElem (by simp [slice]; omega) fun j h1 h2 => ?_
  have hj : i + j < l.length := by simp [slice] at h1; omega
  simp [slice, hj]

theorem memWrite_append (m : List Host.Cell) (a : Nat) (x y : List Byte) :
    memWrite m a (x ++ y) = memWrite (memWrite m a x) (a + x.length) y := by
  induction x generalizing m a with
  | nil => rfl
  | cons b x ih =>
    rw [List.cons_append, memWrite, ih, memWrite, List.length_cons]
    congr 1
    omega

/-- Bytes written in aligned pieces are the bytes written at once. -/
theorem memWrite_pieces (m : List Host.Cell) (a : Nat) (b : List Byte) :
    (piecesOf a b.length).foldl (fun m p => memWrite m p.1 (slice b (p.1 - a) p.2)) m = memWrite m a b := by
  by_cases hn : b.length = 0
  · rw [List.eq_nil_of_length_eq_zero hn]; rfl
  have step (j : Nat) (hj : j ≤ (a + b.length - 1) / 64 + 1 - a / 64) :
      ((List.range j).map fun i => (max a ((a / 64 + i) * 64), min (a + b.length) ((a / 64 + i) * 64 + 64) - max a ((a / 64 + i) * 64))).foldl
        (fun m p => memWrite m p.1 (slice b (p.1 - a) p.2)) m = memWrite m a (b.take (min (a + b.length) ((a / 64 + j) * 64) - a)) := by
    induction j with
    | zero => rw [show min (a + b.length) ((a / 64 + 0) * 64) - a = 0 by omega]; rfl
    | succ j ih =>
      rw [List.range_succ, List.map_append, List.foldl_append, ih (by omega), List.map_singleton, List.foldl_cons, List.foldl_nil,
        slice_eq_take_drop (by omega)]
      have hlen : (b.take (min (a + b.length) ((a / 64 + j) * 64) - a)).length = max a ((a / 64 + j) * 64) - a := by
        rw [List.length_take]; omega
      rw [show max a ((a / 64 + j) * 64) = a + (b.take (min (a + b.length) ((a / 64 + j) * 64) - a)).length by omega, ← memWrite_append, hlen,
        show min (a + b.length) ((a / 64 + (j + 1)) * 64) - a = (max a ((a / 64 + j) * 64) - a) +
          (min (a + b.length) ((a / 64 + j) * 64 + 64) - (a + (max a ((a / 64 + j) * 64) - a))) by omega, List.take_add,
        show min (a + b.length) ((a / 64 + j) * 64) - a = max a ((a / 64 + j) * 64) - a by omega,
        show a + (max a ((a / 64 + j) * 64) - a) - a = max a ((a / 64 + j) * 64) - a by omega]
  rw [piecesOf, if_neg hn]
  refine (step _ le_rfl).trans ?_
  rw [List.take_of_length_le (by omega)]

/-! ### What a write changes -/

/-- `e` is `d` after checks and writes of words without uncorrectable errors: other bytes, fewer latent errors, and counters that move only where
there were some; and lines have left the caches. -/
structure Written (d e : Dev) : Prop where
  shape : e = { d with mem := e.mem, latent := e.latent, counters := e.counters, clusters := e.clusters }
  quiet : d.latent = [] → e.latent = [] ∧ e.counters = d.counters

namespace Written

theorem refl (d : Dev) : Written d d := ⟨rfl, fun h => ⟨h, rfl⟩⟩

theorem trans {d e f : Dev} (h : Written d e) (k : Written e f) : Written d f := by
  refine ⟨?_, fun hd => ?_⟩
  · have hf := k.shape
    rw [h.shape] at hf
    exact hf
  · obtain ⟨he, hc⟩ := h.quiet hd
    obtain ⟨hf, hk⟩ := k.quiet he
    exact ⟨hf, hk.trans hc⟩

variable {d e : Dev} (h : Written d e)
include h

theorem served : Served d e := by rw [h.shape]; constructor <;> rfl
theorem hbm : e.hbm = d.hbm := by rw [h.shape]
theorem badWords : e.badWords = d.badWords := by rw [h.shape]
theorem hbmFailed (a n : Nat) : e.hbmFailed a n = d.hbmFailed a n := by rw [h.shape]; rfl

end Written

theorem written_correct (d : Dev) (ws : List Nat) : Written d (d.correct ws) := by
  have fold (l : List Nat) (e : Dev) :
      (l.foldl (fun e w => let o := (e.regionOf (w * 16)).correctedObj; e.bump o.1 o.2 1) e) =
        { e with counters := (l.foldl (fun e w => let o := (e.regionOf (w * 16)).correctedObj; e.bump o.1 o.2 1) e).counters } := by
    induction l generalizing e with
    | nil => rfl
    | cons w l ih => exact ih _
  refine ⟨?_, fun hd => by simp [Dev.correct, hd]⟩
  unfold Dev.correct
  rw [fold]

theorem written_dropLine (d : Dev) (l : Nat) : Written d (d.dropLine l) := ⟨rfl, fun h => ⟨h, rfl⟩⟩

theorem written_foldl {α : Type} {g : Dev → α → Dev} (kept : ∀ e a, Written e (g e a)) (l : List α) (d : Dev) : Written d (l.foldl g d) := by
  induction l generalizing d with
  | nil => exact .refl d
  | cons a l ih => exact (kept d a).trans (ih _)

/-- A piece whose words are sound, on channels that work, is written. -/
theorem writePiece_of_sound {hbm : Bool} {d : Dev} {a : Nat} {b : List Byte} (hs : ∀ w ∈ wordsOf a b.length, d.badWords.contains w = false)
    (hf : hbm = true → d.hbmFailed a b.length = false) :
    (d.writePiece hbm a b).1 = true ∧ Written d (d.writePiece hbm a b).2 ∧ (d.writePiece hbm a b).2.mem = memWrite d.mem a b := by
  unfold Dev.writePiece
  extract_lets n partly bad e whole
  have hbad : bad = [] := List.filter_eq_nil_iff.2 fun w hw => by rw [hs w (List.mem_filter.1 hw).1]; exact Bool.false_ne_true
  have hpartly : Written d e := written_correct d partly
  have hkept : e.badWords.filter (fun w => !whole.contains w) = d.badWords := by
    rw [hpartly.badWords, List.filter_eq_self]
    intro w hw
    by_contra hin
    have hwhole : w ∈ whole := by simpa using hin
    have hsound := hs w (List.mem_filter.1 hwhole).1
    simp [hw] at hsound
  have hlive : ¬(hbm = true ∧ d.hbmFailed a n = true) := fun h => by simp [hf h.1, n] at h
  rw [if_neg hlive, if_neg (by simp [hbad]), hkept]
  refine ⟨rfl, ⟨?_, fun hd => ?_⟩, by rw [show e.mem = d.mem from correct_mem d partly]⟩
  · rw [hpartly.shape]
  · obtain ⟨he, hc⟩ := hpartly.quiet hd
    exact ⟨by simp [he], hc⟩

/-- Pieces whose words are sound are all written. -/
theorem foldl_writePiece {hbm : Bool} {a : Nat} {b : List Byte} {l : List (Nat × Nat)} {d : Dev}
    (hs : ∀ p ∈ l, ∀ w ∈ wordsOf p.1 p.2, d.badWords.contains w = false) (hf : hbm = true → ∀ p ∈ l, d.hbmFailed p.1 p.2 = false) :
    let out := l.foldl (fun (acc : Status × Dev) p =>
      let w := acc.2.writePiece hbm p.1 (slice b (p.1 - a) p.2)
      (if w.1 then acc.1 else .hwUncorrectable, w.2)) (.done, d)
    out.1 = .done ∧ Written d out.2 ∧ out.2.mem = l.foldl (fun m p => memWrite m p.1 (slice b (p.1 - a) p.2)) d.mem := by
  induction l generalizing d with
  | nil => exact ⟨rfl, .refl d, rfl⟩
  | cons p l ih =>
    obtain ⟨hdone, hwritten, hmem⟩ := writePiece_of_sound (hbm := hbm) (d := d) (a := p.1) (b := slice b (p.1 - a) p.2)
      (by rw [slice_length]; exact hs p (by simp)) (fun h => by rw [slice_length]; exact hf h p (by simp))
    obtain ⟨h1, h2, h3⟩ := ih (d := (d.writePiece hbm p.1 (slice b (p.1 - a) p.2)).2)
      (fun q hq w hw => by rw [hwritten.badWords]; exact hs q (by simp [hq]) w hw)
      (fun h q hq => by rw [hwritten.hbmFailed]; exact hf h q (by simp [hq]))
    simp only [List.foldl_cons, hdone, if_true, ← hmem]
    exact ⟨h1, hwritten.trans h2, h3⟩

/-- The device whose HBM map is fixed where a range lies in HBM (R211). -/
def Dev.lockedFor (d : Dev) (a n : Nat) : Dev := if d.regionOfRange a n = .hbm then d.lockMap else d

/-- A write of memory that is ready lands whole (R202, R205, R216). -/
theorem writeMem_of_ready {d : Dev} {a : Nat} {b : List Byte} (h : MemoryReady d a b.length) :
    (d.writeMem a b).1 = .done ∧ Written (d.lockedFor a b.length) (d.writeMem a b).2 ∧ (d.writeMem a b).2.mem = memWrite d.mem a b := by
  obtain ⟨_, hpos, _, _, hb, hr⟩ := h
  have hsound : ∀ p ∈ piecesOf a b.length, ∀ w ∈ wordsOf p.1 p.2, d.badWords.contains w = false := fun p hp w hw => hb w (mem_wordsOf_of_piece hp hw)
  have plain (hreg : d.regionOfRange a b.length ≠ .hbm) :
      Written d ((piecesOf a b.length).foldl (fun (acc : Status × Dev) p =>
        let w := acc.2.writePiece false p.1 (slice b (p.1 - a) p.2)
        (if w.1 then acc.1 else .hwUncorrectable, w.2)) (.done, d)).2 → Written (d.lockedFor a b.length) _ := fun hw => by
    rw [Dev.lockedFor, if_neg hreg]; exact hw
  unfold Dev.writeMem
  rcases hr with ⟨hreg, _, hfail⟩ | ⟨c, _, hreg⟩ | ⟨c, _, hreg | hreg⟩
  · have hlive : ∀ p ∈ piecesOf a b.length, d.lockMap.hbmFailed p.1 p.2 = false := fun p hp => by
      unfold Dev.hbmFailed at hfail ⊢
      rw [List.any_eq_false] at hfail ⊢
      exact fun w hw => hfail w (mem_wordsOf_of_piece hp hw)
    obtain ⟨h1, h2, h3⟩ := foldl_writePiece (hbm := true) (b := b) (d := d.lockMap) hsound fun _ => hlive
    have hdropped := written_foldl (fun e i => written_dropLine e (a / 256 + i)) (List.range ((a + b.length - 1) / 256 + 1 - a / 256))
      ((piecesOf a b.length).foldl (fun (acc : Status × Dev) p =>
        let w := acc.2.writePiece true p.1 (slice b (p.1 - a) p.2)
        (if w.1 then acc.1 else .hwUncorrectable, w.2)) (.done, d.lockMap)).2
    simp only [hreg, if_neg (Nat.ne_of_gt hpos), Dev.lockedFor, if_true]
    refine ⟨h1, h2.trans hdropped, (foldl_mem (f := fun e i => e.dropLine (a / 256 + i)) (fun _ _ => rfl) _ _).trans (h3.trans (memWrite_pieces ..))⟩
  all_goals
    obtain ⟨h1, h2, h3⟩ := foldl_writePiece (hbm := false) (b := b) (d := d) hsound (by simp)
    have hlocked := plain (by simp [hreg]) h2
    simp only [hreg]
    exact ⟨h1, hlocked, h3.trans (memWrite_pieces ..)⟩

end Sys2Proof.Machine
end

section
/-! Accesses of HBM (R209 to R217). -/

namespace Sys2Proof.Machine

/-! ### Errors that strike, checks that correct, events that are logged -/

/-- `e` is `d` with errors struck. -/
def Struck (d e : Dev) : Prop := e = { d with badWords := e.badWords, latent := e.latent }

theorem Struck.trans {d e f : Dev} (h : Struck d e) (k : Struck e f) : Struck d f := by
  unfold Struck at h k ⊢
  rw [h] at k
  exact k

theorem struck_strikes (d : Dev) (us : List UpsetAt) : Struck d (d.strikes us) := by
  have one (e : Dev) (u : UpsetAt) : Struck e (e.strike u) := by
    unfold Dev.strike
    extract_lets w
    repeat' split
    all_goals rfl
  unfold Dev.strikes
  induction us generalizing d with
  | nil => rfl
  | cons u us ih => exact (one d u).trans (ih _)

/-- The lock of the map and the check of words do not meet. -/
theorem correct_lockMap (d : Dev) (ws : List Nat) : d.lockMap.correct ws = { d.correct ws with hbm := { d.hbm with mapLocked := true } } := by
  have fold (l : List Nat) (e : Dev) (x : Hbm) :
      l.foldl (fun (d : Dev) w => let o := (d.regionOf (w * 16)).correctedObj; d.bump o.1 o.2 1) { e with hbm := x } =
        { l.foldl (fun (d : Dev) w => let o := (d.regionOf (w * 16)).correctedObj; d.bump o.1 o.2 1) e with hbm := x } := by
    induction l generalizing e with
    | nil => rfl
    | cons w l ih => exact ih (e.bump (e.regionOf (w * 16)).correctedObj.1 (e.regionOf (w * 16)).correctedObj.2 1)
  exact fold _ { d with latent := d.latent.filter fun w => !ws.contains w } _

/-- Corrected words are counted apart from the events of the controllers. -/
theorem correct_count_events (d : Dev) (ws : List Nat) : (d.correct ws).count 0x3410 2 = d.count 0x3410 2 := by
  have hobj (r : Region) : okey 0x3410 2 ≠ okey r.correctedObj.1 r.correctedObj.2 := by
    unfold okey
    cases r <;> dsimp only [Region.correctedObj] <;> omega
  refine foldl_kept (view := fun e => e.count 0x3410 2)
    (g := fun (d : Dev) w => let o := (d.regionOf (w * 16)).correctedObj; d.bump o.1 o.2 1) (fun e w => ?_) _ _
  exact (Dev.count_bump e _ _ 1 (0x3410, 2) (by omega)).trans (if_neg (hobj _))

theorem getLast?_logPush {α : Type} (l : List α) (e : α) : (logPush l e).getLast? = some e := by
  rw [logPush, List.getLast?_drop, if_neg (by simp), List.getLast?_concat]

/-- An event of a controller is counted and logged (R217). -/
theorem hbmEvent_logs (d : Dev) (w source : Nat) :
    (d.hbmEvent w source).hbm.log.getLast? = some { addr := w * 16, pc := (d.hbmMap (w * 16)).1, source := source, time := d.timestamp } ∧
      (d.hbmEvent w source).count 0x3410 2 = (d.count 0x3410 2 + 1) % 2 ^ 64 :=
  ⟨getLast?_logPush _ _, (Dev.count_bump d 0x3410 2 1 (0x3410, 2) (by omega)).trans (if_pos rfl)⟩

/-! ### Accesses -/

/-- One access of HBM lies in HBM. -/
theorem regionOfRange_of_oneRow {d : Dev} {a n : Nat} (h : d.oneRow a n = true) (e : Dev) : e.regionOfRange a n = .hbm := by
  simp only [Dev.oneRow, Bool.and_eq_true, bne_iff_ne, ne_eq, decide_eq_true_eq, beq_iff_eq] at h
  obtain ⟨⟨⟨hn, hsize⟩, _⟩, _⟩ := h
  unfold hbmSize at hsize
  have hbm (x : Nat) (hx : x < 0x4800000000) : e.regionOf x = .hbm := if_pos hx
  unfold Dev.regionOfRange
  dsimp only
  rw [hbm a (by omega), hbm (a + n - 1) (by omega), if_pos (.inr rfl)]

/-- What the controller keeps of an access under the map of `d`. -/
def Dev.lastOf (d : Dev) (a : Nat) (st : Status) (b : List Byte) : HbmLast :=
  let m := d.hbmMap a
  let w := hbmPlace m.2
  { pc := m.1, bank := w.1, row := w.2.1, column := w.2.2, status := st, data := b }

theorem hbmRecord_hbm {d e : Dev} (h : e.objs = d.objs) (a : Nat) (st : Status) (b : List Byte) :
    (e.hbmRecord a st b).hbm = { e.hbm with last := some (d.lastOf a st b) } := by
  unfold Dev.hbmRecord Dev.updHbm Dev.lastOf
  rw [hbmMap_of_objs h]

theorem readHbm_objs (d : Dev) (ws : List Nat) : (d.readHbm ws).2.objs = d.objs := by
  refine (foldl_kept (view := Dev.objs) (g := fun (d : Dev) w => d.hbmEvent w 0) (fun e w => Dev.bump_objs e 0x3410 2 1) _ _).trans ?_
  rw [(written_correct _ _).shape]
  rfl

section access
variable {d : Dev} {a n parity : Nat} {us : List UpsetAt}

/-- An access that the controller takes. -/
theorem hbmAccess_taken {write : Option (List Byte)} (ht : d.hbm.trained = true) (ho : d.oneRow a n = true) (hw : ∀ b, write = some b → b.length = n) :
    hbmAccess a n write us parity d =
      if 2 ≤ parity then (d.lockMap.hbmEvent (a / 16) 3).hbmRecord a .hwUncorrectable (deadBytes a n)
      else write.elim (((d.strikes us).readMem a n).2.2.hbmRecord a ((d.strikes us).readMem a n).1 ((d.strikes us).readMem a n).2.1) fun b =>
        if (d.strikes us).protectors a b.length ≠ [] then ((d.strikes us).failInputs ((d.strikes us).protectors a b.length)).hbmRecord a .inputWrite []
        else ((d.strikes us).writeMem a b).2.hbmRecord a ((d.strikes us).writeMem a b).1 [] := by
  have hlen : (write.any fun b => b.length != n) = false := by
    cases write with
    | none => rfl
    | some b => simp [hw b rfl]
  refine (if_neg (by simp [ht, ho, hlen])).trans ?_
  cases write <;> rfl

theorem readMem_of_oneRow (ho : d.oneRow a n = true) (e : Dev) :
    e.readMem a n = if (e.readHbm (wordsOf a n)).1 then (.done, memRead e.mem a n, (e.readHbm (wordsOf a n)).2)
      else (.hwUncorrectable, deadBytes a n, (e.readHbm (wordsOf a n)).2) := by
  simp only [Dev.readMem, regionOfRange_of_oneRow ho e]

/-- Words that are sound are delivered. -/
theorem readHbm_sound {e : Dev} {ws : List Nat} (hb : ∀ w ∈ ws, e.badWords.contains w = false)
    (hf : (ws.any fun w => e.hbm.failed.contains (e.hbmMap (w * 16)).1) = false) : e.readHbm ws = (true, e.lockMap.correct ws) := by
  have hbad : ws.filter (fun w => e.badWords.contains w) = [] :=
    List.filter_eq_nil_iff.2 fun w hw => by rw [hb w hw]; exact Bool.false_ne_true
  simp only [Dev.readHbm, hbad, hf, List.foldl_nil]
  rfl

/-- A word that cannot be corrected fails the read. -/
theorem readHbm_bad {e : Dev} {ws : List Nat} {k : Nat} (hk : k ∈ ws) (hb : k ∈ e.badWords) : (e.readHbm ws).1 = false := by
  have hbad : ws.filter (fun w => e.badWords.contains w) ≠ [] :=
    List.ne_nil_of_mem (List.mem_filter.2 ⟨hk, by simpa using hb⟩)
  simp only [Dev.readHbm, beq_eq_false_iff_ne.2 hbad, Bool.false_and]

end access

section effects
variable {d : Dev} {a n parity : Nat} {us : List UpsetAt}

/-- A read whose words are sound. -/
theorem hbmAccess_reads (h : MemoryReady (d.strikes us) a n) (ho : d.oneRow a n = true) (hp : parity < 2) :
    hbmAccess a n none us parity d =
      { (d.strikes us).correct (wordsOf a n) with
        hbm := { d.hbm with mapLocked := true, last := some (d.lastOf a .done (memRead d.mem a n)) } } := by
  have hstruck := struck_strikes d us
  obtain ⟨_, _, _, _, hb, hr⟩ := h
  have hhbm : (d.strikes us).hbm = d.hbm := by rw [hstruck]
  have hregion := regionOfRange_of_oneRow ho (d.strikes us)
  have htrained : d.hbm.trained = true ∧ (d.strikes us).hbmFailed a n = false := by
    rcases hr with ⟨_, ht, hf⟩ | ⟨c, _, h1⟩ | ⟨c, _, h1 | h1⟩
    · exact ⟨hhbm ▸ ht, hf⟩
    all_goals rw [hregion] at h1; cases h1
  have hread := readHbm_sound hb htrained.2
  rw [hbmAccess_taken htrained.1 ho (by simp), if_neg (by omega), Option.elim_none, readMem_of_oneRow ho, hread, if_pos rfl, Dev.strikes_mem]
  have hobjs : ((d.strikes us).lockMap.correct (wordsOf a n)).objs = d.objs := by
    rw [(written_correct _ _).shape]
    show (d.strikes us).objs = d.objs
    rw [hstruck]
  have hkept := hbmRecord_hbm hobjs a .done (memRead d.mem a n)
  have hrecord : ((d.strikes us).lockMap.correct (wordsOf a n)).hbmRecord a .done (memRead d.mem a n) =
      { (d.strikes us).lockMap.correct (wordsOf a n) with
        hbm := (((d.strikes us).lockMap.correct (wordsOf a n)).hbmRecord a .done (memRead d.mem a n)).hbm } := rfl
  dsimp only
  rw [hrecord, hkept, correct_lockMap, hhbm]

/-- A read that meets a word with an error that cannot be corrected. -/
theorem hbmAccess_readsBad {k : Nat} (ht : d.hbm.trained = true) (ho : d.oneRow a n = true) (hp : parity < 2) (hk : k ∈ wordsOf a n)
    (hb : k ∈ (d.strikes us).badWords) :
    hbmAccess a n none us parity d = ((d.strikes us).readHbm (wordsOf a n)).2.hbmRecord a .hwUncorrectable (deadBytes a n) := by
  rw [hbmAccess_taken ht ho (by simp), if_neg (by omega), Option.elim_none, readMem_of_oneRow ho, readHbm_bad hk hb, if_neg Bool.false_ne_true]

theorem readHbm_one {e : Dev} {ws : List Nat} {k : Nat} (h : ws.filter (fun w => e.badWords.contains w) = [k]) :
    (e.readHbm ws).2 = (e.lockMap.correct ws).hbmEvent k 0 := by
  simp only [Dev.readHbm, h, List.foldl_cons, List.foldl_nil]

/-- What such a read logs where one word alone is bad (R217). -/
theorem readHbm_logs {k : Nat} (h : (wordsOf a n).filter (fun w => (d.strikes us).badWords.contains w) = [k]) :
    ((d.strikes us).readHbm (wordsOf a n)).2.hbm.log.getLast? =
        some { addr := k * 16, pc := (d.hbmMap (k * 16)).1, source := 0, time := d.timestamp } ∧
      ((d.strikes us).readHbm (wordsOf a n)).2.count 0x3410 2 = (d.count 0x3410 2 + 1) % 2 ^ 64 := by
  have hstruck := struck_strikes d us
  have hshape := (written_correct (d.strikes us).lockMap (wordsOf a n)).shape
  have hobjs : ((d.strikes us).lockMap.correct (wordsOf a n)).objs = d.objs := by rw [hshape]; show (d.strikes us).objs = _; rw [hstruck]
  have htime : ((d.strikes us).lockMap.correct (wordsOf a n)).timestamp = d.timestamp := by
    rw [hshape]; show (d.strikes us).timestamp = _; rw [hstruck]; rfl
  have hcount : ((d.strikes us).lockMap.correct (wordsOf a n)).count 0x3410 2 = d.count 0x3410 2 := by
    rw [correct_count_events]; show (d.strikes us).count 0x3410 2 = _; rw [hstruck]; rfl
  obtain ⟨hlog, hevents⟩ := hbmEvent_logs ((d.strikes us).lockMap.correct (wordsOf a n)) k 0
  rw [hbmMap_of_objs hobjs, htime] at hlog
  rw [hcount] at hevents
  rw [readHbm_one h]
  exact ⟨hlog, hevents⟩

/-- A write whose words are sound. -/
theorem hbmAccess_writes {b : List Byte} (h : MemoryWritable (d.strikes us) a b.length) (ho : d.oneRow a b.length = true) (hp : parity < 2) :
    (hbmAccess a b.length (some b) us parity d).mem = memWrite d.mem a b ∧
      (hbmAccess a b.length (some b) us parity d).hbm = { d.hbm with mapLocked := true, last := some (d.lastOf a .done []) } ∧
      (hbmAccess a b.length (some b) us parity d).objs = d.objs ∧
      ((d.strikes us).latent = [] → (hbmAccess a b.length (some b) us parity d).counters = d.counters) := by
  have hstruck := struck_strikes d us
  obtain ⟨hready, hprotect, _⟩ := h
  obtain ⟨hdone, hwritten, hmem⟩ := writeMem_of_ready hready
  rw [Dev.lockedFor, if_pos (regionOfRange_of_oneRow ho _)] at hwritten
  have htrained : d.hbm.trained = true := by
    obtain ⟨_, _, _, _, _, hr⟩ := hready
    rcases hr with ⟨_, ht, _⟩ | ⟨c, _, h1⟩ | ⟨c, _, h1 | h1⟩
    · rw [hstruck] at ht; exact ht
    all_goals rw [regionOfRange_of_oneRow ho] at h1; cases h1
  have hobjs : ((d.strikes us).writeMem a b).2.objs = d.objs := by
    rw [hwritten.shape]; show (d.strikes us).objs = _; rw [hstruck]
  have haccess : hbmAccess a b.length (some b) us parity d = ((d.strikes us).writeMem a b).2.hbmRecord a .done [] := by
    rw [hbmAccess_taken htrained ho (by simp), if_neg (by omega), Option.elim_some, if_neg (by simp [hprotect]), hdone]
  rw [haccess]
  refine ⟨hmem.trans (by rw [Dev.strikes_mem]), (hbmRecord_hbm hobjs a .done []).trans ?_, hobjs, fun hlatent => (hwritten.quiet hlatent).2.trans ?_⟩
  · rw [hwritten.hbm]
    show ({ (d.strikes us).hbm with mapLocked := true, last := _ } : Hbm) = _
    rw [hstruck]
  · show (d.strikes us).counters = _
    rw [hstruck]

theorem failInputs_kept (e : Dev) (rs : List RoundNo) : (e.failInputs rs).mem = e.mem ∧ (e.failInputs rs).objs = e.objs :=
  ⟨foldl_kept (view := Dev.mem) (g := fun (e : Dev) r => e.raise r .inputWrite) (fun _ _ => rfl) rs e,
    foldl_kept (view := Dev.objs) (g := fun (e : Dev) r => e.raise r .inputWrite) (fun _ _ => rfl) rs e⟩

/-- A write into a protected input is dropped (R147). -/
theorem hbmAccess_protected {b : List Byte} (ht : d.hbm.trained = true) (ho : d.oneRow a b.length = true) (hp : parity < 2)
    (hprotect : d.protectors a b.length ≠ []) :
    (hbmAccess a b.length (some b) us parity d).mem = d.mem ∧
      (hbmAccess a b.length (some b) us parity d).hbm.last = some (d.lastOf a .inputWrite []) := by
  have hstruck := struck_strikes d us
  have hsame : (d.strikes us).protectors a b.length = d.protectors a b.length := by rw [hstruck]; rfl
  obtain ⟨hmem, hobjs⟩ := failInputs_kept (d.strikes us) (d.protectors a b.length)
  rw [hbmAccess_taken ht ho (by simp), if_neg (by omega), Option.elim_some, hsame, if_pos hprotect]
  refine ⟨hmem.trans (Dev.strikes_mem ..), ?_⟩
  rw [hbmRecord_hbm (d := d) (hobjs.trans (by rw [hstruck]))]

/-- Two parity errors fail the access. -/
theorem hbmAccess_parity {write : Option (List Byte)} (ht : d.hbm.trained = true) (ho : d.oneRow a n = true) (hp : 2 ≤ parity)
    (hw : ∀ b, write = some b → b.length = n) :
    hbmAccess a n write us parity d = (d.lockMap.hbmEvent (a / 16) 3).hbmRecord a .hwUncorrectable (deadBytes a n) :=
  (hbmAccess_taken ht ho hw).trans (if_pos hp)

end effects

/-- Settles O52: an access within one row is one correction, one read or write of its bytes, and the answers that it gives. -/
theorem hbmAccesses : Obligations.HbmAccesses := by
  unfold Obligations.HbmAccesses
  intro s a n parity us hclk d e m w last
  refine ⟨fun h => ?_, fun hready ho hp => ?_, fun k ht ho hp hk hb => ?_, fun b hready ho hp hlen => ?_,
    fun b owners ht ho hp hlen howners hne => ?_, fun write ht ho hp hlen => ?_⟩
  · refine onClock_ignored (f := hbmAccess a.toNat n none us parity) (if_pos ?_)
    rcases h with h | h
    · exact .inl (by rw [show s.dev.hbm.trained = false from h]; rfl)
    · exact .inr (.inl (by rw [show s.dev.oneRow a.toNat n = false from h]; rfl))
  · exact onClock_gives_of_eq hclk (hbmAccess_reads hready ho hp)
  · have haccess := hbmAccess_readsBad (us := us) ht ho hp hk hb
    have hobjs : (e.readHbm (wordsOf a.toNat n)).2.objs = d.objs := (readHbm_objs ..).trans (by rw [show e = _ from struck_strikes d us])
    refine ⟨_, onClock_gives_of_eq hclk haccess, (readHbm_mem ..).trans (Dev.strikes_mem ..), ?_, fun _ hone => readHbm_logs hone⟩
    rw [hbmRecord_hbm hobjs]
    rfl
  · subst hlen
    exact ⟨_, onClock_gives_of_eq hclk rfl, hbmAccess_writes hready ho hp⟩
  · subst hlen
    exact ⟨_, onClock_gives_of_eq hclk rfl, hbmAccess_protected ht ho hp (howners ▸ hne)⟩
  · obtain ⟨hlog, hcount⟩ := hbmEvent_logs s.dev.lockMap (a.toNat / 16) 3
    refine ⟨_, onClock_gives_of_eq hclk (hbmAccess_parity ht ho hp hlen), ?_, ?_, ?_, hcount, hlog⟩
    · exact bump_mem _ _ _ _
    · have hobjs : (s.dev.lockMap.hbmEvent (a.toNat / 16) 3).objs = s.dev.objs := Dev.bump_objs s.dev.lockMap 0x3410 2 1
      rw [hbmRecord_hbm hobjs]
      rfl
    · rfl

end Sys2Proof.Machine
end

section
/-! Refresh, temperature, retraining and the patrol (R209, R214, R216, R218, R219, R221). -/

namespace Sys2Proof.Machine

/-! ### Retraining -/

/-- A pass over one pseudo-channel: a failure is counted, the third in a row marks it failed; a success clears the count. -/
def Hbm.passOne (failed : List Nat) (h : Hbm) (pc : Nat) : Hbm :=
  if failed.contains pc then
    let n := tabGet 0 h.passFails pc + 1
    { h with passFails := tabSet h.passFails pc n, failed := if 3 ≤ n ∧ !h.failed.contains pc then h.failed ++ [pc] else h.failed }
  else { h with passFails := tabErase h.passFails pc }

/-- What a pass over a list of pseudo-channels does to the counts and marks. -/
structure Passed (failed : List Nat) (l : List Nat) (h g : Hbm) : Prop where
  temps : g.temps = h.temps
  fails : ∀ p, tabGet 0 g.passFails p = if p ∈ l then (if p ∈ failed then tabGet 0 h.passFails p + 1 else 0) else tabGet 0 h.passFails p
  marks : ∀ p, p ∈ g.failed ↔ p ∈ h.failed ∨ p ∈ l ∧ p ∈ failed ∧ 2 ≤ tabGet 0 h.passFails p

theorem passOne_passed (failed : List Nat) (h : Hbm) (pc : Nat) : Passed failed [pc] h (h.passOne failed pc) := by
  unfold Hbm.passOne
  by_cases hf : pc ∈ failed
  · rw [if_pos (by simpa using hf)]
    refine ⟨rfl, fun p => ?_, fun p => ?_⟩
    · by_cases hp : p = pc
      · subst hp; simp [tabGet_tabSet, hf]
      · simp [tabGet_tabSet, hp]
    · dsimp only
      by_cases hp : p = pc
      · subst hp
        by_cases hmark : 2 ≤ tabGet 0 h.passFails p <;> by_cases hin : p ∈ h.failed <;> simp [hf, hmark, hin]
      · split <;> simp [hp]
  · rw [if_neg (by simpa using hf)]
    refine ⟨rfl, fun p => ?_, fun p => ?_⟩
    · by_cases hp : p = pc
      · subst hp; simp [tabGet_tabErase, hf]
      · simp [tabGet_tabErase, hp]
    · simp only [List.mem_singleton]
      exact ⟨.inl, fun h => h.elim id fun ⟨hp, hin, _⟩ => absurd (hp ▸ hin) hf⟩

/-- A pass over distinct pseudo-channels meets each once. -/
theorem foldl_passOne_passed (failed : List Nat) {l : List Nat} (hl : l.Nodup) (h : Hbm) : Passed failed l h (l.foldl (Hbm.passOne failed) h) := by
  induction l generalizing h with
  | nil => exact ⟨rfl, fun p => by simp, fun p => by simp⟩
  | cons c l ih =>
    obtain ⟨hc, hl⟩ := List.nodup_cons.1 hl
    obtain ⟨temps1, fails1, marks1⟩ := passOne_passed failed h c
    obtain ⟨temps2, fails2, marks2⟩ := ih hl (h.passOne failed c)
    refine ⟨temps2.trans temps1, fun p => ?_, fun p => ?_⟩
    · rw [List.foldl_cons, fails2, fails1]
      by_cases hp : p = c
      · subst hp; simp [hc]
      · simp [hp]
    · rw [List.foldl_cons, marks2, marks1, fails1]
      by_cases hp : p = c
      · subst hp; simp [hc]
      · simp [hp]

/-- The pseudo-channels of a stack. -/
def stackChannels (stack : Nat) : List Nat := (List.range 32).map fun i => 32 * stack + i

theorem mem_stackChannels {stack p : Nat} : p ∈ stackChannels stack ↔ p / 32 = stack := by
  simp only [stackChannels, List.mem_map, List.mem_range]
  constructor
  · rintro ⟨i, hi, rfl⟩; omega
  · intro h; exact ⟨p % 32, Nat.mod_lt _ (by omega), by omega⟩

theorem stackChannels_nodup (stack : Nat) : (stackChannels stack).Nodup := List.nodup_range.map fun a b h => by simpa using h

theorem retrainDue_iff (d : Dev) (stack : Nat) :
    d.retrainDue stack = true ↔ d.objNat 0x4410 1 * 1000000 ≤ d.timestamp - tabGet 0 d.hbm.passTimes stack ∨
      10 ≤ ((tabGet 0 d.hbm.temps stack).toInt - (tabGet 0 d.hbm.passTemps stack).toInt).natAbs := by
  simp [Dev.retrainDue]

theorem retrainPass_gives {d : Dev} {stack : Nat} {failed : List Nat} (ht : d.hbm.trained = true) (hdue : d.retrainDue stack = true) :
    retrainPass stack failed d =
      d.updHbm fun h =>
        let h1 := (stackChannels stack).foldl (Hbm.passOne failed) h
        { h1 with passTemps := tabSet h1.passTemps stack (tabGet 0 h1.temps stack), passTimes := tabSet h1.passTimes stack d.timestamp } :=
  if_neg (by simp [ht, hdue])

/-! ### The patrol -/

section patrol
variable {d : Dev} {a : Nat} {u v : Upset} (ht : d.hbm.trained = true) (hrate : d.objNat 0x4410 2 ≠ 0) (ha : a < 0x4800000000)
include ht hrate ha

theorem patrolRead_reads :
    patrolRead a u v d =
      if d.badWords.contains (a / 16) ∨ (u.failed ∧ v.failed) then
        Dev.hbmEvent { d with badWords := a / 16 :: d.badWords.filter fun x => x ≠ a / 16, latent := d.latent.filter fun x => x ≠ a / 16 } (a / 16) 2
      else if d.latent.contains (a / 16) then d.correct [a / 16]
      else if u = .clean then d
      else d.bump 0x3410 1 1 := by
  refine if_neg ?_
  rintro (h | h | h)
  · simp [ht] at h
  · exact hrate h
  · unfold hbmSize at h; omega

theorem patrolRead_sound (hw : a / 16 ∉ d.badWords) (hok : u.failed = false ∨ v.failed = false) :
    patrolRead a u v d = if a / 16 ∈ d.latent then d.correct [a / 16] else if u = .clean then d else d.bump 0x3410 1 1 := by
  rw [patrolRead_reads ht hrate ha, if_neg]
  · simp
  · rintro (h | ⟨h1, h2⟩)
    · exact hw (by simpa using h)
    · rcases hok with h | h
      · simp [h] at h1
      · simp [h] at h2

theorem patrolRead_bad (h : a / 16 ∈ d.badWords ∨ (u.failed = true ∧ v.failed = true)) :
    patrolRead a u v d =
      Dev.hbmEvent { d with badWords := a / 16 :: d.badWords.filter fun x => x ≠ a / 16, latent := d.latent.filter fun x => x ≠ a / 16 } (a / 16) 2 := by
  rw [patrolRead_reads ht hrate ha, if_pos (by simpa using h)]

end patrol

theorem upset_eq_clean_iff (u : Upset) : u = .clean ↔ u.corrected = 0 ∧ u.failed = false := by
  cases u; simp [Upset.clean]

/-- Settles O53: each kind of upkeep is due or not by its own condition, and the patrol goes by what the check finds in its word. -/
theorem hbmUpkeep : Obligations.HbmUpkeep := by
  unfold Obligations.HbmUpkeep
  intro s pc bank stack celsius failed a u v hclk d key w n due
  refine ⟨fun hb ht => onClock_gives_of_eq hclk (if_pos ⟨hb, ht⟩), fun h => ?_, onClock_gives_of_eq hclk rfl, onClock_gives_of_eq hclk rfl,
    fun ht hdue hpc => ?_, fun h => ?_, fun ht hrate ha => ⟨fun hw hok => ⟨fun hl => ?_, fun hl hc hf => ?_, fun hl hu => ?_⟩, fun h => ?_⟩, fun h => ?_⟩
  · refine onClock_ignored (f := hbmRefresh pc.toNat bank.toNat) (if_neg ?_)
    rintro ⟨hb, ht⟩
    rcases h with h | h
    · omega
    · exact Bool.false_ne_true (h.symm.trans ht)
  · have hmem : pc.toNat ∈ failed.map BitVec.toNat ↔ pc ∈ failed :=
      List.mem_map_of_injective fun x y h => BitVec.eq_of_toNat_eq h
    obtain ⟨temps, fails, marks⟩ := foldl_passOne_passed (failed.map BitVec.toNat) (stackChannels_nodup n) s.dev.hbm
    have hin : pc.toNat ∈ stackChannels n := mem_stackChannels.2 hpc
    have hfails := fails pc.toNat
    have hmarks := marks pc.toNat
    simp only [hin, hmem, if_true, true_and] at hfails hmarks
    refine ⟨_, onClock_gives_of_eq hclk (retrainPass_gives ht ((retrainDue_iff ..).2 hdue)), rfl, ?_, ?_, fun q hq => (marks q).2 (.inl hq), fun hp h2 => ?_,
      fun hp => hfails.trans (if_pos hp), fun hp => hfails.trans (if_neg hp), fun hnot hsafe => ?_⟩
    · exact (tabGet_tabSet ..).trans (if_pos rfl)
    · refine (tabGet_tabSet ..).trans ((if_pos rfl).trans ?_)
      rw [temps]
    · exact hmarks.2 (.inr ⟨hp, h2⟩)
    · refine fun hin => (hmarks.1 hin).elim hnot fun ⟨hp, h2⟩ => ?_
      exact hsafe.elim (fun h => h hp) fun h => absurd h2 (Nat.not_le.2 h)
  · refine onClock_ignored (f := retrainPass n (failed.map BitVec.toNat)) (if_pos ?_)
    rcases h with h | h
    · exact .inl (by rw [show s.dev.hbm.trained = false from h]; rfl)
    · exact .inr (by simpa using fun hdue => h ((retrainDue_iff ..).1 hdue))
  · exact onClock_gives_of_eq hclk ((patrolRead_sound ht hrate ha hw hok).trans (if_pos hl))
  · refine onClock_ignored (f := patrolRead a.toNat u v) ((patrolRead_sound ht hrate ha hw hok).trans ((if_neg hl).trans (if_pos ?_)))
    exact (upset_eq_clean_iff u).2 ⟨hc, hf⟩
  · refine onClock_gives_of_eq hclk ((patrolRead_sound ht hrate ha hw hok).trans ((if_neg hl).trans (if_neg fun hclean => ?_)))
    obtain ⟨hc, hf⟩ := (upset_eq_clean_iff u).1 hclean
    simp [hc, hf] at hu
  · obtain ⟨hlog, hcount⟩ := hbmEvent_logs { d with badWords := w :: d.badWords.filter fun x => x ≠ w, latent := d.latent.filter fun x => x ≠ w } w 2
    refine ⟨_, onClock_gives_of_eq hclk (patrolRead_bad ht hrate ha h), bump_mem _ _ _ _, Dev.bump_rounds _ 0x3410 2 1, ?_, hcount, hlog⟩
    exact (Dev.bump_badWords { d with badWords := w :: d.badWords.filter fun x => x ≠ w, latent := d.latent.filter fun x => x ≠ w } 0x3410 2 1).symm ▸
      List.mem_cons_self
  · refine onClock_ignored (f := patrolRead a.toNat u v) (if_pos ?_)
    rcases h with h | h | h
    · exact .inl (by rw [show s.dev.hbm.trained = false from h]; rfl)
    · exact .inr (.inl h)
    · exact .inr (.inr h)

end Sys2Proof.Machine
end

section
/-! A cluster cache that waits for a line outside HBM (R203, R204, R208). -/

namespace Sys2Proof.Machine

theorem cacheLineFill_of_gives {s : State} {c : ClusterId} {a : BitVec 52} {u : Upset} {t : Dev} (hclk : s.dev.pins.clocks = true)
    (h : Gives (.cacheLineFill c a u) s t) : cacheLineFill c.toNat a.toNat u s.dev = t :=
  congrArg State.dev (Host.Outcome.next.inj ((onClock_gives hclk).symm.trans h))

/-- A line of the scratch memory of cluster 0. -/
def scratchLine : Nat := scratchBase / 256

/-- A state with HBM trained and scratch memory in cluster 0, whose cache part waits for a line of that memory; a correctable error stands in it. -/
def scratchFillState : State :=
  { State.reset with
    dev := { Dev.reset with
      pins := { Pins.reset with clocks := true }
      hbm := { Hbm.reset with trained := true }
      latent := [16 * scratchLine]
      objs := [(okey 0x4090 1, [1])]
      clusters := [(0, { Cluster.reset with fills := [scratchLine] })] } }

def scratchAddr : BitVec 52 := BitVec.ofNat 52 scratchBase

/-- The correction of a scratch word is counted where those of the cache part are. -/
theorem scratchFillState_counts : (cacheLineFill (0 : ClusterId).toNat scratchAddr.toNat .clean scratchFillState.dev).count 0x3090 2 = 1 := by decide +kernel

theorem scratchFillState_mayFill :
    scratchFillState.dev.hbm.trained = true ∧ scratchAddr.toNat / 256 ∈ (scratchFillState.dev.cluster 0).fills ∧ scratchFillState.dev.cacheWays 0 ≠ 0 ∧
      (scratchFillState.dev.cluster 0).state < 2 := by decide +kernel

theorem scratchFillState_sound :
    (∀ w ∈ wordsOf (256 * (scratchAddr.toNat / 256)) 256, w ∉ scratchFillState.dev.badWords) ∧
      scratchFillState.dev.hbmFailed (256 * (scratchAddr.toNat / 256)) 256 = false := by decide +kernel

/-- Refutes O54: a fill counts the errors that it corrects by the region of their words, so that a line of scratch memory adds its corrections to
0x3090.02, which the statement lets the upset alone raise. -/
theorem not_clusterCaches : ¬ Obligations.ClusterCaches := by
  unfold Obligations.ClusterCaches
  intro h
  obtain ⟨hfill, _⟩ := h scratchFillState 0 scratchAddr .clean rfl
  obtain ⟨t, hgives, _, hcount, _⟩ := hfill scratchFillState_mayFill scratchFillState_sound
  rw [← cacheLineFill_of_gives rfl hgives, scratchFillState_counts] at hcount
  exact absurd hcount (by decide +kernel)

end Sys2Proof.Machine
end

section
/-! Replays, lost packets and the removal of links (R225, R232, R233). -/

namespace Sys2Proof.Machine

/-- What is left of `e`, which has the network, the rounds and the clock of `d`, once a packet is lost in it. -/
def nocLost (d : Dev) (k : NocPacket) (e : Dev) : Dev :=
  let left := nocLeft e k
  if k.rslot = 0x7F then
    if k.vc = 1 then
      match d.nocRequestOf k with
      | some q => { left with noc := { left.noc with
          outstanding := d.noc.outstanding.erase q
          received := d.noc.received ++ [{ k with status := BitVec.ofNat 8 Status.hwUncorrectable.code, body := .none }] } }
      | none => left
    else { left with noc := { left.noc with flight := left.noc.flight ++ [nocAnswer k .hwUncorrectable []] } }
  else match d.slotRound k.rslot.toNat with
    | some r => left.updRound r.number fun q => q.raise d.cycles .hwUncorrectable
    | none => left

theorem nocSend_of_undrained {d : Dev} (hdrain : d.noc.draining = []) (k : NocPacket) :
    d.nocSend k = { d with noc := { d.noc with flight := d.noc.flight ++ [k] } } := by
  simp [Dev.nocSend, Dev.pathDraining, hdrain]

/-- A packet that is lost in `e`, which has the network, the rounds and the clock of `d`. -/
theorem nocFail_nocLeft {d e : Dev} (k : NocPacket) (hnoc : e.noc = d.noc) (hrounds : e.rounds = d.rounds) (hcycles : e.cycles = d.cycles)
    (hdrain : d.noc.draining = []) : (nocLeft e k).nocFail k = nocLost d k e := by
  have hdrained : (nocLeft e k).noc.draining = [] := by simpa [nocLeft, hnoc] using hdrain
  have hrequest : (nocLeft e k).nocRequestOf k = d.nocRequestOf k := by simp only [Dev.nocRequestOf, nocLeft, hnoc]
  have hslot : (nocLeft e k).slotRound k.rslot.toNat = d.slotRound k.rslot.toNat := by simp only [Dev.slotRound, nocLeft, hrounds]
  unfold Dev.nocFail nocLost
  rw [hrequest, hslot, nocSend_of_undrained hdrained]
  split
  · split
    · cases d.nocRequestOf k <;> simp [Dev.nocDeliver, nocLeft, hnoc]
    · rfl
  · cases d.slotRound k.rslot.toNat <;> simp [Dev.raise, nocLeft, hcycles]

theorem nocLost_draining (d : Dev) (k : NocPacket) (e : Dev) : (nocLost d k e).noc.draining = e.noc.draining := by
  unfold nocLost
  dsimp only
  split
  · split
    · split <;> rfl
    · rfl
  · split <;> rfl

/-- Where the probes do not count, they leave the device. -/
theorem probesTo_of_off {d : Dev} (h : d.objNat 0x7100 1 ≠ 1) (k : NocPacket) (stop : Nat → Bool) (past : Bool) : d.probesTo k stop past = d := by
  simp [Dev.probesTo, Dev.probesAt, h]

/-! ### Replays -/

/-- A link is to leave its bundle. -/
def toDrain (d : Dev) (b l : Nat) : Dev := { d with noc := { d.noc with draining := (b, l) :: d.noc.draining.filter fun e => e ≠ (b, l) } }

theorem toDrain_of_undrained {d : Dev} (hdrain : d.noc.draining = []) (b l : Nat) :
    toDrain d b l = { d with noc := { d.noc with draining := [(b, l)] } } := by
  simp [toDrain, hdrain]

/-- A packet leaves by this link of this bundle. -/
def OnLink (d : Dev) (k : NocPacket) (b l : Nat) : Prop := nocOk k = true ∧ b ∈ bundlesOf k ∧ d.linkOf k b = some l

theorem flitReplay_ignored {d : Dev} {k : NocPacket} {b l : Nat} (h : ¬ OnLink d k b l) (failures : Nat) : flitReplay k b l failures d = d := by
  refine if_pos ?_
  by_contra hon
  simp only [not_or, Bool.not_eq_true', Bool.not_eq_false, ne_eq, not_not, List.contains_iff_mem] at hon
  exact h hon

theorem flitReplay_on_link {d : Dev} {k : NocPacket} {b l : Nat} (h : OnLink d k b l) (failures : Nat) :
    flitReplay k b l failures d =
      if failures < 3 then d.bump 0x3100 2 1
      else toDrain ((((d.nocTake k).probesTo k (fun q => q = b) true).bump 0x3100 3 1).nocFail k) b l := by
  obtain ⟨hok, hmem, hlink⟩ := h
  exact if_neg (by simp [hok, hmem, hlink])

theorem flitReplay_lost {d : Dev} {k : NocPacket} {b l failures : Nat} (hprobes : d.objNat 0x7100 1 ≠ 1) (h : OnLink d k b l) (hf : 3 ≤ failures)
    (hdrain : d.noc.draining = []) :
    flitReplay k b l failures d =
      { nocLost d k (d.bump 0x3100 3 1) with noc := { (nocLost d k (d.bump 0x3100 3 1)).noc with draining := [(b, l)] } } := by
  have hfail : (((d.nocTake k).probesTo k (fun q => q = b) true).bump 0x3100 3 1).nocFail k = nocLost d k (d.bump 0x3100 3 1) := by
    rw [probesTo_of_off (d := d.nocTake k) hprobes]
    exact nocFail_nocLeft (e := d.bump 0x3100 3 1) k rfl rfl rfl hdrain
  rw [flitReplay_on_link h, if_neg (by omega), hfail]
  exact toDrain_of_undrained ((nocLost_draining d k (d.bump 0x3100 3 1)).trans hdrain) b l

/-- Management traffic whose route has failed. -/
theorem nocManagement_lost {d : Dev} {k : NocPacket} (hprobes : d.objNat 0x7100 1 ≠ 1) (hop : k.op = 0x08) (hok : nocOk k = true)
    (hfirst : d.nocFirst k = true) (hdrain : d.noc.draining = []) (hdead : d.pathDead k = true) : nocManagement k d = nocLost d k d := by
  have hready : d.nocReady k 0x08 = true := by simp [Dev.nocReady, hop, hok, hfirst, Dev.pathDraining, hdrain]
  have hprobed : (d.nocTake k).probesTo k d.bundleDead false = d.nocTake k := probesTo_of_off (d := d.nocTake k) hprobes ..
  unfold nocManagement Dev.nocArrive
  rw [hready, hdead, hprobed]
  exact nocFail_nocLeft k rfl rfl rfl hdrain

/-! ### Removals -/

/-- `e` is `d` with other packets in flight and held. -/
def SendOnly (d e : Dev) : Prop := e = { d with noc := { d.noc with flight := e.noc.flight, held := e.noc.held } }

theorem sendOnly_nocSend (d : Dev) (k : NocPacket) : SendOnly d (d.nocSend k) := by
  unfold Dev.nocSend
  split <;> rfl

theorem SendOnly.trans {a b c : Dev} (h : SendOnly a b) (k : SendOnly b c) : SendOnly a c := by
  unfold SendOnly at k ⊢
  rw [h] at k
  exact k

theorem sendOnly_foldl_nocSend (l : List NocPacket) (d : Dev) : SendOnly d (l.foldl Dev.nocSend d) := by
  induction l generalizing d with
  | nil => rfl
  | cons k l ih => exact (sendOnly_nocSend d k).trans (ih _)

/-- Where nothing drains, what is sent goes on, in its order. -/
theorem foldl_nocSend_of_undrained (l : List NocPacket) {d : Dev} (hdrain : d.noc.draining = []) :
    l.foldl Dev.nocSend d = { d with noc := { d.noc with flight := d.noc.flight ++ l } } := by
  induction l generalizing d with
  | nil => simp
  | cons k l ih =>
    rw [List.foldl_cons, nocSend_of_undrained hdrain, ih (d := { d with noc := { d.noc with flight := d.noc.flight ++ [k] } }) hdrain]
    simp

/-- The device without a link of a bundle, which no bundle drains for any more; what it held is to be sent. -/
def linkRemoved (d : Dev) (b l : Nat) : Dev :=
  { d with noc := { d.noc with
      draining := d.noc.draining.filter fun e => e ≠ (b, l)
      health := tabSet d.noc.health b (tabGet 0 d.noc.health b ||| (1 : Byte) <<< l)
      held := [] } }

theorem linkRemoval_gives {d : Dev} {b l : Nat} (hdrain : (b, l) ∈ d.noc.draining) (hb : b < 52) (hl : l < 6)
    (hempty : ∀ q ∈ d.noc.flight, b ∉ bundlesOf q) : linkRemoval b l d = d.noc.held.foldl Dev.nocSend (linkRemoved d b l) :=
  if_pos ⟨List.contains_iff_mem.mpr hdrain, hb, hl, by simpa using hempty⟩

theorem linkRemoval_ignored {d : Dev} {b l : Nat}
    (h : (b, l) ∉ d.noc.draining ∨ 52 ≤ b ∨ 6 ≤ l ∨ ∃ q ∈ d.noc.flight, b ∈ bundlesOf q) : linkRemoval b l d = d := by
  refine if_neg ?_
  rintro ⟨hdrain, hb, hl, hempty⟩
  obtain hn | hb' | hl' | ⟨q, hq, hqb⟩ := h
  · exact hn (List.contains_iff_mem.mp hdrain)
  · omega
  · omega
  · simp only [List.all_eq_true, Bool.not_eq_true', List.contains_eq_mem, decide_eq_false_iff_not] at hempty
    exact hempty q hq hqb

/-- Settles O51: a lost packet is `nocLost` of the device that has counted it, and a removal sends what was held from the device without the link. -/
theorem networkFailures : Obligations.NetworkFailures := by
  unfold Obligations.NetworkFailures
  intro s k bundle link failures hclk hprobes d b l onLink lost
  refine ⟨fun hon hf => onClock_gives_of_eq hclk ((flitReplay_on_link hon failures).trans (if_pos hf)), ?_,
    fun hoff => onClock_ignored (f := flitReplay k b l failures) (flitReplay_ignored hoff failures), ?_, ?_,
    fun h => onClock_ignored (f := linkRemoval b l) (linkRemoval_ignored h)⟩
  · exact fun hon hf hdrain => ⟨_, onClock_gives_of_eq hclk (flitReplay_lost hprobes hon hf hdrain), rfl, rfl⟩
  · exact fun hop hok hfirst hdrain hdead => onClock_gives_of_eq hclk (nocManagement_lost hprobes hop hok hfirst hdrain hdead)
  · intro hdrain hb hl hempty
    have hsent : SendOnly (linkRemoved d b l) (d.noc.held.foldl Dev.nocSend (linkRemoved d b l)) := sendOnly_foldl_nocSend ..
    refine ⟨_, onClock_gives_of_eq hclk (linkRemoval_gives hdrain hb hl hempty), ?_, ?_, ?_, ?_, ?_, ?_, ?_⟩
    · rw [hsent]
      exact (tabGet_tabSet ..).trans (if_pos rfl)
    · rw [hsent]
      simp [linkRemoved]
    · intro q hq
      rw [hsent]
      exact (tabGet_tabSet ..).trans (if_neg hq)
    · rw [hsent]; rfl
    · rw [hsent]; rfl
    · rw [hsent]; rfl
    · intro hone
      have hleft : (linkRemoved d b l).noc.draining = [] := by
        unfold linkRemoved
        rw [hone]
        simp
      rw [foldl_nocSend_of_undrained _ hleft]
      exact ⟨rfl, rfl⟩

end Sys2Proof.Machine
end

section
/-! What an access of memory that is one part answers, and on which device (R202 to R209, R230, R238, R246). -/

namespace Sys2Proof.Machine

/-! ### What reads and writes of memory touch -/

/-- `e` is `d` after accesses of memory: other bytes, latent errors, counters, caches and HBM records, and other numbers for accesses to come. -/
def Touched (d e : Dev) : Prop :=
  e = { d with mem := e.mem, latent := e.latent, counters := e.counters, clusters := e.clusters, hbm := e.hbm, nextAccess := e.nextAccess }

namespace Touched

theorem refl (d : Dev) : Touched d d := rfl

theorem trans {d e f : Dev} (h : Touched d e) (k : Touched e f) : Touched d f := by
  unfold Touched at h k ⊢
  rw [h] at k
  exact k

theorem foldl {α : Type} {g : Dev → α → Dev} (kept : ∀ e a, Touched e (g e a)) (l : List α) (d : Dev) : Touched d (l.foldl g d) := by
  induction l generalizing d with
  | nil => exact .refl d
  | cons a l ih => exact (kept d a).trans (ih _)

variable {d e : Dev} (h : Touched d e)
include h

theorem badWords : e.badWords = d.badWords := by rw [h]
theorem objs : e.objs = d.objs := by rw [h]
theorem flags : e.flags = d.flags := by rw [h]
theorem streams : e.streams = d.streams := by rw [h]
theorem descs : e.descs = d.descs := by rw [h]
theorem rounds : e.rounds = d.rounds := by rw [h]
theorem cores : e.cores = d.cores := by rw [h]
theorem noc : e.noc = d.noc := by rw [h]
theorem saeri : e.saeri = d.saeri := by rw [h]
theorem ports : e.ports = d.ports := by rw [h]
theorem lanes : e.lanes = d.lanes := by rw [h]
theorem cfg : e.cfg = d.cfg := by rw [h]
theorem pins : e.pins = d.pins := by rw [h]
theorem accesses : e.accesses = d.accesses := by rw [h]
theorem whole (hd : NetworkWhole d) : NetworkWhole e := by rw [h]; exact hd

end Touched

theorem touched_bump (d : Dev) (i s n : Nat) : Touched d (d.bump i s n) := by
  unfold Dev.bump
  split <;> rfl

theorem touched_written {d e : Dev} (h : Written d e) : Touched d e := by
  rw [h.shape]
  rfl

theorem touched_readHbm (d : Dev) (ws : List Nat) : Touched d (d.readHbm ws).2 := by
  have event (e : Dev) (w : Nat) : Touched e (e.hbmEvent w 0) := (touched_bump e 0x3410 2 1).trans rfl
  have locked : Touched d (d.lockMap.correct ws) := Touched.trans (e := d.lockMap) rfl (touched_written (written_correct ..))
  exact locked.trans (Touched.foldl event ..)

theorem touched_readMem (d : Dev) (a n : Nat) : Touched d (d.readMem a n).2.2 := by
  have corrected : Touched d (d.correct (wordsOf a n)) := touched_written (written_correct ..)
  unfold Dev.readMem
  dsimp only
  split
  · split <;> exact touched_readHbm ..
  · split <;> exact corrected
  · split <;> exact corrected
  · split <;> exact corrected
  · exact .refl d

theorem touched_cacheTouch (d : Dev) (c : Nat) (ws : List Nat) (l : Nat) : Touched d (d.cacheTouch c ws l) := by
  unfold Dev.cacheTouch
  dsimp only
  split
  · rfl
  · split <;> exact (touched_bump ..).trans rfl

theorem touched_readFor (d : Dev) (o : Origin) (a n : Nat) : Touched d (d.readFor o a n).2.2 := by
  have cached (core : Nat) : Touched d (d.readCached core a n).2.2 := by
    unfold Dev.readCached
    split
    · dsimp only
      split <;> exact (Touched.foldl (fun e l => touched_cacheTouch e ..) ..).trans (touched_readHbm ..)
    · exact touched_readMem ..
  unfold Dev.readFor
  split
  · exact cached _
  · exact touched_readMem ..

theorem touched_lockedFor (d : Dev) (a n : Nat) : Touched d (d.lockedFor a n) := by
  unfold Dev.lockedFor
  split <;> rfl

/-- Neither checks of memory nor events of its controllers are counted here. -/
def CountsApart (i k : Nat) : Prop := (∀ r : Region, okey i k ≠ okey r.correctedObj.1 r.correctedObj.2) ∧ okey i k ≠ okey 0x3410 2

theorem correct_count {i k : Nat} (h : CountsApart i k) (d : Dev) (ws : List Nat) : (d.correct ws).count i k = d.count i k := by
  refine foldl_kept (view := fun e => e.count i k)
    (g := fun (d : Dev) w => let o := (d.regionOf (w * 16)).correctedObj; d.bump o.1 o.2 1) (fun e w => ?_) _ _
  exact (Dev.count_bump e _ _ 1 (i, k) (by omega)).trans (if_neg (h.1 _))

theorem hbmEvent_count {i k : Nat} (h : CountsApart i k) (d : Dev) (w source : Nat) : (d.hbmEvent w source).count i k = d.count i k :=
  (Dev.count_bump d 0x3410 2 1 (i, k) (by omega)).trans (if_neg h.2)

theorem writePiece_count {i k : Nat} (h : CountsApart i k) (hbm : Bool) (d : Dev) (a : Nat) (b : List Byte) :
    (d.writePiece hbm a b).2.count i k = d.count i k := by
  unfold Dev.writePiece
  extract_lets n partly bad e whole
  have hpartly : e.count i k = d.count i k := correct_count h ..
  split
  · rfl
  · split
    · split
      · exact (foldl_kept (view := fun x => x.count i k) (g := fun (d : Dev) w => d.hbmEvent w 1) (fun x w => hbmEvent_count h x w 1) _ _).trans hpartly
      · exact hpartly
    · exact hpartly

/-- A write of memory counts corrections and events alone. -/
theorem writeMem_count {i k : Nat} (h : CountsApart i k) (d : Dev) (a : Nat) (b : List Byte) : (d.writeMem a b).2.count i k = d.count i k := by
  have pieces (hbm : Bool) (l : List (Nat × Nat)) (acc : Status × Dev) : (l.foldl (fun (acc : Status × Dev) p =>
      let w := acc.2.writePiece hbm p.1 (slice b (p.1 - a) p.2)
      (if w.1 then acc.1 else .hwUncorrectable, w.2)) acc).2.count i k = acc.2.count i k := by
    induction l generalizing acc with
    | nil => rfl
    | cons p l ih => exact (ih _).trans (writePiece_count h ..)
  unfold Dev.writeMem
  dsimp only
  split
  · split
    · exact pieces true _ (.done, d.lockMap)
    · exact (foldl_kept (view := fun x => x.count i k) (g := fun d i => d.dropLine (a / 256 + i)) (fun _ _ => rfl) _ _).trans (pieces true _ (.done, d.lockMap))
  · exact pieces false _ (.done, d)
  · exact pieces false _ (.done, d)
  · exact pieces false _ (.done, d)
  · rfl

/-! ### Accesses of one part -/

/-- An access in one part, as it is opened: its initiator's record has its bytes. -/
def Dev.opened (d : Dev) (a : Access) : Dev :=
  { d.netCount a with
    accesses := d.accesses ++ [{ id := d.nextAccess, access := a, parts := 1, status := .done, data := List.replicate a.len 0 }]
    nextAccess := d.nextAccess + 1 }

/-- That one part. -/
def Dev.onlyPart (d : Dev) (a : Access) : Part :=
  { id := d.nextAccess, off := 0, addr := a.addr, len := a.len, data := a.data.map fun b => slice b 0 a.len }

theorem issueAs_of_whole {fz : Fuses} {d : Dev} {out : Bool} {a : Access} (hlen : a.len ≠ 0)
    (hcuts : d.cuts out a = [{ addr := a.addr, len := a.len, goes := none }]) :
    d.issueAs fz out a = (d.opened a).servePart fz a.origin (d.onlyPart a) := by
  obtain ⟨k, hk⟩ := netCount_eq d a
  unfold Dev.issueAs Dev.opened Dev.onlyPart
  simp only [hlen, if_false, hcuts, hk, List.length_singleton, List.foldl_cons, List.foldl_nil, Nat.sub_self]

/-- The device on which the one part of an access is answered, and what the answer is, where `r` is the answer of memory. -/
theorem partDone_opened {d e : Dev} {a : Access} (htouched : Touched (d.opened a) e) (hfresh : FreshIds d) (st : Status) (b : List Byte)
    (hb : a.data = none → b.length = a.len) :
    e.partDone (d.onlyPart a) st b =
      Dev.reply { e with accesses := d.accesses } a st
        (if st = .done then (if a.data = none then b else List.replicate a.len 0) else deadBytes a.addr a.len) := by
  have hacc : e.accesses = d.accesses ++ [{ id := d.nextAccess, access := a, parts := 1, status := .done, data := List.replicate a.len 0 }] :=
    htouched.accesses
  have hnew : ∀ o ∈ d.accesses, o.id ≠ d.nextAccess := fun o ho => Nat.ne_of_lt (hfresh o ho)
  have hnone : (d.accesses.find? fun o => o.id == d.nextAccess) = none := by
    rw [List.find?_eq_none]
    intro o ho
    simpa using hnew o ho
  have hfind : (e.accesses.find? fun o => o.id == (d.onlyPart a).id) =
      some { id := d.nextAccess, access := a, parts := 1, status := .done, data := List.replicate a.len 0 } := by
    rw [hacc, List.find?_append]
    simp [Dev.onlyPart, hnone]
  have hrest : (e.accesses.filter fun x => decide (x.id ≠ (d.onlyPart a).id)) = d.accesses := by
    have hkept : (d.accesses.filter fun x => decide (x.id ≠ (d.onlyPart a).id)) = d.accesses := by
      rw [List.filter_eq_self]
      exact fun o ho => decide_eq_true (hnew o ho)
    rw [hacc, List.filter_append, hkept]
    simp [Dev.onlyPart]
  unfold Dev.partDone
  rw [hfind]
  dsimp only
  rw [if_pos rfl, hrest]
  have hstatus : (if st = .done then Status.done else if Status.done = .done then st else Status.done.worse st) = st := by
    by_cases hst : st = .done <;> simp [hst]
  rw [hstatus]
  cases hd : a.data with
  | none => simp only [Dev.onlyPart, hd, Option.map_none, Option.isNone_none, if_true, patchBytes_whole a.len _ b List.length_replicate (hb hd)]
  | some v => simp only [Dev.onlyPart, hd, Option.map_some, Option.isNone_some, Bool.false_eq_true, reduceCtorEq, if_false]

/-- The device on which an access of `d` is answered. -/
def AnswersOn (d : Dev) (a : Access) (e : Dev) : Prop := Touched (d.netCount a) e

theorem AnswersOn.cores {d e : Dev} {a : Access} (h : AnswersOn d a e) : e.cores = d.cores := by
  obtain ⟨k, hk⟩ := netCount_eq d a
  exact (Touched.cores h).trans (by rw [hk])
theorem AnswersOn.streams {d e : Dev} {a : Access} (h : AnswersOn d a e) : e.streams = d.streams := by
  obtain ⟨k, hk⟩ := netCount_eq d a
  exact (Touched.streams h).trans (by rw [hk])
theorem AnswersOn.accesses {d e : Dev} {a : Access} (h : AnswersOn d a e) : e.accesses = d.accesses := by
  obtain ⟨k, hk⟩ := netCount_eq d a
  exact (Touched.accesses h).trans (by rw [hk])

theorem answersOn_of_opened {d e : Dev} {a : Access} (h : Touched (d.opened a) e) : AnswersOn d a { e with accesses := d.accesses } := by
  obtain ⟨k, hk⟩ := netCount_eq d a
  unfold AnswersOn Touched
  unfold Touched Dev.opened at h
  rw [hk] at h ⊢
  rw [h]

/-- A read that memory serves at once is answered with its bytes. -/
theorem issueAs_read_gives {fz : Fuses} {d : Dev} {out : Bool} {o : Origin} {a n : Nat} (h : MemoryReady d a n) (hfresh : FreshIds d) :
    ∃ e, AnswersOn d { origin := o, addr := a, len := n, data := none } e ∧ e.mem = d.mem ∧
      d.issueAs fz out { origin := o, addr := a, len := n, data := none } =
        e.reply { origin := o, addr := a, len := n, data := none } .done (memRead d.mem a n) := by
  obtain ⟨k, hk⟩ := netCount_eq d { origin := o, addr := a, len := n, data := none }
  have hready : MemoryReady (d.opened { origin := o, addr := a, len := n, data := none }) a n := by
    unfold Dev.opened
    rw [hk]
    exact h
  have hmem : (d.opened { origin := o, addr := a, len := n, data := none }).mem = d.mem := by
    unfold Dev.opened
    rw [hk]
  have htouched := touched_readFor (d.opened { origin := o, addr := a, len := n, data := none }) o a n
  obtain ⟨_, _, _, hread⟩ := readFor_of_ready (o := o) hready
  refine ⟨_, answersOn_of_opened htouched, hread.trans hmem, ?_⟩
  rw [issueAs_of_whole (Nat.ne_of_gt h.2.1) (cuts_of_ready h), servePart_read hready rfl, hmem]
  exact partDone_opened htouched hfresh .done _ fun _ => memRead_length ..

/-- A part that is written into memory that is ready is answered at once. -/
theorem servePart_write {fz : Fuses} {d : Dev} {o : Origin} {p : Part} {b : List Byte} (h : MemoryWritable d p.addr p.len) (hp : p.data = some b)
    (hb : b.length = p.len) : d.servePart fz o p = (d.writeMem p.addr b).2.partDone p .done [] := by
  obtain ⟨hready, hfree, hidle⟩ := h
  have hdone : (d.writeMem p.addr b).1 = .done := (writeMem_of_ready (hb ▸ hready)).1
  have htouched : Touched d (d.writeMem p.addr b).2 := (touched_lockedFor ..).trans (touched_written (writeMem_of_ready (hb ▸ hready)).2.1)
  obtain ⟨_, _, hwhole, hawake, _, hregion⟩ := hready
  have hserve : d.serve fz o p = d.perform fz o p := by
    unfold Dev.serve
    rcases hregion with ⟨h1, h2, _⟩ | ⟨c, _, h1⟩ | ⟨c, _, h1 | h1⟩
    · simp [h1, h2]
    all_goals simp [h1, hawake]
  unfold Dev.servePart
  rw [crossAll_of_whole hwhole, if_pos rfl, hserve]
  unfold Dev.perform
  rcases hregion with ⟨h1, h2, _⟩ | ⟨c, _, h1⟩ | ⟨c, _, h1 | h1⟩ <;>
    simp only [hp, hfree, h1, Dev.writeFor, hb, hidle, Bool.false_eq_true, if_false] <;> rw [answerPart_of_whole (htouched.whole hwhole), hdone]

/-- A write that memory takes at once is acknowledged. -/
theorem issueAs_write_gives {fz : Fuses} {d : Dev} {out : Bool} {o : Origin} {a n : Nat} {b : List Byte} (hb : b.length = n)
    (h : MemoryWritable d a n) (hfresh : FreshIds d) :
    ∃ e, AnswersOn d { origin := o, addr := a, len := n, data := some b } e ∧ e.mem = memWrite d.mem a b ∧
      (∀ i k, CountsApart i k → e.count i k = d.count i k) ∧
      d.issueAs fz out { origin := o, addr := a, len := n, data := some b } =
        e.reply { origin := o, addr := a, len := n, data := some b } .done (List.replicate n 0) := by
  subst hb
  obtain ⟨k, hk⟩ := netCount_eq d { origin := o, addr := a, len := b.length, data := some b }
  have hwritable : MemoryWritable (d.opened { origin := o, addr := a, len := b.length, data := some b }) a b.length := by
    unfold Dev.opened
    rw [hk]
    exact h
  have hmem : (d.opened { origin := o, addr := a, len := b.length, data := some b }).mem = d.mem := by
    unfold Dev.opened
    rw [hk]
  obtain ⟨_, hwritten, hstored⟩ := writeMem_of_ready (b := b) hwritable.1
  have htouched := (touched_lockedFor ..).trans (touched_written hwritten)
  have hwhole : slice b 0 b.length = b := by
    rw [slice_eq_take_drop (by omega), List.drop_zero, List.take_of_length_le le_rfl]
  have hcounts (i j : Nat) : (d.opened { origin := o, addr := a, len := b.length, data := some b }).count i j = d.count i j := by
    unfold Dev.opened
    rw [hk]
    rfl
  refine ⟨_, answersOn_of_opened htouched, hstored.trans (by rw [hmem]), fun i j h => (writeMem_count h ..).trans (hcounts i j), ?_⟩
  rw [issueAs_of_whole (Nat.ne_of_gt h.1.2.1) (cuts_of_ready h.1), servePart_write hwritable (congrArg some hwhole) rfl]
  exact partDone_opened htouched hfresh .done [] nofun

end Sys2Proof.Machine
end

section
/-! What network packets do on arrival (R228 to R238). -/

namespace Sys2Proof.Machine

/-! ### Arrival -/

/-- A packet that can arrive acts on the device that it has left. -/
theorem nocArrive_of_reaches {s : State} {k : NocPacket} {op : BitVec 6} (h : NocReaches s k op) (f : Dev → Dev) :
    s.dev.nocArrive k op f = f (nocLeft s.dev k) := by
  obtain ⟨_, hop, hok, hfirst, hdrain, hwhole⟩ := h
  have hready : s.dev.nocReady k op = true := by simp [Dev.nocReady, hop, hok, hfirst, Dev.pathDraining, hdrain]
  unfold Dev.nocArrive
  rw [hready, pathDead_of_whole hwhole, probes_of_whole (d := s.dev.nocTake k) hwhole]
  rfl

theorem nocManagement_ignored {d : Dev} {k : NocPacket} (h : k.op ≠ 0x08 ∨ nocOk k = false ∨ d.nocFirst k = false) : nocManagement k d = d := by
  have hready : d.nocReady k 0x08 = false := by
    obtain hop | hok | hfirst := h
    · have hother : (k.op == 0x08) = false := beq_false_of_ne hop
      simp only [Dev.nocReady, hother, Bool.false_and]
    · simp [Dev.nocReady, hok]
    · simp [Dev.nocReady, hfirst]
  unfold nocManagement Dev.nocArrive
  rw [hready]
  rfl

/-- A request that has arrived is outstanding. -/
def nocAsked (d : Dev) (k : NocPacket) : Dev :=
  { nocLeft d k with noc := { (nocLeft d k).noc with outstanding := d.noc.outstanding ++ [k] } }

theorem nocAsk_of_room {d : Dev} {k : NocPacket} (h : (d.noc.outstanding.filter fun q => q.src == k.src).length < 4096) (f : Dev → Dev) :
    (nocLeft d k).nocAsk k f = f (nocAsked d k) :=
  if_neg (Nat.not_le.mpr h)

/-- A request that has been answered: what the network holds then. -/
def nocServed (d : Dev) (k ans : NocPacket) : Noc :=
  { d.noc with flight := d.noc.flight.erase k ++ [ans], outstanding := d.noc.outstanding ++ [k] }

/-- An answer on a device that has the network of the asking one. -/
theorem nocSend_noc {d e : Dev} {k : NocPacket} (ans : NocPacket) (hdrain : d.noc.draining = []) (he : e.noc = (nocAsked d k).noc) :
    (e.nocSend ans).noc = nocServed d k ans := by
  have hdrained : e.noc.draining = [] := he ▸ hdrain
  rw [nocSend_of_undrained hdrained, he]
  rfl

theorem nocSend_mem (d : Dev) (k : NocPacket) : (d.nocSend k).mem = d.mem := by
  unfold Dev.nocSend
  split <;> rfl
theorem nocSend_accesses (d : Dev) (k : NocPacket) : (d.nocSend k).accesses = d.accesses := by
  unfold Dev.nocSend
  split <;> rfl
theorem nocSend_cores (d : Dev) (k : NocPacket) : (d.nocSend k).cores = d.cores := by
  unfold Dev.nocSend
  split <;> rfl

/-- The device with another network. -/
def Dev.withNoc (d : Dev) (n : Noc) : Dev := { d with noc := n }

/-- Errors strike words whatever the network holds. -/
theorem strikes_withNoc (d : Dev) (n : Noc) (us : List UpsetAt) : (d.withNoc n).strikes us = (d.strikes us).withNoc n := by
  have one (e : Dev) (u : UpsetAt) : (e.withNoc n).strike u = (e.strike u).withNoc n := by
    unfold Dev.strike
    dsimp only
    rw [apply_ite (fun x : Dev => x.withNoc n), apply_ite (fun x : Dev => x.withNoc n), apply_ite (fun x : Dev => x.withNoc n)]
    rfl
  unfold Dev.strikes
  induction us generalizing d with
  | nil => rfl
  | cons u us ih =>
    rw [List.foldl_cons, one]
    exact ih (d.strike u)

theorem strikes_nocAsked (d : Dev) (k : NocPacket) (us : List UpsetAt) : (nocAsked d k).strikes us = (d.strikes us).withNoc (nocAsked d k).noc :=
  strikes_withNoc d (nocAsked d k).noc us

theorem memoryReady_withNoc {d : Dev} {n : Noc} {a len : Nat} (hhealth : n.health = []) (h : MemoryReady d a len) : MemoryReady (d.withNoc n) a len := by
  obtain ⟨himports, hpos, ⟨_, hprobes⟩, hserves⟩ := h
  exact ⟨himports, hpos, ⟨hhealth, hprobes⟩, hserves⟩

/-! ### Requests -/

/-- An access that a packet asks for is entered in no record here. -/
theorem touched_of_answersOn {d e : Dev} {k : NocPacket} {a n : Nat} {b : Option (List Byte)}
    (h : AnswersOn d { origin := .noc k, addr := a, len := n, data := b } e) : Touched d e := h

/-- A read of memory that is ready is answered with its bytes. -/
theorem nocRead_of_ready {s : State} {k : NocPacket} {us : List UpsetAt} (h : NocReaches s k 0x01)
    (hroom : (s.dev.noc.outstanding.filter fun q => q.src == k.src).length < 4096) (hfresh : FreshIds s.dev)
    (hready : MemoryReady (s.dev.strikes us) k.addr.toNat (k.lenm1.toNat + 1)) :
    (nocRead s.fuses k us s.dev).mem = s.dev.mem ∧ (nocRead s.fuses k us s.dev).accesses = s.dev.accesses ∧
      (nocRead s.fuses k us s.dev).cores = s.dev.cores ∧
      (nocRead s.fuses k us s.dev).noc = nocServed s.dev k (nocAnswer k .done (memRead s.dev.mem k.addr.toNat (k.lenm1.toNat + 1))) := by
  have hshape := struck_strikes s.dev us
  obtain ⟨_, _, _, _, hdrain, hwhole⟩ := id h
  obtain ⟨e, hon, hmem, hissue⟩ := issueAs_read_gives (fz := s.fuses) (out := false) (o := .noc k)
    (memoryReady_withNoc (n := (nocAsked s.dev k).noc) hwhole.1 hready) (by rw [hshape]; exact hfresh)
  have htouched := touched_of_answersOn hon
  have hread : nocRead s.fuses k us s.dev = e.nocSend (nocAnswer k .done (memRead s.dev.mem k.addr.toNat (k.lenm1.toNat + 1))) := by
    unfold nocRead
    rw [nocArrive_of_reaches h, nocAsk_of_room hroom, strikes_nocAsked]
    refine hissue.trans ?_
    rw [hshape]
    rfl
  rw [hread, nocSend_mem, nocSend_accesses, nocSend_cores, htouched.accesses, htouched.cores, hmem, hshape]
  exact ⟨rfl, rfl, rfl, nocSend_noc _ hdrain htouched.noc⟩

/-- A write of memory that is ready is acknowledged. -/
theorem nocWrite_of_ready {s : State} {k : NocPacket} {b : List Byte} (h : NocReaches s k 0x02)
    (hroom : (s.dev.noc.outstanding.filter fun q => q.src == k.src).length < 4096) (hfresh : FreshIds s.dev) (hbody : k.body = .bytes b)
    (hlen : b.length = k.lenm1.toNat + 1) (hready : MemoryWritable s.dev k.addr.toNat (k.lenm1.toNat + 1)) :
    (nocWrite s.fuses k s.dev).mem = memWrite s.dev.mem k.addr.toNat b ∧ (nocWrite s.fuses k s.dev).accesses = s.dev.accesses ∧
      (nocWrite s.fuses k s.dev).cores = s.dev.cores ∧ (nocWrite s.fuses k s.dev).noc = nocServed s.dev k (nocAnswer k .done []) := by
  obtain ⟨_, hop, _, _, hdrain, _⟩ := id h
  obtain ⟨e, hon, hmem, _, hissue⟩ := issueAs_write_gives (fz := s.fuses) (d := nocAsked s.dev k) (out := false) (o := .noc k) hlen hready hfresh
  have htouched := touched_of_answersOn hon
  have hwrite : nocWrite s.fuses k s.dev = e.nocSend (nocAnswer k .done []) := by
    unfold nocWrite
    rw [hbody]
    dsimp only
    rw [if_neg (not_not.mpr hlen), nocArrive_of_reaches h, nocAsk_of_room hroom, hlen]
    refine hissue.trans ?_
    simp [Dev.reply, nocAnswer, hop]
  rw [hwrite, nocSend_mem, nocSend_accesses, nocSend_cores, htouched.accesses, htouched.cores, hmem]
  exact ⟨rfl, rfl, rfl, nocSend_noc _ hdrain htouched.noc⟩

/-- A read of tile memory that meets a word which cannot be corrected. -/
theorem servePart_badTile {fz : Fuses} {d : Dev} {k : NocPacket} {p : Part} {c w : Nat} (hwhole : NetworkWhole d) (hp : p.data = none)
    (htile : d.regionOfRange p.addr p.len = .tile c) (hawake : d.sleeping? p.addr p.len = none) (hw : w ∈ wordsOf p.addr p.len)
    (hbad : w ∈ d.badWords) :
    d.servePart fz (.noc k) p = (d.correct (wordsOf p.addr p.len)).partDone p .hwUncorrectable (deadBytes p.addr p.len) := by
  have hread : d.readFor (.noc k) p.addr p.len = (.hwUncorrectable, deadBytes p.addr p.len, d.correct (wordsOf p.addr p.len)) := by
    have hany : ((wordsOf p.addr p.len).any fun w => d.badWords.contains w) = true := List.any_eq_true.mpr ⟨w, hw, List.contains_iff_mem.mpr hbad⟩
    simp only [Dev.readFor, Dev.readerCore, Dev.readMem, htile]
    rw [if_pos hany]
  unfold Dev.servePart
  rw [crossAll_of_whole hwhole, if_pos rfl]
  unfold Dev.serve Dev.perform
  simp only [htile, hawake, hp]
  rw [hread]
  exact answerPart_of_whole ((touched_written (written_correct ..)).whole hwhole) ..

theorem cuts_of_tile {d : Dev} {k : NocPacket} {a n c : Nat} (hwhole : NetworkWhole d) (htile : d.regionOfRange a n = .tile c) :
    d.cuts false { origin := .noc k, addr := a, len := n, data := none } = [{ addr := a, len := n, goes := none }] := by
  have huser : d.cutUser { addr := a, len := n, goes := none } = [{ addr := a, len := n, goes := none }] := if_neg (by simp [htile])
  have hdead : d.cutDead { origin := .noc k, addr := a, len := n, data := none } { addr := a, len := n, goes := none } =
      [{ addr := a, len := n, goes := none }] := by
    unfold Dev.cutDead
    exact if_neg (by simp [pathDead_of_whole hwhole])
  simp [Dev.cuts, htile, huser, hdead]

/-- A read of tile memory that meets a word which cannot be corrected is answered so. -/
theorem nocRead_of_badTile {s : State} {k : NocPacket} {us : List UpsetAt} {w c : Nat} (h : NocReaches s k 0x01)
    (hroom : (s.dev.noc.outstanding.filter fun q => q.src == k.src).length < 4096) (hfresh : FreshIds s.dev)
    (htile : s.dev.regionOfRange k.addr.toNat (k.lenm1.toNat + 1) = .tile c) (hawake : s.dev.sleeping? k.addr.toNat (k.lenm1.toNat + 1) = none)
    (hw : w ∈ wordsOf k.addr.toNat (k.lenm1.toNat + 1)) (hbad : w ∈ (s.dev.strikes us).badWords) :
    (nocRead s.fuses k us s.dev).mem = s.dev.mem ∧
      (nocRead s.fuses k us s.dev).noc = nocServed s.dev k (nocAnswer k .hwUncorrectable (deadBytes k.addr.toNat (k.lenm1.toNat + 1))) := by
  have hshape := struck_strikes s.dev us
  obtain ⟨_, _, _, _, hdrain, hwhole⟩ := id h
  let acc : Access := { origin := .noc k, addr := k.addr.toNat, len := k.lenm1.toNat + 1, data := none }
  let d : Dev := (s.dev.strikes us).withNoc (nocAsked s.dev k).noc
  have hd : Struck (nocAsked s.dev k) d := by
    unfold Struck
    dsimp only [d]
    rw [hshape]
    rfl
  have hdwhole : NetworkWhole d := by
    rw [hd]
    exact hwhole
  have hdtile : d.regionOfRange acc.addr acc.len = .tile c := by
    rw [hd]
    exact htile
  have hdawake : d.sleeping? acc.addr acc.len = none := by
    rw [hd]
    exact hawake
  have hdfresh : FreshIds d := by
    rw [hd]
    exact hfresh
  let e : Dev := (d.opened acc).correct (wordsOf acc.addr acc.len)
  have htouched : Touched (d.opened acc) e := touched_written (written_correct ..)
  have hon : Touched d { e with accesses := d.accesses } := answersOn_of_opened (a := acc) htouched
  have hread : nocRead s.fuses k us s.dev =
      ({ e with accesses := d.accesses } : Dev).nocSend (nocAnswer k .hwUncorrectable (deadBytes acc.addr acc.len)) := by
    unfold nocRead
    rw [nocArrive_of_reaches h, nocAsk_of_room hroom, strikes_nocAsked]
    have hissue := issueAs_of_whole (fz := s.fuses) (d := d) (out := false) (a := acc) (Nat.succ_ne_zero _) (cuts_of_tile hdwhole hdtile)
    refine hissue.trans ?_
    rw [servePart_badTile (d := d.opened acc) (p := d.onlyPart acc) hdwhole rfl hdtile hdawake hw hbad]
    exact partDone_opened htouched hdfresh .hwUncorrectable _ fun _ => by simp [deadBytes, Dev.onlyPart]
  rw [hread, nocSend_mem]
  refine ⟨(correct_mem _ _).trans ?_, nocSend_noc _ hdrain (hon.noc.trans ?_)⟩
  · show d.mem = s.dev.mem
    rw [hd]
    rfl
  · rw [hd]

end Sys2Proof.Machine
end

section
/-! Responses, adds, partials and tiles that arrive over the network (R228 to R238). -/

namespace Sys2Proof.Machine

/-! ### Responses -/

/-- The records with a response of so many bytes in one of them. -/
def statsOf (st : Table InitStats) (key : Nat) (write : Bool) (n latency : Nat) : Table InitStats :=
  let old := tabGet { read := 0, written := 0, bins := [] } st key
  let bin := latencyBin latency
  tabSet st key (if write then { old with written := old.written + n }
    else { old with read := old.read + n, bins := tabSet old.bins bin (min (tabGet 0 old.bins bin + 1) (2 ^ 32 - 1)) })

/-- The initiators' records once a response has entered one of them. -/
def statsWith (d : Dev) (k : NocPacket) (latency : Nat) : Table InitStats :=
  match statKey k.dest k.vc (decide (k.op = 0x04)) with
  | none => d.noc.stats
  | some key => statsOf d.noc.stats key (decide (k.op = 0x04)) (k.lenm1.toNat + 1) latency

/-- A response has reached its initiator and entered its record. -/
def nocDelivered (d : Dev) (k q : NocPacket) (st : Table InitStats) : Dev :=
  { d with noc := { d.noc with
      flight := d.noc.flight.erase k
      outstanding := d.noc.outstanding.erase q
      received := d.noc.received ++ [k]
      stats := st } }

theorem countResponse_nocLeft (d : Dev) (k : NocPacket) (latency : Nat) :
    (nocLeft d k).countResponse k latency = { nocLeft d k with noc := { (nocLeft d k).noc with stats := statsWith d k latency } } := by
  unfold Dev.countResponse statsWith
  dsimp only
  cases statKey k.dest k.vc (decide (k.op = 0x04)) <;> rfl

theorem nocResponse_unasked {s : State} {k : NocPacket} {op : BitVec 6} {latency : Nat} (h : NocReaches s k op) (hq : s.dev.nocRequestOf k = none) :
    nocResponse k op latency s.dev = nocLeft s.dev k := by
  unfold nocResponse
  rw [nocArrive_of_reaches h, show (nocLeft s.dev k).nocRequestOf k = none from hq]

section
variable {s : State} {k q : NocPacket} {op : BitVec 6} {latency : Nat} (h : NocReaches s k op) (hq : s.dev.nocRequestOf k = some q)
include h hq

theorem nocResponse_roundless (hslot : k.rslot = 0x7F) :
    nocResponse k op latency s.dev = nocDelivered s.dev k q (statsWith s.dev k latency) := by
  unfold nocResponse
  rw [nocArrive_of_reaches h, show (nocLeft s.dev k).nocRequestOf k = some q from hq]
  dsimp only
  rw [if_pos hslot, countResponse_nocLeft]
  rfl

variable {r : Round} (hslot : k.rslot ≠ 0x7F) (hround : s.dev.slotRound k.rslot.toNat = some r)
include hslot hround

/-- A response of a round acts by the state of its round. -/
theorem nocResponse_of_round :
    nocResponse k op latency s.dev =
      (let counted := (nocLeft s.dev k).countResponse k latency
       if r.phase ≠ .running then { counted with noc := { counted.noc with outstanding := counted.noc.outstanding.erase q } }
       else if (Status.ofCode k.status.toNat).isSuccess then counted.nocDeliver q k
       else (counted.nocDeliver q k).raise r.number (Status.ofCode k.status.toNat)) := by
  unfold nocResponse
  rw [nocArrive_of_reaches h, show (nocLeft s.dev k).nocRequestOf k = some q from hq]
  dsimp only
  rw [if_neg hslot, show (nocLeft s.dev k).slotRound k.rslot.toNat = some r from hround]

theorem nocResponse_success (hrun : r.phase = .running) (hok : (Status.ofCode k.status.toNat).isSuccess = true) :
    nocResponse k op latency s.dev = nocDelivered s.dev k q (statsWith s.dev k latency) := by
  rw [nocResponse_of_round h hq hslot hround]
  dsimp only
  rw [if_neg (not_not.mpr hrun), if_pos hok, countResponse_nocLeft]
  rfl

theorem nocResponse_fault (hrun : r.phase = .running) (hfault : (Status.ofCode k.status.toNat).isSuccess = false) :
    nocResponse k op latency s.dev =
      (nocDelivered s.dev k q (statsWith s.dev k latency)).updRound r.number fun x => x.raise s.dev.cycles (Status.ofCode k.status.toNat) := by
  rw [nocResponse_of_round h hq hslot hround]
  dsimp only
  rw [if_neg (not_not.mpr hrun), if_neg (by simp [hfault]), countResponse_nocLeft]
  rfl

theorem nocResponse_ended (hended : r.phase ≠ .running) :
    (nocResponse k op latency s.dev).noc.received = s.dev.noc.received ∧ (nocResponse k op latency s.dev).rounds = s.dev.rounds := by
  rw [nocResponse_of_round h hq hslot hround]
  dsimp only
  rw [if_pos hended, countResponse_nocLeft]
  exact ⟨rfl, rfl⟩

end

/-- The bins of a latency (R238). -/
theorem latencyBin_bounds (latency : Nat) :
    (latencyBin latency = 0 ∧ latency < 64) ∨
      (1 ≤ latencyBin latency ∧ latencyBin latency < 15 ∧ 64 * 2 ^ (latencyBin latency - 1) ≤ latency ∧ latency < 64 * 2 ^ latencyBin latency) ∨
      (latencyBin latency = 15 ∧ 1048576 ≤ latency) := by
  unfold latencyBin
  split
  next h => exact .inl ⟨rfl, h⟩
  next h =>
    have hne : latency / 64 ≠ 0 := by omega
    have hlow := Nat.log2_self_le hne
    have hhigh := Nat.lt_log2_self (n := latency / 64)
    right
    by_cases hbig : 14 ≤ Nat.log2 (latency / 64)
    · right
      have hpow : 2 ^ 14 ≤ latency / 64 := (Nat.pow_le_pow_right (by omega) hbig).trans hlow
      exact ⟨by omega, by omega⟩
    · left
      rw [show min 15 (Nat.log2 (latency / 64) + 1) = Nat.log2 (latency / 64) + 1 by omega, Nat.add_sub_cancel]
      exact ⟨by omega, by omega, by omega, by omega⟩

/-! ### Adds, partials and tiles -/

theorem seqReg_add {f : Nat} (hf : f < 4096) : seqReg (4 * f) 4 = some (.add f) := by
  unfold seqReg
  rw [if_pos (by omega), Nat.mul_div_cancel_left _ (by omega)]

theorem nocFlagAdd_gives {s : State} {k : NocPacket} {b : List Byte} {f : Nat} (h : NocReaches s k 0x05) (hbody : k.body = .bytes b) (hf : f < 4096)
    (ha : k.addr.toNat = seqBase + 4 * f) :
    nocFlagAdd k s.dev = (nocLeft s.dev k).setFlag f (s.dev.flag f + BitVec.ofNat 32 (field b 0 4)) := by
  have hreg : seqReg (k.addr.toNat - seqBase) 4 = some (.add f) := by rw [Nat.sub_eq_of_eq_add' ha, seqReg_add hf]
  have hle : seqBase ≤ k.addr.toNat := Nat.le.intro ha.symm
  unfold nocFlagAdd
  generalize seqReg (k.addr.toNat - seqBase) 4 = reg at hreg ⊢
  rw [nocArrive_of_reaches h, hbody, hreg]
  exact if_pos hle

theorem nocCarryPartial_gives {s : State} {k : NocPacket} {n : CoreId} {m : CarryMsg} (h : NocReaches s k 0x06) (hbody : k.body = .carry n m) :
    nocCarryPartial k s.dev =
      if s.dev.attemptRuns m.round then
        ((nocLeft s.dev k).updCore n.toNat fun c => { c with carryIn := c.carryIn ++ [m] }).requestWake (clusterOf n.toNat)
      else nocLeft s.dev k := by
  unfold nocCarryPartial
  rw [hbody]
  exact nocArrive_of_reaches h _

/-- A core of a cluster in P0 needs no wake. -/
theorem requestWake_updCore {d : Dev} {n c : Nat} {f : Core → Core} (h : (d.cluster c).state = 0) : (d.updCore n f).requestWake c = d.updCore n f :=
  if_pos h

/-- The tile that a packet is of. -/
def tileOfPacket (k : NocPacket) (r : Round) (ord : Nat) : ChainTile :=
  let a := k.addr.toNat
  { hdr := tileHdrOf a, chain := bits a 25 20, round := r.number, ordinal := ord, tile := bits a 19 8, codes := [] }

/-- Parts of a tile's chain that the network brings to its round. -/
def netPartOf (t : ChainTile) (p : TilePart) : Bool := p.net && p.tile.chain == t.chain && p.tile.round == t.round

/-- The part of a tile that its next packet is added to. -/
def partBefore (c : Core) (t : ChainTile) (piece : Nat) : Option TilePart :=
  if piece = 0 then some { net := true, tile := t, bytes := [], next := 0 }
  else c.chainParts.find? fun p => netPartOf t p && p.next == piece && p.tile == t

/-- A core whose tile grows by a packet, or is there with its last one. -/
def withPacket (t : ChainTile) (p : TilePart) (piece : Nat) (b : List Byte) (c : Core) : Core :=
  let rest := c.chainParts.filter fun p => !netPartOf t p
  if tilePieces t.hdr ≤ piece + 1 then { c with chainParts := rest, chainIn := c.chainIn ++ [tileOfImage p.tile (p.bytes ++ b)] }
  else { c with chainParts := { p with bytes := p.bytes ++ b, next := piece + 1 } :: rest }

/-- The next packet of a tile reaches its member: the tile grows by it. -/
theorem nocWeightRow_gives {s : State} {k : NocPacket} {n ord : Nat} {b : List Byte} {r : Round} {p : TilePart} (h : NocReaches s k 0x07)
    (hbody : k.body = .tile ord b) (hdest : coreOfEnd k.dest = some n) (hround : s.dev.slotRound k.rslot.toNat = some r) (hrun : r.phase = .running)
    (hlen : b.length = k.lenm1.toNat + 1) (hpiece : b.length = min 256 (tileBytes (tileHdrOf k.addr.toNat) - 256 * (k.addr.toNat % 64)))
    (hp : partBefore (s.dev.core n) (tileOfPacket k r ord) (k.addr.toNat % 64) = some p) :
    nocWeightRow k s.dev =
      ((nocLeft s.dev k).updCore n (withPacket (tileOfPacket k r ord) p (k.addr.toNat % 64) b)).requestWake (clusterOf n) := by
  have hbits : bits k.addr.toNat 5 0 = k.addr.toNat % 64 := by simp [bits]
  have harrived : nocWeightRow k s.dev =
      match partBefore (s.dev.core n) (tileOfPacket k r ord) (bits k.addr.toNat 5 0) with
      | none => nocLeft s.dev k
      | some p =>
        if r.phase ≠ .running ∨ b.length ≠ k.lenm1.toNat + 1 ∨ b.length ≠ min 256 (tileBytes (tileHdrOf k.addr.toNat) - 256 * bits k.addr.toNat 5 0)
        then nocLeft s.dev k
        else ((nocLeft s.dev k).updCore n (withPacket (tileOfPacket k r ord) p (bits k.addr.toNat 5 0) b)).requestWake (clusterOf n) := by
    unfold nocWeightRow
    rw [hbody, hdest]
    dsimp only
    rw [nocArrive_of_reaches h, show (nocLeft s.dev k).slotRound k.rslot.toNat = some r from hround]
    rfl
  rw [harrived, hbits, hp]
  refine if_neg ?_
  rintro (hended | hother | hother)
  · exact hended hrun
  · exact hother hlen
  · exact hother hpiece

/-- Settles O50: each packet acts on the device that it has left, as its operation says. -/
theorem networkPackets : Obligations.NetworkPackets := by
  unfold Obligations.NetworkPackets
  intro s k latency d a len left room served delivered hfresh
  refine ⟨?_, ?_, ?_, ?_, fun h hq => ?_, ?_, fun h hq => ?_, ?_, ?_, ?_, fun h => ?_, ?_⟩
  · exact fun us h hroom hready => ⟨_, onClock_gives h.1, nocRead_of_ready h hroom hfresh hready⟩
  · exact fun us w c h hroom _ htile hawake hw hbad => ⟨_, onClock_gives h.1, nocRead_of_badTile h hroom hfresh htile hawake hw hbad⟩
  · exact fun b h hroom hbody hlen hready => ⟨_, onClock_gives h.1, nocWrite_of_ready h hroom hfresh hbody hlen hready⟩
  · intro q h hq hslot
    have hread : decide (k.op = 0x04) = false := by simp [h.2.1]
    have hgives := nocResponse_roundless (latency := latency) h hq hslot
    unfold statsWith at hgives
    rw [hread] at hgives
    constructor
    · intro hkey
      rw [hkey] at hgives
      exact onClock_gives_of_eq h.1 hgives
    · intro key hkey old
      rw [hkey] at hgives
      refine ⟨latencyBin latency, { old with
          read := old.read + len
          bins := tabSet old.bins (latencyBin latency) (min (tabGet 0 old.bins (latencyBin latency) + 1) (2 ^ 32 - 1)) },
        latencyBin_bounds latency, rfl, rfl, fun x => ?_, onClock_gives_of_eq h.1 hgives⟩
      rw [tabGet_tabSet]
      split
      next hx => rw [hx]
      next => rfl
  · exact onClock_gives_of_eq h.1 (nocResponse_unasked h hq)
  · intro q h hq st stats
    have hstats : statsWith s.dev k 0 = stats := by
      have hwrite : decide (k.op = 0x04) = true := by simp [h.2.1]
      unfold statsWith
      rw [hwrite]
      dsimp only [stats]
      cases statKey k.dest k.vc true <;> rfl
    rw [← hstats]
    refine ⟨fun hslot => onClock_gives_of_eq h.1 (nocResponse_roundless h hq hslot), fun r hslot hround => ⟨?_, ?_, ?_⟩⟩
    · exact fun hrun hok => onClock_gives_of_eq h.1 (nocResponse_success h hq hslot hround hrun hok)
    · exact fun hrun hfault => onClock_gives_of_eq h.1 (nocResponse_fault h hq hslot hround hrun hfault)
    · exact fun hended => ⟨_, onClock_gives h.1, nocResponse_ended h hq hslot hround hended⟩
  · exact onClock_gives_of_eq h.1 (nocResponse_unasked h hq)
  · exact fun b f h hbody hf ha => onClock_gives_of_eq h.1 (nocFlagAdd_gives h hbody hf ha)
  · intro n m h hbody
    refine ⟨fun hruns hawake => ?_, fun hended => ?_⟩
    · exact onClock_gives_of_eq h.1 ((nocCarryPartial_gives h hbody).trans ((if_pos hruns).trans (requestWake_updCore hawake)))
    · exact onClock_gives_of_eq h.1 ((nocCarryPartial_gives h hbody).trans (if_neg (ne_true_of_eq_false hended)))
  · intro n ord b r h hbody hdest hround hrun hawake hlen hdr piece chain tile mine hpiece p hp rest
    have hbefore : partBefore (s.dev.core n) (tileOfPacket k r ord) (k.addr.toNat % 64) = some p := by
      unfold partBefore
      split
      next hzero =>
        rw [if_pos hzero] at hp
        rw [hp]
        rfl
      next hzero =>
        rw [if_neg hzero] at hp
        exact hp
    have hgives := (nocWeightRow_gives h hbody hdest hround hrun hlen hpiece hbefore).trans (requestWake_updCore (c := clusterOf n) hawake)
    refine ⟨fun hmore => onClock_gives_of_eq h.1 (hgives.trans (Dev.updCore_congr ?_)),
      fun hlast => onClock_gives_of_eq h.1 (hgives.trans (Dev.updCore_congr ?_))⟩
    · exact if_neg (Nat.not_le.mpr hmore)
    · exact if_pos hlast
  · exact onClock_gives_of_eq h.1 (nocArrive_of_reaches h id)
  · exact fun hclk hother => onClock_ignored (f := nocManagement k) (nocManagement_ignored hother)

end Sys2Proof.Machine
end

section
/-! The words of the fabric ports, and what each command meets first (R301, R302, R306). -/

namespace Sys2Proof.Machine

/-! ### Command and response words -/

/-- The fields of a command word one after another (R301). -/
def commandFields (op : BitVec 4) (cmd : FabCmd) : BitVec (4 + 1 + 3 + 32 + 6 + 8 + 22 + 52) :=
  op ++ BitVec.ofBool cmd.rvalid ++ cmd.attempt ++ cmd.round ++ cmd.tag ++ cmd.lenm1 ++ cmd.rsvd ++ cmd.addr

/-- Each field is found again where it stands. -/
theorem extract_commandFields (op : BitVec 4) (cmd : FabCmd) :
    (commandFields op cmd).extractLsb' 124 4 = op ∧ (commandFields op cmd).extractLsb' 123 1 = BitVec.ofBool cmd.rvalid ∧
      (commandFields op cmd).extractLsb' 120 3 = cmd.attempt ∧ (commandFields op cmd).extractLsb' 88 32 = cmd.round ∧
      (commandFields op cmd).extractLsb' 82 6 = cmd.tag ∧ (commandFields op cmd).extractLsb' 74 8 = cmd.lenm1 ∧
      (commandFields op cmd).extractLsb' 52 22 = cmd.rsvd ∧ (commandFields op cmd).extractLsb' 0 52 = cmd.addr := by
  unfold commandFields
  refine ⟨?_, ?_, ?_, ?_, ?_, ?_, ?_, ?_⟩ <;> simp [BitVec.extractLsb'_append_eq_ite, -Nat.reduceAdd]

/-- The fields of a command word are those it was built of (R301). -/
theorem fabDecode_commandWord (op : BitVec 4) (cmd : FabCmd) : fabDecode (commandWord op cmd) cmd.beats = (op, cmd) := by
  obtain ⟨hop, hvalid, hattempt, hround, htag, hlen, hrsvd, haddr⟩ := extract_commandFields op cmd
  have hbit : (commandFields op cmd).getLsbD 123 = cmd.rvalid := by
    have hzero := congrArg (fun x => x.getLsbD 0) hvalid
    simpa using hzero
  exact Prod.ext hop (by
    cases cmd
    exact FabCmd.mk.injEq .. ▸ ⟨hbit, hattempt, hround, htag, hlen, hrsvd, haddr, rfl⟩)

/-- A stretch of the bits of a word, as a number. -/
theorem toNat_extractLsb' {w : Nat} (x : BitVec w) (lo n : Nat) : (BitVec.extractLsb' lo n x).toNat = x.toNat / 2 ^ lo % 2 ^ n := by
  rw [BitVec.extractLsb'_toNat, Nat.shiftRight_eq_div_pow]

theorem extractLsb'_eq_iff {v w : Nat} (x : BitVec v) (y : BitVec w) (lo lo' n : Nat) :
    BitVec.extractLsb' lo n x = BitVec.extractLsb' lo' n y ↔ x.toNat / 2 ^ lo % 2 ^ n = y.toNat / 2 ^ lo' % 2 ^ n := by
  rw [← BitVec.toNat_inj, toNat_extractLsb', toNat_extractLsb']

/-- A response word answers a command word by OP and TAG (R303). -/
theorem commandTag_eq_responseTag (cw w : BitVec 128) :
    commandTag cw = responseTag w ↔
      w.toNat / 2 ^ 124 = cw.toNat / 2 ^ 124 ∧ w.toNat / 2 ^ 118 % 64 = cw.toNat / 2 ^ 82 % 64 := by
  have hop (x : BitVec 128) : x.toNat / 2 ^ 124 % 2 ^ 4 = x.toNat / 2 ^ 124 := by
    have := x.isLt
    omega
  unfold commandTag responseTag
  rw [Prod.mk.injEq, extractLsb'_eq_iff, extractLsb'_eq_iff, hop, hop]
  exact and_congr eq_comm eq_comm

theorem commandTag_snd (cw : BitVec 128) : (commandTag cw).2 = BitVec.ofNat 6 (cw.toNat / 2 ^ 82) := by
  rw [← BitVec.toNat_inj]
  unfold commandTag
  rw [toNat_extractLsb', BitVec.toNat_ofNat]

/-- The status field of a response word (R303). -/
theorem statusField_eq_zero (w : BitVec 128) : BitVec.extractLsb' 110 8 w = 0 ↔ w.toNat / 2 ^ 110 % 256 = 0 := by
  rw [← BitVec.toNat_inj, toNat_extractLsb']
  rfl

/-! ### What a command meets first -/

theorem accepts_of_portAccepts {s : State} {c : CoreId} {cmd : FabCmd} {beats : Nat} (h : PortAccepts s c cmd beats) :
    s.dev.accepts c.toNat cmd beats = true := by
  obtain ⟨_, hlive, hroom, htag, hbeats⟩ := h
  have hfree : ((s.dev.core c.toNat).port.outstanding.any fun o => o.2.tag == cmd.tag) = false := by
    rw [List.any_eq_false]
    intro o ho
    simpa using htag o ho
  simp [Dev.accepts, hlive, hroom, hfree, hbeats]

/-- The command of a row does what the row says. -/
theorem fabWord_own (d : Dev) (n : Nat) (row : BitVec 4) (cmd : FabCmd) (f : FabCmd → Dev → Dev) : d.fabWord n row (fabCommand row cmd) f = f cmd d := by
  unfold Dev.fabWord fabCommand
  rw [fabDecode_commandWord]
  exact if_pos rfl

/-- A word whose OP no operation has is answered with BAD_DESCRIPTOR (R303). -/
theorem fabWord_reserved {s : State} {c : CoreId} {op row : BitVec 4} {cmd : FabCmd} (h : PortAccepts s c cmd 0) (hop : fabReserved op = true)
    (hrow : op ≠ row) (f : FabCmd → Dev → Dev) :
    s.dev.fabWord c.toNat row (fabCommand op cmd) f = s.dev.fabAnswer c.toNat op cmd .badDescriptor 0 0 := by
  have hbeats : cmd.beats.length / 64 = 0 := by
    obtain ⟨_, _, _, _, hlen⟩ := h
    omega
  unfold Dev.fabWord fabCommand
  rw [fabDecode_commandWord]
  dsimp only
  rw [if_neg hrow, if_pos hop, Dev.fabBadOp, hbeats]
  exact if_pos (accepts_of_portAccepts h)

theorem fabWord_other {d : Dev} {n : Nat} {op row : BitVec 4} {cmd : FabCmd} (hop : fabReserved op = false) (hrow : op ≠ row)
    (f : FabCmd → Dev → Dev) : d.fabWord n row (fabCommand op cmd) f = d := by
  unfold Dev.fabWord fabCommand
  rw [fabDecode_commandWord]
  dsimp only
  rw [if_neg hrow, if_neg (ne_true_of_eq_false hop)]

section
variable {s : State} {c : CoreId} {cmd : FabCmd} {beats : Nat} {op : BitVec 4} {used : Bool}

theorem fabFront_malformed (h : PortAccepts s c cmd beats) (hbad : used = false ∨ cmd.rsvd ≠ 0) (f : Dev → Dev) :
    s.dev.fabFront c.toNat op cmd beats used f = s.dev.fabAnswer c.toNat op cmd .badDescriptor 0 0 := by
  have hunused : !used ∨ cmd.rsvd ≠ 0 := by simpa using hbad
  unfold Dev.fabFront
  rw [accepts_of_portAccepts h]
  exact if_pos hunused

theorem fabFront_stale {st : Status} (h : PortAccepts s c cmd beats) (hused : used = true) (hrsvd : cmd.rsvd = 0)
    (hstale : s.dev.staleCmd cmd = some st) (f : Dev → Dev) :
    s.dev.fabFront c.toNat op cmd beats used f = s.dev.fabAnswer c.toNat op cmd st 0 0 := by
  unfold Dev.fabFront
  rw [accepts_of_portAccepts h, hstale, hused, hrsvd]
  rfl

/-- A command without a round, whose fields are as they must be, does what it says. -/
theorem fabFront_takes (h : PortTakes s c cmd beats) (hused : used = true) (f : Dev → Dev) :
    s.dev.fabFront c.toNat op cmd beats used f = f s.dev := by
  obtain ⟨haccepts, hrsvd, hround⟩ := h
  have hstale : s.dev.staleCmd cmd = none := by
    unfold Dev.staleCmd
    rw [hround]
    rfl
  unfold Dev.fabFront
  rw [accepts_of_portAccepts haccepts, hstale, hused, hrsvd, hround]
  rfl

end

theorem staleCmd_unopened {d : Dev} {cmd : FabCmd} (hround : cmd.rvalid = true) (hnone : d.round? cmd.round = none) :
    d.staleCmd cmd = some .badDescriptor := by
  unfold Dev.staleCmd
  rw [hround, hnone]
  rfl

theorem staleCmd_ended {d : Dev} {cmd : FabCmd} {r : Round} {e : Nat × Status} (hround : cmd.rvalid = true) (hsome : d.round? cmd.round = some r)
    (hended : r.phase ≠ .running ∨ cmd.attempt.toNat ≠ min r.attempt 7) (hfind : r.endings.find? (fun e => cmd.attempt.toNat = min e.1 7) = some e) :
    d.staleCmd cmd = some e.2 := by
  have hnot : ¬(r.phase = .running ∧ cmd.attempt.toNat = min r.attempt 7) := by rwa [not_and_or]
  unfold Dev.staleCmd
  rw [hround, hsome]
  dsimp only
  rw [if_neg hnot, hfind]
  rfl

end Sys2Proof.Machine
end

section
/-! READ, WRITE and INJECT of a fabric port (R305, R307). -/

namespace Sys2Proof.Machine

/-! ### What a change of a port leaves -/

theorem port_updFab (d : Dev) (n : Nat) (f : FabricPort → FabricPort) : ((d.updFab n f).core n).port = f (d.core n).port := by
  rw [Dev.updFab, Dev.core_updCore, if_pos rfl]

theorem rk_updFab (d : Dev) (n k : Nat) (f : FabricPort → FabricPort) : ((d.updFab n f).core k).rk = (d.core k).rk := by
  rw [Dev.updFab, Dev.core_updCore]
  split
  next h => rw [h]
  next => rfl

theorem updFab_updFab (d : Dev) (n : Nat) (f g : FabricPort → FabricPort) : (d.updFab n f).updFab n g = d.updFab n fun p => g (f p) :=
  Dev.updCore_updCore ..

theorem bankBusy_updFab (d : Dev) (n : Nat) (f : FabricPort → FabricPort) (a len : Nat) : (d.updFab n f).bankBusy a len = d.bankBusy a len := by
  unfold Dev.bankBusy
  rw [show (d.updFab n f).regionOf a = d.regionOf a from rfl]
  split
  · simp only [rk_updFab]
  · rfl

/-- The rounds whose inputs a core's rings hold in a range. -/
def heldFor (d : Dev) (a n : Nat) (e : Nat × Core) : List RoundNo :=
  e.2.rings.flatMap fun g => g.2.held.filterMap fun h =>
    match h.holder.protects? with
    | some r => if overlaps a n (d.bufAddr e.1 g.1 h.handle.buf) (d.ringCfg e.1 g.1).size then some r else none
    | none => none

theorem protectors_eq_nil (d : Dev) (a n : Nat) (hn : n ≠ 0) :
    d.protectors a n = [] ↔
      (d.rounds.filter fun r => r.inputs.any fun i => overlaps a n i.1 i.2).map Round.number = [] ∧ ∀ e ∈ d.cores, heldFor d a n e = [] := by
  have hform : d.protectors a n =
      (d.rounds.filter fun r => r.inputs.any fun i => overlaps a n i.1 i.2).map Round.number ++ d.cores.flatMap (heldFor d a n) := if_neg hn
  rw [hform, List.append_eq_nil_iff, List.flatMap_eq_nil_iff]

theorem protectors_updFab {d : Dev} {a len : Nat} (n : Nat) (f : FabricPort → FabricPort) (hlen : len ≠ 0) (h : d.protectors a len = []) :
    (d.updFab n f).protectors a len = [] := by
  rw [protectors_eq_nil _ _ _ hlen] at h ⊢
  obtain ⟨hdeclared, hheld⟩ := h
  refine ⟨hdeclared, fun e he => ?_⟩
  have he' : e = (n, { d.core n with port := f (d.core n).port }) ∨ e ∈ tabErase d.cores n := (mem_tabInsert ..).mp he
  obtain rfl | hold := he'
  · cases hfind : tabFind d.cores n with
    | some c =>
      have hcore : d.core n = c := by simp [Dev.core, tabGet, hfind]
      rw [hcore]
      exact hheld (n, c) (mem_of_tabFind hfind)
    | none =>
      have hcore : d.core n = Core.reset := by simp [Dev.core, tabGet, hfind]
      rw [hcore]
      rfl
  · exact hheld e (List.mem_filter.mp hold).1

/-- A command that a port holds leaves memory as ready as it was. -/
theorem memoryWritable_updFab {d : Dev} {a len : Nat} (n : Nat) (f : FabricPort → FabricPort) (h : MemoryWritable d a len) :
    MemoryWritable (d.updFab n f) a len := by
  obtain ⟨hready, hfree, hidle⟩ := h
  exact ⟨hready, protectors_updFab n f (Nat.ne_of_gt hready.2.1) hfree, (bankBusy_updFab ..).trans hidle⟩

/-! ### Answers to the port -/

theorem reply_fabric {e : Dev} {c : CoreId} {op : BitVec 4} {cmd : FabCmd} {a n : Nat} {data : Option (List Byte)} (st : Status) (b : List Byte)
    (hout : (op, cmd) ∈ (e.core c.toNat).port.outstanding) :
    e.reply { origin := .fabric c op cmd, addr := a, len := n, data := data } st b =
      (e.injected op cmd st).updFab c.toNat fun p =>
        p.answer op cmd.tag st 0 (if op = 0x3 ∧ st = .done then (e.stream cmd.addr.toNat).tail.setWidth 52 else 0)
          (if data.isNone ∧ st = .done then beatsOf b else []) :=
  if_pos (List.contains_iff_mem.mpr hout)

/-- The answer of the command last held leaves those that were held before. -/
theorem filter_own_tag {l : List (BitVec 4 × FabCmd)} {cmd : FabCmd} (h : ∀ o ∈ l, o.2.tag ≠ cmd.tag) (op : BitVec 4) :
    (l ++ [(op, cmd)]).filter (fun o => o.2.tag ≠ cmd.tag) = l := by
  rw [List.filter_append, List.filter_eq_self.mpr fun o ho => decide_eq_true (h o ho)]
  simp

section
variable {s : State} {c : CoreId} {cmd : FabCmd}

/-- The device on which an access of a port's command is answered holds that command. -/
theorem outstanding_of_answersOn {d e : Dev} {op : BitVec 4} {a : Access} (hon : AnswersOn (d.fabHold c.toNat op cmd) a e) :
    (e.core c.toNat).port = { (d.core c.toNat).port with outstanding := (d.core c.toNat).port.outstanding ++ [(op, cmd)] } := by
  rw [Dev.core, hon.cores]
  exact port_updFab ..

theorem fabAccess_crossing {fz : Fuses} {d : Dev} {op : BitVec 4} {data : Option (List Byte)}
    (h : cmd.addr.toNat / 4096 ≠ (cmd.addr.toNat + (cmd.lenm1.toNat + 1) - 1) / 4096) :
    fabAccess fz c op cmd data d = d.fabAnswer c.toNat op cmd .address 0 0 := if_pos h

/-- READ of memory that is ready (R305). -/
theorem fabAccess_read {beats : Nat} (h : PortTakes s c cmd beats) (hpage : cmd.addr.toNat / 4096 = (cmd.addr.toNat + (cmd.lenm1.toNat + 1) - 1) / 4096)
    (hready : MemoryReady s.dev cmd.addr.toNat (cmd.lenm1.toNat + 1)) (hfresh : FreshIds s.dev) :
    let t := fabAccess s.fuses c 1 cmd none s.dev
    t.mem = s.dev.mem ∧ t.accesses = s.dev.accesses ∧ (t.core c.toNat).port.outstanding = (s.dev.core c.toNat).port.outstanding ∧
      (t.core c.toNat).port.responses =
        portAnswered s.dev c 1 cmd .done 0 0 (beatsOf (memRead s.dev.mem cmd.addr.toNat (cmd.lenm1.toNat + 1))) := by
  obtain ⟨⟨_, _, _, htags, _⟩, _, _⟩ := h
  obtain ⟨e, hon, hmem, hissue⟩ := issueAs_read_gives (fz := s.fuses) (d := s.dev.fabHold c.toNat 1 cmd) (out := true) (o := .fabric c 1 cmd)
    hready hfresh
  have hport := outstanding_of_answersOn hon
  have hanswer := hissue.trans (reply_fabric _ _ (by rw [hport]; simp))
  have hgo : fabAccess s.fuses c 1 cmd none s.dev = _ := (if_neg (not_not.mpr hpage)).trans hanswer
  intro t
  have ht : t = _ := hgo
  rw [ht]
  refine ⟨hmem, hon.accesses, ?_, ?_⟩
  · rw [port_updFab]
    show List.filter _ (e.core c.toNat).port.outstanding = _
    rw [hport]
    exact filter_own_tag htags 1
  · rw [port_updFab]
    show (e.core c.toNat).port.responses ++ _ = _
    rw [hport]
    rfl

/-- WRITE of memory that is ready (R305). -/
theorem fabAccess_write (hpage : cmd.addr.toNat / 4096 = (cmd.addr.toNat + (cmd.lenm1.toNat + 1) - 1) / 4096)
    (hready : MemoryWritable s.dev cmd.addr.toNat (cmd.lenm1.toNat + 1)) (hfresh : FreshIds s.dev) :
    let t := fabAccess s.fuses c 2 cmd (some (slice cmd.beats 0 (cmd.lenm1.toNat + 1))) s.dev
    t.mem = memWrite s.dev.mem cmd.addr.toNat (slice cmd.beats 0 (cmd.lenm1.toNat + 1)) ∧ t.accesses = s.dev.accesses ∧
      (t.core c.toNat).port.responses = portAnswered s.dev c 2 cmd .done 0 0 [] := by
  obtain ⟨e, hon, hmem, _, hissue⟩ := issueAs_write_gives (fz := s.fuses) (out := true) (o := .fabric c 2 cmd) (slice_length cmd.beats 0 _)
    (memoryWritable_updFab c.toNat (fun p => { p with outstanding := p.outstanding ++ [(2, cmd)] }) hready) hfresh
  have hport := outstanding_of_answersOn hon
  have hanswer := hissue.trans (reply_fabric _ _ (by rw [hport]; simp))
  have hgo : fabAccess s.fuses c 2 cmd (some (slice cmd.beats 0 (cmd.lenm1.toNat + 1))) s.dev = _ := (if_neg (not_not.mpr hpage)).trans hanswer
  intro t
  have ht : t = _ := hgo
  rw [ht]
  refine ⟨hmem, hon.accesses, ?_⟩
  rw [port_updFab]
  show (e.core c.toNat).port.responses ++ _ = _
  rw [hport]
  rfl

end

/-! ### INJECT (R307) -/

/-- Neither memory nor its controllers count accepted INJECTs. -/
theorem countsApart_injects : CountsApart 0x3130 4 := by
  refine ⟨fun r => ?_, by decide⟩
  unfold okey
  cases r <;> dsimp only [Region.correctedObj] <;> omega

/-- The next TAIL of a ring that has entries (R127). -/
theorem tailNext_tail {x : Stream} (h : x.full = false) :
    x.tailNext.tail = BitVec.ofNat 16 ((x.tail.toNat + 1) % (16 * x.size.toNat)) := by
  have hentries : x.size.toNat * 16 ≠ 0 := by
    intro hzero
    simp [Stream.full, Stream.entries, hzero] at h
  unfold Stream.tailNext
  dsimp only
  rw [if_neg hentries, Nat.mul_comm]

/-- An INJECT that its stream has room for is appended and answered. -/
theorem injectGo_gives {fz : Fuses} {d : Dev} {c : CoreId} {cmd : FabCmd} (hfull : (d.stream cmd.addr.toNat).full = false)
    (hinjecting : d.injecting cmd.addr.toNat = false) (hlate : d.injectLate c.toNat cmd.addr.toNat = false)
    (hout : (3, cmd) ∈ (d.core c.toNat).port.outstanding) (hbeats : cmd.beats.length = 128)
    (hready : MemoryWritable d ((d.stream cmd.addr.toNat).ringBase.toNat + 128 * (d.stream cmd.addr.toNat).tail.toNat) 128) (hfresh : FreshIds d) :
    let t := d.injectGo fz c cmd
    let x := d.stream cmd.addr.toNat
    t.mem = memWrite d.mem (x.ringBase.toNat + 128 * x.tail.toNat) cmd.beats ∧
      (t.stream cmd.addr.toNat).tail = BitVec.ofNat 16 ((x.tail.toNat + 1) % (16 * x.size.toNat)) ∧
      t.count 0x3130 4 = (d.count 0x3130 4 + 1) % 2 ^ 64 ∧
      (t.core c.toNat).port = (d.core c.toNat).port.answer 3 cmd.tag .done 0 (x.tail.setWidth 52) [] := by
  let taken (x : Stream) : Stream := { x with injected := some (d.cycles, c.toNat) }
  obtain ⟨e, hon, hmem, hcounts, hissue⟩ := issueAs_write_gives (fz := fz) (d := d.updStream cmd.addr.toNat taken) (out := true)
    (o := .fabric c 3 cmd) hbeats hready hfresh
  have hcore : (e.core c.toNat).port = (d.core c.toNat).port := by rw [Dev.core, hon.cores]; rfl
  have hstream : e.stream cmd.addr.toNat = taken (d.stream cmd.addr.toNat) := by
    rw [Dev.stream, hon.streams]
    exact (Dev.stream_updStream ..).trans (if_pos rfl)
  have hanswer := hissue.trans (reply_fabric _ _ (by rw [hcore]; exact hout))
  have hgo : d.injectGo fz c cmd = _ := (if_neg (by simp [hfull, hinjecting, hlate])).trans hanswer
  intro t x
  have ht : t = _ := hgo
  rw [ht]
  refine ⟨hmem, ?_, ?_, ?_⟩
  · show ((e.updStream cmd.addr.toNat Stream.tailNext).stream cmd.addr.toNat).tail = _
    rw [Dev.stream_updStream, if_pos rfl, hstream]
    exact tailNext_tail (x := taken x) hfull
  · refine (Dev.count_bump (e.updStream cmd.addr.toNat Stream.tailNext) 0x3130 4 1 (0x3130, 4) (by omega)).trans ?_
    rw [if_pos rfl]
    exact congrArg (fun v => (v + 1) % 2 ^ 64) (hcounts _ _ countsApart_injects)
  · rw [port_updFab]
    show FabricPort.answer (e.core c.toNat).port 3 cmd.tag .done 0 ((e.stream cmd.addr.toNat).tail.setWidth 52) [] = _
    rw [hcore, hstream]

theorem injectGo_waits {fz : Fuses} {d : Dev} {c : CoreId} {cmd : FabCmd} (hfull : (d.stream cmd.addr.toNat).full = true) :
    d.injectGo fz c cmd = d.updFab c.toNat fun p => { p with injects := p.injects ++ [cmd] } := if_pos (.inl hfull)

/-- Where every INJECT that waits at a port waits for room, none goes on. -/
theorem injectResume_none {fz : Fuses} {d : Dev} {c : CoreId}
    (h : ∀ q ∈ (d.core c.toNat).port.injects, d.injectOpen q.addr.toNat = true ∧ (d.stream q.addr.toNat).full = true) :
    injectResume fz c d = d := by
  have hnone : ((d.core c.toNat).port.injects.find? fun q =>
      !d.injectOpen q.addr.toNat ||
        (!(d.stream q.addr.toNat).full && !d.injecting q.addr.toNat && !d.injectLate c.toNat q.addr.toNat)) = none := by
    rw [List.find?_eq_none]
    intro q hq
    obtain ⟨hopen, hfull⟩ := h q hq
    simp [hopen, hfull]
  unfold injectResume
  dsimp only
  rw [hnone]

section
variable {fz : Fuses} {d : Dev} {c : CoreId} {cmd : FabCmd} {rest : List FabCmd} (hinjects : (d.core c.toNat).port.injects = cmd :: rest)
include hinjects

/-- The oldest INJECT that waits at a port goes on once its stream has room or takes none. -/
theorem injectResume_head
    (hready : d.injectOpen cmd.addr.toNat = true → (d.stream cmd.addr.toNat).full = false ∧ d.injecting cmd.addr.toNat = false ∧
      d.injectLate c.toNat cmd.addr.toNat = false) :
    injectResume fz c d =
      let left := d.updFab c.toNat fun p => { p with injects := rest }
      if d.injectOpen cmd.addr.toNat then left.injectGo fz c cmd
      else if (d.core c.toNat).port.outstanding.contains (0x3, cmd) then left.fabAnswer c.toNat 0x3 cmd .address 0 0
      else left.updFab c.toNat fun p => { p with orphans := p.orphans.erase (0x3, cmd) } := by
  have hhead : ((d.core c.toNat).port.injects.find? fun q =>
      !d.injectOpen q.addr.toNat ||
        (!(d.stream q.addr.toNat).full && !d.injecting q.addr.toNat && !d.injectLate c.toNat q.addr.toNat)) = some cmd := by
    rw [hinjects]
    refine List.find?_cons_of_pos ?_
    cases hopen : d.injectOpen cmd.addr.toNat with
    | false => rfl
    | true =>
      obtain ⟨hfull, hinjecting, hlate⟩ := hready hopen
      simp [hfull, hinjecting, hlate]
  have hleft : (d.updFab c.toNat fun p => { p with injects := p.injects.erase cmd }) = d.updFab c.toNat fun p => { p with injects := rest } := by
    refine Dev.updCore_congr ?_
    dsimp only
    rw [hinjects, List.erase_cons_head]
  unfold injectResume
  dsimp only
  rw [hhead]
  dsimp only
  rw [hleft]

end

section
variable {s : State} {c : CoreId} {cmd : FabCmd}

theorem fabInject_gives (h : PortTakes s c cmd 2) (hlen : cmd.lenm1 = 0) (ha : cmd.addr.toNat < 256) :
    fabInject s.fuses c cmd s.dev =
      if !s.dev.injectOpen cmd.addr.toNat then s.dev.fabAnswer c.toNat 0x3 cmd .address 0 0
      else (s.dev.fabHold c.toNat 0x3 cmd).injectGo s.fuses c cmd := by
  unfold fabInject
  exact fabFront_takes h (by simp [hlen, ha]) _

/-- An INJECT of a stream that has room is appended and answered (R307). -/
theorem fabInject_ready (h : PortTakes s c cmd 2) (hlen : cmd.lenm1 = 0) (ha : cmd.addr.toNat < 256) (hopen : s.dev.injectOpen cmd.addr.toNat = true)
    (hfull : (s.dev.stream cmd.addr.toNat).full = false) (hinjecting : s.dev.injecting cmd.addr.toNat = false)
    (hlate : s.dev.injectLate c.toNat cmd.addr.toNat = false)
    (hready : MemoryWritable s.dev ((s.dev.stream cmd.addr.toNat).ringBase.toNat + 128 * (s.dev.stream cmd.addr.toNat).tail.toNat) 128)
    (hfresh : FreshIds s.dev) :
    let t := fabInject s.fuses c cmd s.dev
    let x := s.dev.stream cmd.addr.toNat
    t.mem = memWrite s.dev.mem (x.ringBase.toNat + 128 * x.tail.toNat) cmd.beats ∧
      (t.stream cmd.addr.toNat).tail = BitVec.ofNat 16 ((x.tail.toNat + 1) % (16 * x.size.toNat)) ∧
      t.count 0x3130 4 = (s.dev.count 0x3130 4 + 1) % 2 ^ 64 ∧
      (t.core c.toNat).port.responses = portAnswered s.dev c 3 cmd .done 0 (x.tail.setWidth 52) [] := by
  obtain ⟨⟨_, _, _, _, hbeats⟩, _, _⟩ := id h
  let hold (p : FabricPort) : FabricPort := { p with outstanding := p.outstanding ++ [(3, cmd)] }
  have hport : ((s.dev.fabHold c.toNat 0x3 cmd).core c.toNat).port = hold (s.dev.core c.toNat).port := port_updFab ..
  obtain ⟨hmem, htail, hcount, hanswer⟩ := injectGo_gives (fz := s.fuses) (d := s.dev.fabHold c.toNat 0x3 cmd) (c := c) (cmd := cmd) hfull hinjecting
    hlate (by rw [hport]; simp [hold]) hbeats (memoryWritable_updFab c.toNat hold hready) hfresh
  intro t x
  have ht : t = (s.dev.fabHold c.toNat 0x3 cmd).injectGo s.fuses c cmd := (fabInject_gives h hlen ha).trans (if_neg (by simp [hopen]))
  rw [ht]
  refine ⟨hmem, htail, hcount, ?_⟩
  rw [hanswer, hport]
  rfl

end

/-- The oldest waiting INJECT whose stream has room is appended and answered (R307). -/
theorem injectResume_ready {fz : Fuses} {d : Dev} {c : CoreId} {cmd : FabCmd} {rest : List FabCmd}
    (hinjects : (d.core c.toNat).port.injects = cmd :: rest) (hopen : d.injectOpen cmd.addr.toNat = true)
    (hfull : (d.stream cmd.addr.toNat).full = false) (hinjecting : d.injecting cmd.addr.toNat = false)
    (hlate : d.injectLate c.toNat cmd.addr.toNat = false) (hout : (3, cmd) ∈ (d.core c.toNat).port.outstanding) (hbeats : cmd.beats.length = 128)
    (hready : MemoryWritable d ((d.stream cmd.addr.toNat).ringBase.toNat + 128 * (d.stream cmd.addr.toNat).tail.toNat) 128) (hfresh : FreshIds d) :
    let t := injectResume fz c d
    let x := d.stream cmd.addr.toNat
    t.mem = memWrite d.mem (x.ringBase.toNat + 128 * x.tail.toNat) cmd.beats ∧ (t.core c.toNat).port.injects = rest ∧
      (t.stream cmd.addr.toNat).tail = BitVec.ofNat 16 ((x.tail.toNat + 1) % (16 * x.size.toNat)) ∧
      (t.core c.toNat).port.responses = portAnswered d c 3 cmd .done 0 (x.tail.setWidth 52) [] := by
  let left (p : FabricPort) : FabricPort := { p with injects := rest }
  have hport : ((d.updFab c.toNat left).core c.toNat).port = left (d.core c.toNat).port := port_updFab ..
  obtain ⟨hmem, htail, _, hanswer⟩ := injectGo_gives (fz := fz) (d := d.updFab c.toNat left) (c := c) (cmd := cmd) hfull hinjecting hlate
    (by rw [hport]; exact hout) hbeats (memoryWritable_updFab c.toNat left hready) hfresh
  intro t x
  have ht : t = (d.updFab c.toNat left).injectGo fz c cmd :=
    (injectResume_head hinjects fun _ => ⟨hfull, hinjecting, hlate⟩).trans (if_pos hopen)
  rw [ht]
  refine ⟨hmem, ?_, htail, ?_⟩
  · rw [hanswer, hport]
    rfl
  · rw [hanswer, hport]
    rfl

end Sys2Proof.Machine
end

section
/-! TAKE, RELEASE and FLAGADD of a fabric port, and what fabric logic answers (R308 to R312). -/

namespace Sys2Proof.Machine

theorem bits_low (a n : Nat) : bits a n 0 = a % 2 ^ (n + 1) := by simp [bits]

/-! ### RELEASE (R309) -/

/-- A buffer that its port has released is released no more. -/
theorem ofPort_release {e g : Held} {buf : Nat} (h : e.ofPort buf = true) (hg : e.release = some g) (b : Nat) : g.ofPort b = false := by
  unfold Held.ofPort at h
  unfold Held.release at hg
  cases hholder : e.holder with
  | port rv r released done =>
    rw [hholder] at hg
    dsimp only at hg
    split at hg
    · cases hg
    · cases hg
      simp [Held.ofPort]
  | _ => simp [hholder] at h

/-- After a release the port holds that buffer no more. -/
theorem ofPort_released {l : List Held} {buf : Nat} {g : Held} (h : g ∈ l.filterMap fun e => if e.ofPort buf then e.release else some e) :
    g.ofPort buf = false := by
  obtain ⟨e, _, he⟩ := List.mem_filterMap.mp h
  split at he
  next hmine => exact ofPort_release hmine he buf
  next hother =>
    cases he
    exact Bool.eq_false_iff.mpr hother

theorem ring_updFab (d : Dev) (n q : Nat) (f : FabricPort → FabricPort) : (d.updFab n f).ring n q = d.ring n q := by
  unfold Dev.ring
  rw [Dev.updFab, Dev.core_updCore, if_pos rfl]

theorem ring_updRing (d : Dev) (n q : Nat) (f : Ring → Ring) : (d.updRing n q f).ring n q = f (d.ring n q) := by
  unfold Dev.ring
  rw [Dev.updRing, Dev.core_updCore, if_pos rfl, tabGet_tabSet, if_pos rfl]

theorem port_updRing (d : Dev) (n q : Nat) (f : Ring → Ring) : ((d.updRing n q f).core n).port = (d.core n).port := by
  rw [Dev.updRing, Dev.core_updCore, if_pos rfl]

section
variable {s : State} {c : CoreId} {cmd : FabCmd}

/-! ### TAKE (R308) -/

theorem fabTake_gives (h : PortTakes s c cmd 0) (hlen : cmd.lenm1 = 0) (ha : cmd.addr.toNat < 16) :
    fabTake c cmd s.dev =
      if !(s.dev.ringCfg c.toNat cmd.addr.toNat).port then s.dev.fabAnswer c.toNat 0x4 cmd .badDescriptor 0 0
      else match (s.dev.ring c.toNat cmd.addr.toNat).queue with
        | [] => s.dev.fabAnswer c.toNat 0x4 cmd .empty 0 0
        | h :: rest =>
          if h.takeable cmd then
            (s.dev.updRing c.toNat cmd.addr.toNat fun g =>
              { queue := rest, held := g.held ++ [{ handle := h, holder := .port cmd.rvalid cmd.round false false }] }).fabAnswer c.toNat 0x4 cmd .done
                (BitVec.ofNat 3 h.buf) (BitVec.ofNat 52 (s.dev.bufAddr c.toNat cmd.addr.toNat h.buf))
          else s.dev.fabAnswer c.toNat 0x4 cmd .empty 0 0 := by
  unfold fabTake
  exact fabFront_takes h (by simp [hlen, ha]) _

theorem fabTake_none (h : PortTakes s c cmd 0) (hlen : cmd.lenm1 = 0) (ha : cmd.addr.toNat < 16)
    (hport : (s.dev.ringCfg c.toNat cmd.addr.toNat).port = true) (hqueue : (s.dev.ring c.toNat cmd.addr.toNat).queue = []) :
    fabTake c cmd s.dev = s.dev.fabAnswer c.toNat 4 cmd .empty 0 0 := by
  rw [fabTake_gives h hlen ha, hport, hqueue]
  rfl

theorem fabTake_head {hd : Handle} {rest : List Handle} (h : PortTakes s c cmd 0) (hlen : cmd.lenm1 = 0) (ha : cmd.addr.toNat < 16)
    (hport : (s.dev.ringCfg c.toNat cmd.addr.toNat).port = true) (hqueue : (s.dev.ring c.toNat cmd.addr.toNat).queue = hd :: rest) :
    fabTake c cmd s.dev =
      if hd.committed then
        (s.dev.updRing c.toNat cmd.addr.toNat fun g =>
          { queue := rest, held := g.held ++ [{ handle := hd, holder := .port false cmd.round false false }] }).fabAnswer c.toNat 4 cmd .done
            (BitVec.ofNat 3 hd.buf) (BitVec.ofNat 52 (s.dev.bufAddr c.toNat cmd.addr.toNat hd.buf))
      else s.dev.fabAnswer c.toNat 4 cmd .empty 0 0 := by
  obtain ⟨_, _, hround⟩ := id h
  rw [fabTake_gives h hlen ha, hport, hqueue]
  simp only [Handle.takeable, hround, Bool.false_and, Bool.or_false, Bool.not_true, Bool.false_eq_true, if_false]

/-! ### RELEASE -/

theorem fabRelease_gives (h : PortTakes s c cmd 0) (hlen : cmd.lenm1 = 0) (ha : cmd.addr.toNat < 128) :
    fabRelease c cmd s.dev =
      let q := cmd.addr.toNat % 16
      let b := cmd.addr.toNat / 16
      if (s.dev.ring c.toNat q).held.any fun e => e.ofPort b then
        (s.dev.updRing c.toNat q fun g => { g with held := g.held.filterMap fun e => if e.ofPort b then e.release else some e }).fabAnswer c.toNat 0x5 cmd
          .done 0 0
      else s.dev.fabAnswer c.toNat 0x5 cmd .badDescriptor 0 0 := by
  have hring : bits cmd.addr.toNat 3 0 = cmd.addr.toNat % 16 := bits_low ..
  have hbuf : bits cmd.addr.toNat 6 4 = cmd.addr.toNat / 16 := Nat.mod_eq_of_lt (by omega)
  unfold fabRelease
  dsimp only
  rw [fabFront_takes h (by simp [hlen, ha]), hring, hbuf]

theorem fabRelease_held {e : Held} (h : PortTakes s c cmd 0) (hlen : cmd.lenm1 = 0) (ha : cmd.addr.toNat < 128)
    (he : e ∈ (s.dev.ring c.toNat (cmd.addr.toNat % 16)).held) (hmine : e.ofPort (cmd.addr.toNat / 16) = true) :
    let t := fabRelease c cmd s.dev
    (t.core c.toNat).port.responses = portAnswered s.dev c 5 cmd .done 0 0 [] ∧
      (∀ g ∈ (t.ring c.toNat (cmd.addr.toNat % 16)).held, g.ofPort (cmd.addr.toNat / 16) = false) ∧
      (t.ring c.toNat (cmd.addr.toNat % 16)).queue = (s.dev.ring c.toNat (cmd.addr.toNat % 16)).queue := by
  intro t
  have ht : t = _ := (fabRelease_gives h hlen ha).trans (if_pos (List.any_eq_true.mpr ⟨e, he, hmine⟩))
  rw [ht]
  unfold Dev.fabAnswer
  rw [port_updFab, port_updRing, ring_updFab, ring_updRing]
  exact ⟨rfl, fun g hg => ofPort_released hg, rfl⟩

/-! ### FLAGADD (R302, R250, R251) -/

theorem fabFlagadd_gives (h : PortTakes s c cmd 1) (hlen : cmd.lenm1 = 0) (ha : cmd.addr.toNat < 2 ^ 24) :
    fabFlagadd c cmd s.dev =
      let d := s.dev
      let node : NodeId := BitVec.ofNat 12 (cmd.addr.toNat / 2 ^ 12)
      let f := cmd.addr.toNat % 2 ^ 12
      if d.isHere node then (flagAdd f (BitVec.ofNat 32 (field cmd.beats 0 4)) d).fabAnswer c.toNat 0x6 cmd .done 0 0
      else if (topoOf (d.obj 0x4111 1)).pos? (cmd.addr.toNat / 2 ^ 12) = none then d.fabAnswer c.toNat 0x6 cmd .address 0 0
      else if d.nodeLost node then d.fabAnswer c.toNat 0x6 cmd .peerLost 0 0
      else (d.fabHold c.toNat 0x6 cmd).saeriRequest node 0x05 f 4 (slice cmd.beats 0 4) (.flagAdd (some (c, cmd))) := by
  have hnode : bits cmd.addr.toNat 23 12 = cmd.addr.toNat / 2 ^ 12 := Nat.mod_eq_of_lt (by omega)
  have hflag : bits cmd.addr.toNat 11 0 = cmd.addr.toNat % 2 ^ 12 := bits_low ..
  have hpos : (BitVec.ofNat 12 (cmd.addr.toNat / 2 ^ 12)).toNat = cmd.addr.toNat / 2 ^ 12 := by
    rw [BitVec.toNat_ofNat, Nat.mod_eq_of_lt (by omega)]
  unfold fabFlagadd
  dsimp only
  rw [fabFront_takes h (by rw [hlen]; exact decide_eq_true ha), hnode, hflag, hpos]

end

/-! ### Delivered accesses (R303, R311, R312) -/

section
variable {d : Dev} {n : Nat} {cw w : BitVec 128} {p : Part} {rest : List (BitVec 128 × Part)}
  (hdelivered : (d.core n).port.delivered = (cw, p) :: rest)
include hdelivered

theorem delivered_erase_head : (d.updFab n fun f => { f with delivered := f.delivered.erase (cw, p) }) = d.updFab n fun f => { f with delivered := rest } := by
  refine Dev.updCore_congr ?_
  dsimp only
  rw [hdelivered, List.erase_cons_head]

theorem fabricResponse_head (htag : commandTag cw = responseTag w) (beats : List Byte) :
    fabricResponse n w beats d =
      let ok := BitVec.extractLsb' 110 8 w = 0
      if ok ∧ beats.length ≠ (if p.data = none then 64 * ((p.len + 63) / 64) else 0) then d
      else
        let left := d.updFab n fun f => { f with delivered := rest }
        if ok then left.partDone p .done (slice beats 0 p.len) else left.partDone p .address (deadBytes p.addr p.len) := by
  have hfind : ((d.core n).port.delivered.find? fun e => commandTag e.1 = responseTag w) = some (cw, p) := by
    rw [hdelivered]
    exact List.find?_cons_of_pos (decide_eq_true htag)
  unfold fabricResponse
  rw [hfind]
  dsimp only
  rw [delivered_erase_head hdelivered]
  simp only [Option.isNone_iff_eq_none]
  rfl

theorem fabricTimeout_head (cycles : Nat) :
    fabricTimeout n (commandTag cw).2 cycles d =
      if d.objNat 0x4130 2 ≤ cycles then
        ((d.bump 0x3130 3 1).updFab n fun f => { f with delivered := rest }).partDone p .address (deadBytes p.addr p.len)
      else d := by
  have hfind : ((d.core n).port.delivered.find? fun e => (commandTag e.1).2 = (commandTag cw).2) = some (cw, p) := by
    rw [hdelivered]
    exact List.find?_cons_of_pos (decide_eq_true rfl)
  unfold fabricTimeout
  rw [hfind]
  dsimp only
  rw [delivered_erase_head (d := d.bump 0x3130 3 1) hdelivered]

end

theorem fabricResponse_unmatched {d : Dev} {n : Nat} {w : BitVec 128} (h : ∀ e ∈ (d.core n).port.delivered, commandTag e.1 ≠ responseTag w)
    (beats : List Byte) : fabricResponse n w beats d = d := by
  have hfind : ((d.core n).port.delivered.find? fun e => commandTag e.1 = responseTag w) = none := by
    rw [List.find?_eq_none]
    intro e he
    simpa using h e he
  unfold fabricResponse
  rw [hfind]

/-! ### The commands of a port -/

theorem readCommands (s : State) (c : CoreId) (op : BitVec 4) (cmd : FabCmd) (r : Round) :
    (PortAccepts s c cmd 0 → (op = 0 ∨ 6 < op.toNat) →
      Gives (.read c (fabCommand op cmd)) s (s.dev.fabAnswer c.toNat op cmd .badDescriptor 0 0)) ∧
    (PortAccepts s c cmd 0 → cmd.rsvd ≠ 0 → Gives (.read c (fabCommand 1 cmd)) s (s.dev.fabAnswer c.toNat 1 cmd .badDescriptor 0 0)) ∧
    (PortAccepts s c cmd 0 → cmd.rsvd = 0 → cmd.rvalid = true →
      (s.dev.round? cmd.round = none → Gives (.read c (fabCommand 1 cmd)) s (s.dev.fabAnswer c.toNat 1 cmd .badDescriptor 0 0)) ∧
      (∀ e, s.dev.round? cmd.round = some r → (r.phase ≠ .running ∨ cmd.attempt.toNat ≠ min r.attempt 7) →
        r.endings.find? (fun e => cmd.attempt.toNat = min e.1 7) = some e →
        Gives (.read c (fabCommand 1 cmd)) s (s.dev.fabAnswer c.toNat 1 cmd e.2 0 0))) ∧
    ((op ≠ 1 ∧ op ≠ 0 ∧ op.toNat ≤ 6) → Ignored (.read c (fabCommand op cmd)) s) := by
  refine ⟨fun h hop => ?_, fun h hrsvd => ?_, fun h hrsvd hround => ⟨fun hnone => ?_, fun e hsome hended hfind => ?_⟩, fun ⟨hone, hzero, hle⟩ => ?_⟩
  · have hreserved : fabReserved op = true := by simpa [fabReserved] using hop
    have hother : op ≠ 1 := by
      rintro rfl
      exact absurd hreserved (by decide)
    exact onClock_gives_of_eq h.1 (fabWord_reserved h hreserved hother _)
  · exact onClock_gives_of_eq h.1 ((fabWord_own ..).trans (fabFront_malformed h (.inr hrsvd) _))
  · exact onClock_gives_of_eq h.1 ((fabWord_own ..).trans (fabFront_stale h rfl hrsvd (staleCmd_unopened hround hnone) _))
  · exact onClock_gives_of_eq h.1 ((fabWord_own ..).trans (fabFront_stale h rfl hrsvd (staleCmd_ended hround hsome hended hfind) _))
  · have hknown : fabReserved op = false := by
      simp only [fabReserved, Bool.or_eq_false_iff, beq_eq_false_iff_ne, decide_eq_false_iff_not, not_lt]
      exact ⟨hzero, hle⟩
    exact onClock_ignored (f := fun d => d.fabWord c.toNat 0x1 (fabCommand op cmd) (fabRead s.fuses c)) (fabWord_other hknown hone _)

/-- Settles O49: a command word is decoded to its fields and met by what every command meets first; then each operation does what its equation says. -/
theorem fabricPortCommands : Obligations.FabricPortCommands := by
  unfold Obligations.FabricPortCommands
  refine ⟨fabDecode_commandWord, readCommands, ?_, ?_, ?_, ?_⟩
  · intro s c cmd d n a len x slot ready hfresh
    refine ⟨fun h hpage hready => ?_, fun h hpage hready => ?_, fun h hpage => ?_, fun h hpage => ?_, fun h hlen ha => ⟨fun hclosed => ?_,
      fun hmark hen hfull => ?_, fun hmark hroom hready => ?_⟩, fun hclk hwait => ?_, fun rest hclk hinjects hmark hroom hout hbeats hready => ?_,
      fun rest hclk hinjects hclosed => ⟨fun hout => ?_, fun hout => ?_⟩⟩
    · exact ⟨_, onClock_gives h.1.1, by
        rw [fabWord_own, fabRead, fabFront_takes h rfl]
        exact fabAccess_read h hpage hready hfresh⟩
    · exact ⟨_, onClock_gives h.1.1, by
        rw [fabWord_own, fabWrite, show ceilDiv (fabBytes cmd) 64 = (len + 63) / 64 from rfl, fabFront_takes h rfl]
        exact fabAccess_write hpage hready hfresh⟩
    · exact onClock_gives_of_eq h.1.1 ((fabWord_own ..).trans ((fabFront_takes h rfl _).trans (fabAccess_crossing hpage)))
    · exact onClock_gives_of_eq h.1.1 ((fabWord_own ..).trans ((fabFront_takes h rfl _).trans (fabAccess_crossing hpage)))
    · have hnot : d.injectOpen a = false := Bool.and_eq_false_iff.mpr hclosed
      exact onClock_gives_of_eq h.1.1 ((fabWord_own ..).trans ((fabInject_gives h hlen ha).trans (if_pos (congrArg Bool.not hnot))))
    · have hopen : (!d.injectOpen a) = false := congrArg Bool.not ((Bool.and_eq_true _ _).mpr ⟨hmark, hen⟩)
      exact onClock_gives_of_eq h.1.1 ((fabWord_own ..).trans ((fabInject_gives h hlen ha).trans
        ((if_neg (ne_true_of_eq_false hopen)).trans ((injectGo_waits (d := d.fabHold n 3 cmd) hfull).trans (updFab_updFab ..)))))
    · obtain ⟨hen, hfull, hinjecting, hlate⟩ := hroom
      exact ⟨_, onClock_gives h.1.1, by
        rw [fabWord_own]
        exact fabInject_ready h hlen ha ((Bool.and_eq_true _ _).mpr ⟨hmark, hen⟩) hfull hinjecting hlate hready hfresh⟩
    · exact onClock_ignored (f := injectResume s.fuses c) (injectResume_none hwait)
    · obtain ⟨hen, hfull, hinjecting, hlate⟩ := hroom
      exact ⟨_, onClock_gives hclk,
        injectResume_ready hinjects ((Bool.and_eq_true _ _).mpr ⟨hmark, hen⟩) hfull hinjecting hlate hout hbeats hready hfresh⟩
    · have hhead := injectResume_head (fz := s.fuses) hinjects fun hopen => absurd hopen (ne_true_of_eq_false hclosed)
      exact onClock_gives_of_eq hclk (hhead.trans ((if_neg (ne_true_of_eq_false hclosed)).trans (if_pos (List.contains_iff_mem.mpr hout))))
    · have hhead := injectResume_head (fz := s.fuses) hinjects fun hopen => absurd hopen (ne_true_of_eq_false hclosed)
      exact onClock_gives_of_eq hclk (hhead.trans ((if_neg (ne_true_of_eq_false hclosed)).trans (if_neg fun h => hout (List.contains_iff_mem.mp h))))
  · intro s c cmd d n a
    refine ⟨fun h hlen ha => ⟨fun hport => ?_, fun hport hqueue => ?_, fun hd rest hport hqueue => ⟨fun hcom => ?_, fun hcom => ?_⟩⟩,
      fun h hlen ha => ⟨fun hnone => ?_, fun e he hmine => ?_⟩, fun h hlen ha => ?_⟩
    · exact onClock_gives_of_eq h.1.1 ((fabWord_own ..).trans ((fabTake_gives h hlen ha).trans (if_pos (congrArg Bool.not hport))))
    · exact onClock_gives_of_eq h.1.1 ((fabWord_own ..).trans (fabTake_none h hlen ha hport hqueue))
    · exact onClock_gives_of_eq h.1.1 ((fabWord_own ..).trans ((fabTake_head h hlen ha hport hqueue).trans (if_neg (by simp [hcom]))))
    · exact onClock_gives_of_eq h.1.1 ((fabWord_own ..).trans ((fabTake_head h hlen ha hport hqueue).trans (if_pos hcom)))
    · have hany : ((d.ring n (a % 16)).held.any fun e => e.ofPort (a / 16)) = false := List.any_eq_false.mpr fun e he => ne_true_of_eq_false (hnone e he)
      exact onClock_gives_of_eq h.1.1 ((fabWord_own ..).trans ((fabRelease_gives h hlen ha).trans (if_neg (ne_true_of_eq_false hany))))
    · exact ⟨_, onClock_gives h.1.1, by
        rw [fabWord_own]
        exact fabRelease_held h hlen ha he hmine⟩
    · intro node
      have hgives {t : Dev} (ht : _ = t) : Gives (.flagadd c (fabCommand 6 cmd)) s t :=
        onClock_gives_of_eq h.1.1 ((fabWord_own ..).trans ((fabFlagadd_gives h hlen ha).trans ht))
      refine ⟨fun hhere => hgives (if_pos hhere), fun hhere hpos => hgives ?_, fun hhere hpos => ⟨fun hlost => hgives ?_, fun hlost => hgives ?_⟩⟩
      · exact (if_neg (ne_true_of_eq_false hhere)).trans (if_pos hpos)
      · exact (if_neg (ne_true_of_eq_false hhere)).trans ((if_neg hpos).trans (if_pos hlost))
      · exact (if_neg (ne_true_of_eq_false hhere)).trans ((if_neg hpos).trans (if_neg (ne_true_of_eq_false hlost)))
  · intro s c hi lo cw p rest b cycles hclk hdelivered d n d1 w answers status tag whole
    have htag (h : answers) : commandTag cw = responseTag w := (commandTag_eq_responseTag cw w).mpr h
    have hstatus : BitVec.extractLsb' 110 8 w = 0 ↔ status = 0 := statusField_eq_zero w
    have hhead (h : answers) := fabricResponse_head hdelivered (htag h) b
    have htimeout : fabricTimeout n tag cycles d = _ := commandTag_snd cw ▸ fabricTimeout_head hdelivered cycles
    refine ⟨fun h hok hwhole => ?_, fun h hok hpart => ?_, fun h hbad => ?_, fun hearly => ?_, fun hlate => ?_⟩
    · exact onClock_gives_of_eq hclk ((hhead h).trans ((if_neg fun k => k.2 hwhole).trans (if_pos (hstatus.mpr hok))))
    · exact onClock_ignored (f := fabricResponse n w b) ((hhead h).trans (if_pos ⟨hstatus.mpr hok, hpart⟩))
    · have hnot : ¬BitVec.extractLsb' 110 8 w = 0 := fun k => hbad (hstatus.mp k)
      exact onClock_gives_of_eq hclk ((hhead h).trans ((if_neg fun k => hnot k.1).trans (if_neg hnot)))
    · exact onClock_ignored (f := fabricTimeout n tag cycles) (htimeout.trans (if_neg (Nat.not_le.mpr hearly)))
    · exact onClock_gives_of_eq hclk (htimeout.trans (if_pos hlate))
  · exact fun s c hi lo b h => onClock_ignored (f := fabricResponse c.toNat (hi ++ lo) b) (fabricResponse_unmatched h b)

end Sys2Proof.Machine
end

section
/-! The fabric sends by its own state alone (R248, R249, R286). -/

namespace Sys2Proof.Machine

/-- Two devices with the same objects, fabric state and ports. -/
structure SameFabric (d e : Dev) : Prop where
  objs : e.objs = d.objs
  saeri : e.saeri = d.saeri
  ports : e.ports = d.ports

namespace SameFabric

variable {d e : Dev} (h : SameFabric d e)
include h

theorem port (p : Nat) : e.port p = d.port p := by rw [Dev.port, h.ports, Dev.port]
theorem obj (i s : Nat) : e.obj i s = d.obj i s := by simp only [Dev.obj, h.objs]
theorem objNat (i s : Nat) : e.objNat i s = d.objNat i s := by simp only [Dev.objNat, h.obj]
theorem nodeId : e.nodeId = d.nodeId := by simp only [Dev.nodeId, h.objNat]
theorem topo : e.topo = d.topo := by simp only [Dev.topo, h.saeri]

theorem routeTo (n : NodeId) : e.routeTo n = d.routeTo n := by
  unfold Dev.routeTo
  rw [h.topo, h.nodeId, h.saeri]

theorem portsTo (pos : Nat) : e.portsTo pos = d.portsTo pos := by simp only [Dev.portsTo, h.saeri, h.port]

theorem portFor (a b : NodeId) : e.portFor a b = d.portFor a b := by
  unfold Dev.portFor
  rw [h.routeTo]
  split
  · rw [h.portsTo]
  · rfl

theorem directPort (k : SaeriPkt) : e.directPort k = d.directPort k := by simp only [Dev.directPort, h.port]

theorem portReads (p : Nat) : e.portReads p = d.portReads p := by rw [Dev.portReads, Dev.portReads, h.saeri]

theorem mayPlace (p : Nat) (taken : List SaeriPkt) (k : SaeriPkt) : e.mayPlace p taken k = d.mayPlace p taken k := by
  unfold Dev.mayPlace
  rw [h.port, h.nodeId, h.portReads]

theorem updPort (p : Nat) (f : Port → Port) : SameFabric (d.updPort p f) (e.updPort p f) :=
  ⟨h.objs, h.saeri, by rw [Dev.updPort, Dev.updPort, h.port, h.ports]⟩

theorem withSaeri (x : Saeri) : SameFabric { d with saeri := x } { e with saeri := x } := ⟨h.objs, rfl, h.ports⟩

theorem leaveTransit (k : SaeriPkt) : SameFabric (d.leaveTransit k) (e.leaveTransit k) := by
  unfold Dev.leaveTransit
  rw [h.saeri]
  split
  · exact h
  · exact (h.withSaeri _).updPort ..

theorem takePacket (p : Nat) (k : SaeriPkt) : SameFabric (d.takePacket p k) (e.takePacket p k) := by
  have left := (h.updPort p fun q => q.useCredit (saeriClass k.op)).leaveTransit k
  unfold Dev.takePacket
  dsimp only
  rw [left.saeri, h.nodeId]
  exact left.withSaeri _

end SameFabric

/-- Two passes over the waiting packets that have done the same. -/
structure SamePass (a b : PumpAcc) : Prop where
  dev : SameFabric a.dev b.dev
  taken : b.taken = a.taken
  waits : b.waits = a.waits
  blocked : b.blocked = a.blocked

theorem SamePass.next {a b : PumpAcc} (h : SamePass a b) (e : Nat × SaeriPkt) : SamePass (a.next e) (b.next e) := by
  unfold PumpAcc.next
  dsimp only
  rw [h.taken, h.blocked, h.waits, h.dev.mayPlace]
  split
  · exact ⟨h.dev, rfl, rfl, rfl⟩
  · exact ⟨h.dev.takePacket .., rfl, rfl, rfl⟩

theorem SamePass.foldl {a b : PumpAcc} (h : SamePass a b) (l : List (Nat × SaeriPkt)) : SamePass (l.foldl PumpAcc.next a) (l.foldl PumpAcc.next b) := by
  induction l generalizing a b with
  | nil => exact h
  | cons e l ih => exact ih (h.next e)

namespace SameFabric

theorem sendTaken {d e : Dev} (h : SameFabric d e) (l : Table (List SaeriPkt)) :
    SameFabric (l.foldl (fun d e => d.updPort e.1 fun q => q.sendPackets d.nodeId e.2) d)
      (l.foldl (fun d e => d.updPort e.1 fun q => q.sendPackets d.nodeId e.2) e) := by
  induction l generalizing d e with
  | nil => exact h
  | cons a l ih =>
    refine ih ?_
    dsimp only
    rw [h.nodeId]
    exact h.updPort ..

variable {d e : Dev} (h : SameFabric d e)
include h

theorem pump : SameFabric d.pump e.pump := by
  have hpass := SamePass.foldl (a := { dev := d, taken := [], waits := [], blocked := [] }) (b := { dev := e, taken := [], waits := [], blocked := [] })
    ⟨h, rfl, rfl, rfl⟩
  unfold Dev.pump
  dsimp only
  rw [h.saeri]
  refine (hpass _).taken ▸ sendTaken ?_ _
  rw [(hpass _).dev.saeri, (hpass _).waits]
  exact (hpass _).dev.withSaeri _

theorem sendSaeri (k : SaeriPkt) : SameFabric (d.sendSaeri k) (e.sendSaeri k) := by
  unfold Dev.sendSaeri
  dsimp only
  rw [h.saeri, h.nodeId, h.portFor, h.directPort]
  split
  · exact h.withSaeri _
  · split
    · rw [h.port]
      split
      · exact h.withSaeri _
      · exact (h.withSaeri _).pump
    · exact h.withSaeri _

theorem saeriAnswer (k : SaeriPkt) (st : Status) (b : List Byte) : SameFabric (d.saeriAnswer k st b) (e.saeriAnswer k st b) := by
  unfold Dev.saeriAnswer
  rw [h.nodeId]
  exact h.sendSaeri _

end SameFabric

theorem Touched.sameFabric {d e : Dev} (h : Touched d e) : SameFabric d e := ⟨h.objs, h.saeri, h.ports⟩

/-! ### What sending changes -/

/-- `e` is `d` after traffic of its ports: packets wait, are held or are gone, requests are on their way. -/
def TrafficOnly (d e : Dev) : Prop :=
  e = { d with
    saeri := { d.saeri with
      outstanding := e.saeri.outstanding
      queue := e.saeri.queue
      heldOut := e.saeri.heldOut
      transit := e.saeri.transit }
    ports := e.ports }

namespace TrafficOnly

theorem refl (d : Dev) : TrafficOnly d d := rfl

theorem trans {d e f : Dev} (h : TrafficOnly d e) (k : TrafficOnly e f) : TrafficOnly d f := by
  unfold TrafficOnly at h k ⊢
  rw [h] at k
  exact k

theorem foldl {α : Type} {g : Dev → α → Dev} (kept : ∀ e a, TrafficOnly e (g e a)) (l : List α) (d : Dev) : TrafficOnly d (l.foldl g d) := by
  induction l generalizing d with
  | nil => exact .refl d
  | cons a l ih => exact (kept d a).trans (ih _)

end TrafficOnly

theorem trafficOnly_pump (d : Dev) : TrafficOnly d d.pump := by
  have leave (e : Dev) (k : SaeriPkt) : TrafficOnly e (e.leaveTransit k) := by
    unfold Dev.leaveTransit
    split <;> rfl
  have take (e : Dev) (p : Nat) (k : SaeriPkt) : TrafficOnly e (e.takePacket p k) :=
    TrafficOnly.trans (e := (e.updPort p fun q => q.useCredit (saeriClass k.op)).leaveTransit k)
      (TrafficOnly.trans (e := e.updPort p fun q => q.useCredit (saeriClass k.op)) rfl (leave ..)) rfl
  have next (a : PumpAcc) (e : Nat × SaeriPkt) : TrafficOnly a.dev (a.next e).dev := by
    unfold PumpAcc.next
    extract_lets
    split
    · exact .refl _
    · exact take ..
  have pass (l : List (Nat × SaeriPkt)) (a : PumpAcc) : TrafficOnly a.dev (l.foldl PumpAcc.next a).dev := by
    induction l generalizing a with
    | nil => exact .refl _
    | cons e l ih => exact (next a e).trans (ih _)
  have sent (e : Dev) (b : Nat × List SaeriPkt) : TrafficOnly e (e.updPort b.1 fun q => q.sendPackets e.nodeId b.2) := rfl
  unfold Dev.pump
  extract_lets of a d1
  exact ((pass _ { dev := d, taken := [], waits := [], blocked := [] }).trans (f := d1) rfl).trans (TrafficOnly.foldl sent ..)

theorem trafficOnly_sendSaeri (d : Dev) (k : SaeriPkt) : TrafficOnly d (d.sendSaeri k) := by
  have queued (l : List (Nat × SaeriPkt)) : TrafficOnly d { d with saeri := { d.saeri with queue := l } } := rfl
  unfold Dev.sendSaeri
  extract_lets held
  split
  · rfl
  · split
    · split
      · rfl
      · exact (queued _).trans (trafficOnly_pump _)
    · rfl

theorem trafficOnly_sendHeld (d : Dev) : TrafficOnly d d.sendHeld :=
  TrafficOnly.trans (e := { d with saeri := { d.saeri with heldOut := [] } }) rfl (TrafficOnly.foldl trafficOnly_sendSaeri ..)

end Sys2Proof.Machine
end

section
/-! What arrives from Saeri peers, and the switch to new routes (R133, R249 to R256, R285, R362). -/

namespace Sys2Proof.Machine

/-! ### Arrival -/

/-- `e` is `d` without a packet of its inbox, whose slot is free again. -/
structure TakenFrom (d e : Dev) : Prop where
  shape : e = { d with saeri := { d.saeri with inbox := e.saeri.inbox }, ports := e.ports }
  step : ∀ p, (e.port p).step = (d.port p).step
  peer : ∀ p, (e.port p).peerNode = (d.port p).peerNode

theorem port_freeSlot (d : Dev) (p c j : Nat) :
    (d.freeSlot p c).port j =
      if j = p then
        if tabGet 0 (d.port p).inUse c = 0 then d.port p
        else { d.port p with
          inUse := tabSet (d.port p).inUse c (tabGet 0 (d.port p).inUse c - 1)
          owed := tabSet (d.port p).owed c (tabGet 0 (d.port p).owed c + 1) }
      else d.port j := Dev.port_updPort ..

theorem takenFrom_saeriTake (d : Dev) (k : SaeriPkt) : TakenFrom d (d.saeriTake k) := by
  unfold Dev.saeriTake
  split
  · exact ⟨rfl, fun _ => rfl, fun _ => rfl⟩
  · refine ⟨rfl, fun p => ?_, fun p => ?_⟩
    all_goals
      rw [port_freeSlot]
      split
      next hp =>
        rw [hp]
        split <;> rfl
      next => rfl

namespace TakenFrom

variable {d e : Dev} (h : TakenFrom d e)
include h

theorem served (n : NodeId) : e.served (.saeri n) = d.served (.saeri n) := by
  simp only [Dev.served, h.step, h.peer]
  rw [h.shape]
  rfl

theorem mayPeer (k : SaeriPkt) (right : TEntry → Bool) : e.mayPeer k right = d.mayPeer k right := by
  rw [h.shape]
  rfl

theorem mem : e.mem = d.mem := by rw [h.shape]
theorem accesses : e.accesses = d.accesses := by rw [h.shape]
theorem cores : e.cores = d.cores := by rw [h.shape]
theorem outstanding : e.saeri.outstanding = d.saeri.outstanding := by rw [h.shape]

end TakenFrom

/-- A packet that can arrive acts on the device that has taken it. -/
theorem saeriArrive_of_reaches {s : State} {k : SaeriPkt} {op : BitVec 6} (h : SaeriReaches s k op) (f : Dev → Dev) :
    s.dev.saeriArrive k op f = f (s.dev.saeriTake k) := by
  obtain ⟨_, hop, hnode, hbefore⟩ := h
  have hany : (s.dev.saeriBefore k).any (fun e => saeriFollows k e) = false := List.any_eq_false.mpr fun e he => ne_true_of_eq_false (hbefore e he)
  refine if_neg ?_
  rintro (hother | hother | hfollows)
  · exact hother hop
  · exact hother hnode
  · exact ne_true_of_eq_false hany hfollows

theorem saeriArrive_elsewhere {d : Dev} {k : SaeriPkt} (h : k.dnode ≠ d.nodeId) (op : BitVec 6) (f : Dev → Dev) : d.saeriArrive k op f = d :=
  if_pos (.inr (.inl h))

theorem saeriArrive_follows {d : Dev} {k : SaeriPkt} (h : ∃ e ∈ d.saeriBefore k, saeriFollows k e = true) (op : BitVec 6) (f : Dev → Dev) :
    d.saeriArrive k op f = d :=
  if_pos (.inr (.inr (List.any_eq_true.mpr h)))

/-- A packet at the head of the inbox leaves it, and its slot. -/
theorem saeriTake_head {d : Dev} {k : SaeriPkt} {p : Nat} {rest : List (Nat × SaeriPkt)} (h : d.saeri.inbox = (p, k) :: rest) :
    (d.saeriTake k).saeri.inbox = rest ∧ (d.saeriTake k).mem = d.mem ∧
      tabGet 0 ((d.saeriTake k).port p).inUse (saeriClass k.op) = tabGet 0 (d.port p).inUse (saeriClass k.op) - 1 := by
  have hfind : (d.saeri.inbox.find? fun e => e.2 = k) = some (p, k) := by
    rw [h]
    exact List.find?_cons_of_pos (decide_eq_true rfl)
  unfold Dev.saeriTake
  rw [hfind]
  dsimp only
  refine ⟨?_, rfl, ?_⟩
  · show d.saeri.inbox.erase (p, k) = rest
    rw [h, List.erase_cons_head]
  · rw [port_freeSlot, if_pos rfl]
    show tabGet 0 (if tabGet 0 (d.port p).inUse (saeriClass k.op) = 0 then d.port p else _).inUse _ = _
    split
    next hzero => rw [hzero]
    next => exact (tabGet_tabSet ..).trans (if_pos rfl)

/-! ### Requests -/

/-- What a served request of a peer leaves, and that its answer goes out as from the device that has taken it. -/
theorem answered_of_touched {d e : Dev} {k : SaeriPkt} (h : Touched (d.saeriTake k) e) (st : Status) (b : List Byte) :
    let t := e.saeriAnswer k st b
    let ans := (d.saeriTake k).saeriAnswer k st b
    t.mem = e.mem ∧ t.accesses = d.accesses ∧ t.cores = d.cores ∧ t.saeri = ans.saeri ∧ t.ports = ans.ports := by
  have hanswer := h.sameFabric.saeriAnswer k st b
  have honly : FabricOnly e (e.saeriAnswer k st b) := fabricOnly_sendSaeri ..
  have htaken := takenFrom_saeriTake d k
  intro t ans
  refine ⟨?_, ?_, ?_, hanswer.saeri, hanswer.ports⟩
  · exact (congrArg Dev.mem honly).trans rfl
  · exact (congrArg Dev.accesses honly).trans (h.accesses.trans htaken.accesses)
  · exact (congrArg Dev.cores honly).trans (h.cores.trans htaken.cores)

section
variable {s : State} {k : SaeriPkt}

/-- A read that an export lets in, of memory that is ready (R250). -/
theorem saeriRead_of_ready (h : SaeriReaches s k 0x01) (hmay : s.dev.mayPeer k TEntry.rd = true)
    (hready : MemoryReady s.dev k.addr.toNat (k.lenm1.toNat + 1)) (hfresh : FreshIds s.dev) :
    let t := saeriRead s.fuses k s.dev
    let ans := (s.dev.saeriTake k).saeriAnswer k .done (memRead s.dev.mem k.addr.toNat (k.lenm1.toNat + 1))
    t.mem = s.dev.mem ∧ t.accesses = s.dev.accesses ∧ t.cores = s.dev.cores ∧ t.saeri = ans.saeri ∧ t.ports = ans.ports := by
  have htaken := takenFrom_saeriTake s.dev k
  have hkept : (s.dev.saeriTake k).mem = s.dev.mem := htaken.mem
  obtain ⟨e, hon, hmem, hissue⟩ := issueAs_read_gives (fz := s.fuses) (d := s.dev.saeriTake k) (out := false) (o := .saeri k)
    (by rw [htaken.shape]; exact hready) (by rw [htaken.shape]; exact hfresh)
  obtain ⟨hstored, hrest⟩ := answered_of_touched hon .done (memRead s.dev.mem k.addr.toNat (k.lenm1.toNat + 1))
  have hread : saeriRead s.fuses k s.dev = e.saeriAnswer k .done (memRead s.dev.mem k.addr.toNat (k.lenm1.toNat + 1)) := by
    refine (saeriArrive_of_reaches h _).trans ((if_pos (htaken.mayPeer k _ ▸ hmay)).trans (hissue.trans ?_))
    rw [hkept]
    rfl
  intro t ans
  rw [show t = _ from hread]
  exact ⟨hstored.trans (hmem.trans hkept), hrest⟩

/-- A write that an export lets in, of memory that is ready (R250). -/
theorem saeriWrite_of_ready (h : SaeriReaches s k 0x02) (hlen : k.lenm1.toNat + 1 ≤ k.data.length) (hmay : s.dev.mayPeer k TEntry.wr = true)
    (hready : MemoryWritable s.dev k.addr.toNat (k.lenm1.toNat + 1)) (hfresh : FreshIds s.dev) :
    let t := saeriWrite s.fuses k s.dev
    let ans := (s.dev.saeriTake k).saeriAnswer k .done []
    t.mem = memWrite s.dev.mem k.addr.toNat (slice k.data 0 (k.lenm1.toNat + 1)) ∧ t.accesses = s.dev.accesses ∧ t.cores = s.dev.cores ∧
      t.saeri = ans.saeri ∧ t.ports = ans.ports := by
  have htaken := takenFrom_saeriTake s.dev k
  have hkept : (s.dev.saeriTake k).mem = s.dev.mem := htaken.mem
  obtain ⟨e, hon, hmem, _, hissue⟩ := issueAs_write_gives (fz := s.fuses) (d := s.dev.saeriTake k) (out := false) (o := .saeri k)
    (slice_length k.data 0 (k.lenm1.toNat + 1)) (by rw [htaken.shape]; exact hready) (by rw [htaken.shape]; exact hfresh)
  obtain ⟨hstored, hrest⟩ := answered_of_touched hon .done []
  have hwrite : saeriWrite s.fuses k s.dev = e.saeriAnswer k .done [] :=
    (if_neg (Nat.not_lt.mpr hlen)).trans ((saeriArrive_of_reaches h _).trans ((if_pos (htaken.mayPeer k _ ▸ hmay)).trans hissue))
  intro t ans
  rw [show t = _ from hwrite]
  exact ⟨hstored.trans (hmem.trans (by rw [hkept])), hrest⟩

theorem saeriRead_unexported (h : SaeriReaches s k 0x01) (hmay : s.dev.mayPeer k TEntry.rd = false) :
    saeriRead s.fuses k s.dev = (s.dev.saeriTake k).saeriAnswer k .address (deadBytes k.addr.toNat (k.lenm1.toNat + 1)) :=
  (saeriArrive_of_reaches h _).trans (if_neg (ne_true_of_eq_false (((takenFrom_saeriTake ..).mayPeer ..).trans hmay)))

theorem saeriWrite_unexported (h : SaeriReaches s k 0x02) (hlen : k.lenm1.toNat + 1 ≤ k.data.length) (hmay : s.dev.mayPeer k TEntry.wr = false) :
    saeriWrite s.fuses k s.dev = (s.dev.saeriTake k).saeriAnswer k .address [] :=
  (if_neg (Nat.not_lt.mpr hlen)).trans
    ((saeriArrive_of_reaches h _).trans (if_neg (ne_true_of_eq_false (((takenFrom_saeriTake ..).mayPeer ..).trans hmay))))

/-- A write of a peer meets its order and its node as every packet does. -/
theorem saeriWrite_ignored (h : ∀ f, s.dev.saeriArrive k 0x02 f = s.dev) : saeriWrite s.fuses k s.dev = s.dev := by
  unfold saeriWrite
  split
  · rfl
  · exact h _

/-- A flag add from a node, by whether Topology lists it (R251). -/
theorem saeriFlagAdd_gives (h : SaeriReaches s k 0x05) :
    saeriFlagAdd k s.dev =
      if ((topoOf (s.dev.obj 0x4111 1)).pos? k.snode.toNat).isSome then
        ((s.dev.saeriTake k).setFlag (k.addr.toNat % 4096) (s.dev.flag (k.addr.toNat % 4096) + BitVec.ofNat 32 (field k.data 0 4))).saeriAnswer k .done []
      else (s.dev.saeriTake k).saeriAnswer k .address [] := by
  have hshape := (takenFrom_saeriTake s.dev k).shape
  have hobj : (s.dev.saeriTake k).obj 0x4111 1 = s.dev.obj 0x4111 1 := by rw [hshape]; rfl
  have hflag : (s.dev.saeriTake k).flag (k.addr.toNat % 4096) = s.dev.flag (k.addr.toNat % 4096) := by rw [hshape]; rfl
  unfold saeriFlagAdd
  rw [saeriArrive_of_reaches h, hobj, show bits k.addr.toNat 11 0 = k.addr.toNat % 4096 from bits_low .., flagAdd, hflag]

/-! ### Responses -/

theorem saeriResponse_unasked {op : BitVec 6} (h : SaeriReaches s k op) (hnone : ∀ q ∈ s.dev.saeri.outstanding, q.tag ≠ k.tag ∨ q.node ≠ k.snode) :
    saeriResponse k op s.dev =
      if Status.ofCode k.status.toNat = .linkLost then
        ([0x06, 0x07, 0x09].filter fun o => noticeTag o == k.tag).foldl (fun d o => d.lostNotice o k.addr.toNat) (s.dev.saeriTake k)
      else s.dev.saeriTake k := by
  have hreq : (s.dev.saeriTake k).reqOf k = none := by
    unfold Dev.reqOf
    rw [(takenFrom_saeriTake s.dev k).outstanding, List.find?_eq_none]
    intro q hq
    obtain htag | hnode := hnone q hq
    · simp [htag]
    · simp [hnode]
  unfold saeriResponse
  rw [saeriArrive_of_reaches h, hreq]

theorem saeriResponse_asked {op : BitVec 6} {q : SaeriReq} {rest : List SaeriReq} (h : SaeriReaches s k op)
    (hout : s.dev.saeri.outstanding = q :: rest) (htag : q.tag = k.tag) (hnode : q.node = k.snode) (hkind : q.isRead = (op == 0x03)) :
    saeriResponse k op s.dev = (s.dev.saeriTake k).saeriEnd q (Status.ofCode k.status.toNat) (slice k.data 0 q.len) := by
  have hreq : (s.dev.saeriTake k).reqOf k = some q := by
    unfold Dev.reqOf
    rw [(takenFrom_saeriTake s.dev k).outstanding, hout]
    exact List.find?_cons_of_pos (by simp [htag, hnode])
  unfold saeriResponse
  rw [saeriArrive_of_reaches h, hreq]
  exact if_pos hkind

/-! ### Management and notices -/

/-- A frame over Saeri, by whether its node is served (R362). -/
def managementOf (fz : Fuses) (k : SaeriPkt) (d : Dev) : Dev :=
  d.saeriArrive k 0x08 fun d =>
    if d.served (.saeri k.snode) then (frameIn fz d (.saeri k.snode) (bytesFrame (slice k.data 0 (saeriLen k)))).2 else d

theorem managementOf_gives (h : SaeriReaches s k 0x08) :
    managementOf s.fuses k s.dev =
      if s.dev.served (.saeri k.snode) then
        (frameIn s.fuses (s.dev.saeriTake k) (.saeri k.snode) (bytesFrame (slice k.data 0 (k.lenm1.toNat + 1)))).2
      else s.dev.saeriTake k := by
  unfold managementOf
  rw [saeriArrive_of_reaches h, (takenFrom_saeriTake s.dev k).served]
  rfl

/-- What a list holds once an entry is put in it, or taken out. -/
theorem mem_noticed {α : Type} [DecidableEq α] (l : List α) (e x : α) (set : Bool) :
    x ∈ (if set then l.filter (fun q => q ≠ e) ++ [e] else l.filter fun q => q ≠ e) ↔ if x = e then set = true else x ∈ l := by
  by_cases hx : x = e <;> cases set <;> simp [hx]

/-- A notice of a peer is held where it says so, and is held no more where it takes it back (R151). -/
theorem quiescenceNotice_gives (h : SaeriReaches s k 0x09) :
    let t := quiescenceNotice k s.dev
    t.mem = s.dev.mem ∧ t.flags = s.dev.flags ∧ t.rounds = s.dev.rounds ∧
      ∀ n m, (n, m) ∈ t.saeri.notices ↔
        (if n = BitVec.ofNat 32 k.addr.toNat ∧ m = k.snode then k.addr.toNat / 2 ^ 32 % 2 = 1 else (n, m) ∈ s.dev.saeri.notices) := by
  have hshape := (takenFrom_saeriTake s.dev k).shape
  have hround : (BitVec.ofNat 32 (bits k.addr.toNat 31 0) : RoundNo) = BitVec.ofNat 32 k.addr.toNat := by
    rw [bits_low, ← BitVec.toNat_inj, BitVec.toNat_ofNat, BitVec.toNat_ofNat, Nat.mod_mod]
  have hnotices : (s.dev.saeriTake k).saeri.notices = s.dev.saeri.notices := by rw [hshape]
  unfold quiescenceNotice
  rw [saeriArrive_of_reaches h, hround]
  refine ⟨by rw [hshape], by rw [hshape], by rw [hshape], fun n m => ?_⟩
  dsimp only
  rw [hnotices]
  refine (mem_noticed ..).trans ?_
  simp only [Prod.mk.injEq, bit, beq_iff_eq]

end

/-! ### The switch of routes (R256) -/

theorem routeSwitch_ignored {d : Dev} (h : d.saeri.switching = false ∨ ∃ q ∈ d.saeri.outstanding, d.unsent q = false) : routeSwitch d = d := by
  refine if_pos ?_
  obtain hidle | ⟨q, hq, hsent⟩ := h
  · exact .inl (congrArg Bool.not hidle)
  · exact .inr (List.any_eq_true.mpr ⟨q, hq, congrArg Bool.not hsent⟩)

/-- The device with its routes taken over from its tables. -/
def switched (d : Dev) : Dev :=
  let t := topoOf (d.obj 0x4111 1)
  { d with saeri := { d.saeri with
      switching := false
      routeTopo := d.obj 0x4111 1
      routeRole := d.obj 0x4111 2
      departed := d.saeri.departed.filter fun n => (t.pos? n.toNat).isNone || d.stillGone t (d.obj 0x4111 2) n
      nodeState := d.saeri.nodeState.filter fun e => (t.pos? e.1).isNone } }

theorem routeSwitch_gives {d : Dev} (hswitching : d.saeri.switching = true) (hunsent : ∀ q ∈ d.saeri.outstanding, d.unsent q = true) :
    routeSwitch d = (switched d).sendHeld := by
  refine if_neg ?_
  rintro (hidle | hsent)
  · rw [hswitching] at hidle
    cases hidle
  · obtain ⟨q, hq, hnot⟩ := List.any_eq_true.mp hsent
    rw [hunsent q hq] at hnot
    cases hnot

/-- Settles O57: each packet acts on the device that has taken it, and a switch takes the routes over before what was held is sent. -/
theorem saeriRequests : Obligations.SaeriRequests := by
  unfold Obligations.SaeriRequests
  intro s k d a len d1 hfresh
  refine ⟨fun h hmay hready => ⟨_, onClock_gives h.1, saeriRead_of_ready h hmay hready hfresh⟩,
    fun h hlen hmay hready => ⟨_, onClock_gives h.1, saeriWrite_of_ready h hlen hmay hready hfresh⟩,
    fun h hmay => onClock_gives_of_eq h.1 (saeriRead_unexported h hmay),
    fun h hlen hmay => onClock_gives_of_eq h.1 (saeriWrite_unexported h hlen hmay), fun h => ⟨fun hlisted => ?_, fun hunlisted => ?_⟩,
    fun h => ⟨fun hnone => ⟨fun hstatus => ?_, fun hstatus htag => ?_⟩, fun q rest hout htag hnode hread => ?_⟩,
    fun h q rest hout htag hnode hwrite => ?_, fun h hserved => ?_, fun h hserved => ?_,
    fun h => ⟨_, onClock_gives h.1, quiescenceNotice_gives h⟩, fun hfollows => ?_, fun helsewhere => ?_, fun p rest hinbox => saeriTake_head hinbox,
    fun hclk hswitching hout hheld => ?_, fun hclk hswitching hunsent => ?_, fun h => onClock_ignored (f := routeSwitch) (routeSwitch_ignored h)⟩
  · exact onClock_gives_of_eq h.1 ((saeriFlagAdd_gives h).trans (if_pos (Option.isSome_iff_ne_none.mpr hlisted)))
  · exact onClock_gives_of_eq h.1 ((saeriFlagAdd_gives h).trans (if_neg fun k => Option.isSome_iff_ne_none.mp k hunlisted))
  · exact onClock_gives_of_eq h.1 ((saeriResponse_unasked h hnone).trans (if_neg hstatus))
  · have hnotices : ([0x06, 0x07, 0x09] : List (BitVec 6)).filter (fun o => noticeTag o == k.tag) = [0x07] := by
      rw [htag]
      decide
    refine onClock_gives_of_eq h.1 ((saeriResponse_unasked h hnone).trans ((if_pos hstatus).trans ?_))
    rw [hnotices]
    rfl
  · exact onClock_gives_of_eq h.1 (saeriResponse_asked h hout htag hnode hread)
  · exact onClock_gives_of_eq h.1 (saeriResponse_asked h hout htag hnode hwrite)
  · exact onClock_gives_of_eq (f := managementOf s.fuses k) h.1 ((managementOf_gives h).trans (if_neg (ne_true_of_eq_false hserved)))
  · exact onClock_gives_of_eq (f := managementOf s.fuses k) h.1 ((managementOf_gives h).trans (if_pos hserved))
  · exact ⟨onClock_ignored (f := saeriRead s.fuses k) (saeriArrive_follows hfollows ..),
      onClock_ignored (f := saeriWrite s.fuses k) (saeriWrite_ignored fun f => saeriArrive_follows hfollows _ f),
      onClock_ignored (f := saeriFlagAdd k) (saeriArrive_follows hfollows ..)⟩
  · exact ⟨onClock_ignored (f := saeriRead s.fuses k) (saeriArrive_elsewhere helsewhere ..),
      onClock_ignored (f := saeriWrite s.fuses k) (saeriWrite_ignored fun f => saeriArrive_elsewhere helsewhere _ f),
      onClock_ignored (f := saeriFlagAdd k) (saeriArrive_elsewhere helsewhere ..),
      onClock_ignored (f := saeriResponse k 0x03) (saeriArrive_elsewhere helsewhere ..),
      onClock_ignored (f := saeriResponse k 0x04) (saeriArrive_elsewhere helsewhere ..),
      onClock_ignored (f := managementOf s.fuses k) (saeriArrive_elsewhere helsewhere ..),
      onClock_ignored (f := quiescenceNotice k) (saeriArrive_elsewhere helsewhere ..)⟩
  · have hgo := routeSwitch_gives (d := d) hswitching fun q hq => by simp [hout] at hq
    have hempty : (switched d).sendHeld = { switched d with saeri := { (switched d).saeri with heldOut := [] } } := by
      unfold Dev.sendHeld
      rw [show (switched d).saeri.heldOut = [] from hheld]
      rfl
    exact ⟨_, onClock_gives_of_eq hclk (hgo.trans hempty), rfl, rfl, rfl, rfl, rfl⟩
  · have hsent := trafficOnly_sendHeld (switched d)
    refine ⟨_, onClock_gives_of_eq hclk (routeSwitch_gives hswitching hunsent), ?_⟩
    rw [hsent]
    exact ⟨rfl, rfl, rfl, rfl⟩

end Sys2Proof.Machine
end

section
/-! What comes for the reductions and chains of a round from peers (R258 to R262). -/

namespace Sys2Proof.Machine

theorem getLsbD_eq_div {w : Nat} (x : BitVec w) (i : Nat) : x.getLsbD i = decide (x.toNat / 2 ^ i % 2 = 1) := Nat.testBit_eq_decide_div_mod_eq

theorem getLsbD_of_set {w : Nat} {x : BitVec w} {i : Nat} (h : x.toNat / 2 ^ i % 2 = 1) : x.getLsbD i = true := by simp [getLsbD_eq_div, h]
theorem getLsbD_of_clear {w : Nat} {x : BitVec w} {i : Nat} (h : x.toNat / 2 ^ i % 2 = 0) : x.getLsbD i = false := by simp [getLsbD_eq_div, h]

/-! ### Rows of other nodes (R258, R259) -/

/-- The same row, but for the nodes that are asked for theirs. -/
def SameRow (v w : NodeRow) : Prop := w = { v with asked := w.asked }

/-- Every row of `d` is one of `e`, whoever is asked for it, and nothing changes beside the fabric. -/
structure RowsKept (d e : Dev) : Prop where
  fabric : FabricOnly d e
  rows : ∀ v ∈ d.saeri.rows, ∃ w ∈ e.saeri.rows, SameRow v w

namespace RowsKept

theorem of_rows {d e : Dev} (h : FabricOnly d e) (hrows : e.saeri.rows = d.saeri.rows) : RowsKept d e :=
  ⟨h, fun v hv => ⟨v, hrows ▸ hv, rfl⟩⟩

theorem refl (d : Dev) : RowsKept d d := .of_rows (.refl d) rfl

theorem trans {d e f : Dev} (h : RowsKept d e) (k : RowsKept e f) : RowsKept d f := by
  refine ⟨h.fabric.trans k.fabric, fun v hv => ?_⟩
  obtain ⟨w, hw, hvw⟩ := h.rows v hv
  obtain ⟨u, hu, hwu⟩ := k.rows w hw
  refine ⟨u, hu, ?_⟩
  unfold SameRow at hvw hwu ⊢
  rw [hvw] at hwu
  exact hwu

theorem foldl {α : Type} {g : Dev → α → Dev} (kept : ∀ e a, RowsKept e (g e a)) (l : List α) (d : Dev) : RowsKept d (l.foldl g d) := by
  induction l generalizing d with
  | nil => exact .refl d
  | cons a l ih => exact (kept d a).trans (ih _)

end RowsKept

theorem rowsKept_saeriNotice (d : Dev) (node : NodeId) (op : BitVec 6) (a : Nat) (b : List Byte) : RowsKept d (d.saeriNotice node op a b) := by
  have hsent : TrafficOnly d (d.saeriNotice node op a b) := trafficOnly_sendSaeri ..
  exact .of_rows (fabricOnly_sendSaeri ..) (by rw [hsent])

/-- A node is asked for a row: it is noted with the row. -/
theorem rowsKept_asked (d : Dev) (same : NodeRow → Bool) (c : NodeId) :
    RowsKept d (d.updSaeri fun s => { s with rows := s.rows.map fun w => if same w then { w with asked := w.asked ++ [c] } else w }) := by
  refine ⟨rfl, fun v hv => ⟨_, List.mem_map.mpr ⟨v, hv, rfl⟩, ?_⟩⟩
  split <;> rfl

theorem rowsKept_askRows (d : Dev) : RowsKept d d.askRows := by
  unfold Dev.askRows
  refine RowsKept.foldl (fun e q => ?_) ..
  split
  · exact .refl e
  · refine RowsKept.foldl (fun e c => ?_) ..
    split
    · exact .refl e
    · exact (rowsKept_asked ..).trans (rowsKept_saeriNotice ..)

/-- The row that a partial is for is one of the device's. -/
theorem mem_rows_of_rowFor {d : Dev} {k : SaeriPkt} {q : NodeRow} {j : MatJob} {x : Desc} {r : Round} (h : d.rowFor k = some (q, j, x, r)) :
    q ∈ d.saeri.rows := by
  obtain ⟨v, hv, hhit⟩ := List.exists_of_findSome?_eq_some h
  cases hctx : d.nodeCtx v with
  | none =>
    rw [hctx] at hhit
    cases hhit
  | some c =>
    rw [hctx] at hhit
    simp only [Option.ite_none_left_eq_some, Option.ite_none_right_eq_some, Option.some.injEq, Prod.mk.injEq] at hhit
    obtain ⟨_, _, hq, _⟩ := hhit
    exact hq ▸ hv

/-- A row with partials still due does not go on. -/
theorem nodeAdvance_waits {d : Dev} {x : Desc} {r : Round} {q : NodeRow} (h : q.levels < (d.nodeDues r x).length) (j : MatJob) :
    d.nodeAdvance j x r q = d := if_pos (.inr h)

/-! ### Partials (R259, R260) -/

/-- The sum of a column of a row of FP32 values and of what a packet brings. -/
def partialSum (width : Nat) (own : List Word) (b : List Byte) (c : Nat) : Word :=
  if width ≤ c then own.getD c 0 else addFp32 (own.getD c 0) (BitVec.ofNat 32 (field b (4 * c) 4))

theorem addRows_fp32 (width tagA tagB : Nat) (own : List Word) (b : List Byte) :
    addRows false width tagA own tagB ((List.range 64).map fun c => BitVec.ofNat 32 (field b (4 * c) 4)) =
      { tag := 0, vals := (List.range 64).map (partialSum width own b), sat := 0 } := by
  have hcolumn : ∀ c ∈ List.range 64, (if width ≤ c then (own.getD c 0, false)
      else (addFp32 (own.getD c 0) (((List.range 64).map fun c => BitVec.ofNat 32 (field b (4 * c) 4)).getD c 0), false)) =
        (partialSum width own b c, false) := by
    intro c hc
    have hlen : c < 64 := List.mem_range.mp hc
    unfold partialSum
    split
    · rfl
    · simp [hlen]
  unfold addRows
  simp only [Bool.false_eq_true, if_false]
  rw [List.map_congr_left hcolumn]
  simp [Function.comp_def]

section
variable {s : State} {k : SaeriPkt}

theorem saeriCarryPartial_ask (h : SaeriReaches s k 0x06) (hask : k.addr.toNat / 2 ^ 46 % 2 = 1) (hrows : s.dev.saeri.rows = []) :
    saeriCarryPartial k s.dev =
      (s.dev.saeriTake k).updSaeri fun x =>
        { x with rowAsks := x.rowAsks ++ [(BitVec.ofNat 32 (field k.data 0 4), k.snode, k.addr.toNat / 2 ^ 32 % 2 ^ 6, k.addr.toNat % 2 ^ 11)] } := by
  have hnone : (s.dev.saeriTake k).saeri.rows = [] := by rw [(takenFrom_saeriTake s.dev k).shape]; exact hrows
  unfold saeriCarryPartial
  rw [getLsbD_of_set hask, if_pos rfl, saeriArrive_of_reaches h]
  unfold Dev.takeAsk
  dsimp only
  rw [bits_low]
  show List.foldl _ _ (s.dev.saeriTake k).saeri.rows = _
  rw [hnone]
  rfl

theorem saeriCarryPartial_unawaited (hask : k.addr.toNat / 2 ^ 46 % 2 = 0) (hnone : s.dev.rowFor k = none) : saeriCarryPartial k s.dev = s.dev := by
  unfold saeriCarryPartial
  rw [getLsbD_of_clear hask, hnone]
  rfl

/-- A partial that goes up enters its row, which then waits for the next. -/
theorem saeriCarryPartial_added {q : NodeRow} {j : MatJob} {x : Desc} {r : Round} (h : SaeriReaches s k 0x06)
    (hask : k.addr.toNat / 2 ^ 46 % 2 = 0) (hrow : s.dev.rowFor k = some (q, j, x, r)) (hup : k.addr.toNat / 2 ^ 47 % 2 = 0) (hint : q.isInt = false)
    (hmore : q.levels + 1 < (s.dev.nodeDues r x).length) :
    let w : NodeRow :=
      { q with tag := 0, vals := (List.range 64).map (partialSum (j.width q.blk) q.vals k.data), levels := q.levels + 1, children := q.children ++ [k.snode] }
    saeriCarryPartial k s.dev =
      (((((s.dev.saeriTake k).updSaeri fun t => { t with rows := t.rows.map fun p => if p = q then w else p }).bump 0x3110 5 1).countSat j.key 0).askRows) := by
  have hdown : (carryFields k.addr.toNat).2.1 = false := by
    unfold carryFields bit
    rw [hup]
    rfl
  have htaken := takenFrom_saeriTake s.dev k
  unfold saeriCarryPartial
  rw [getLsbD_of_clear hask, hrow]
  dsimp only
  rw [if_neg Bool.false_ne_true, saeriArrive_of_reaches h, hdown, if_neg Bool.false_ne_true, hint, addRows_fp32]
  dsimp only
  rw [nodeAdvance_waits]
  rw [htaken.shape]
  exact hmore

/-- What the addition of a partial leaves: it is counted, memory stays, and the row is there with its sum. -/
theorem saeriCarryPartial_row {d : Dev} {q w : NodeRow} (key : DescKey) (hq : q ∈ d.saeri.rows) :
    let e := (((d.updSaeri fun t => { t with rows := t.rows.map fun p => if p = q then w else p }).bump 0x3110 5 1).countSat key 0).askRows
    e.count 0x3110 5 = (d.count 0x3110 5 + 1) % 2 ^ 64 ∧ e.mem = d.mem ∧ ∃ v ∈ e.saeri.rows, SameRow w v := by
  intro e
  have hkept : RowsKept _ e := rowsKept_askRows _
  have hfabric := hkept.fabric
  have hrow := hkept.rows w (List.mem_map.mpr ⟨q, hq, if_pos rfl⟩)
  refine ⟨?_, ?_, hrow⟩
  · rw [hfabric]
    exact (Dev.count_bump (d.updSaeri fun t => { t with rows := t.rows.map fun p => if p = q then w else p }) 0x3110 5 1 (0x3110, 5) (by omega)).trans
      (if_pos rfl)
  · rw [hfabric]
    rfl

/-! ### Weight rows (R262) -/

theorem saeriWeightRow_untaken (hrow : k.addr.toNat / 2 ^ 51 % 2 = 0) (hnone : s.dev.chainTaker (k.addr.toNat / 2 ^ 32 % 2 ^ 6) k.snode = none) :
    saeriWeightRow k s.dev = s.dev := by
  unfold saeriWeightRow
  dsimp only
  rw [getLsbD_of_clear hrow, show bits k.addr.toNat 37 32 = k.addr.toNat / 2 ^ 32 % 2 ^ 6 from rfl, hnone]
  rfl

/-- Parts of a chain's tile that a peer brings. -/
def peerPartOf (c : Nat) (p : TilePart) : Bool := !p.net && p.tile.chain == c

/-- A core whose tile of a chain grows by a row, or is there with its last one. -/
def withRow (c : Nat) (p : TilePart) (b : List Byte) (w : Core) : Core :=
  let q : TilePart := { p with bytes := p.bytes ++ if p.next = 0 then b.drop 16 else b, next := p.next + 1 }
  let rest := w.chainParts.filter fun p => !peerPartOf c p
  if q.next = 64 then { w with chainParts := rest, chainIn := w.chainIn ++ [tileOfImage q.tile q.bytes] } else { w with chainParts := q :: rest }

theorem withRow_last {c : Nat} {p : TilePart} (h : p.next = 63) (b : List Byte) (w : Core) :
    withRow c p b w =
      { w with
        chainParts := w.chainParts.filter fun p => !peerPartOf c p
        chainIn := w.chainIn ++ [tileOfImage p.tile (p.bytes ++ b)] } := by
  simp [withRow, h]

theorem withRow_more {c : Nat} {p : TilePart} (hbegun : 0 < p.next) (hmore : p.next ≠ 63) (b : List Byte) (w : Core) :
    withRow c p b w =
      { w with chainParts := { p with bytes := p.bytes ++ b, next := p.next + 1 } :: w.chainParts.filter fun p => !peerPartOf c p } := by
  simp [withRow, Nat.ne_of_gt hbegun, hmore]

/-- A tile of a chain of which no row has come. -/
def freshPart (x : Desc) (c : Nat) (b : List Byte) : TilePart :=
  { net := false
    tile := { hdr := headerOf b, chain := c, round := x.round, ordinal := x.chainOrd, tile := 0, codes := [] }
    bytes := []
    next := 0 }

/-- A row of a tile enters the tile of its chain that is put together (R262). -/
theorem saeriWeightRow_taken {x : Desc} (h : SaeriReaches s k 0x07) (hrow : k.addr.toNat / 2 ^ 51 % 2 = 0)
    (htaker : s.dev.chainTaker (k.addr.toNat / 2 ^ 32 % 2 ^ 6) k.snode = some x)
    (hfree : ∀ e ∈ (s.dev.core x.core).chainIn, e.chain ≠ k.addr.toNat / 2 ^ 32 % 2 ^ 6) (hawake : (s.dev.cluster (x.core / 8)).state = 0) :
    saeriWeightRow k s.dev =
      (s.dev.saeriTake k).updCore x.core
        (withRow (k.addr.toNat / 2 ^ 32 % 2 ^ 6)
          (((s.dev.core x.core).chainParts.find? (peerPartOf (k.addr.toNat / 2 ^ 32 % 2 ^ 6))).getD
            (freshPart x (k.addr.toNat / 2 ^ 32 % 2 ^ 6) k.data)) k.data) := by
  have hopen : ((s.dev.core x.core).chainIn.any fun t => t.chain == k.addr.toNat / 2 ^ 32 % 2 ^ 6) = false := by
    rw [List.any_eq_false]
    intro e he
    simpa using hfree e he
  have htaken := takenFrom_saeriTake s.dev k
  have hcore : (s.dev.saeriTake k).core x.core = s.dev.core x.core := by rw [Dev.core, htaken.cores, Dev.core]
  have hcluster : (s.dev.saeriTake k).cluster (clusterOf x.core) = s.dev.cluster (x.core / 8) := by rw [htaken.shape]; rfl
  unfold saeriWeightRow
  dsimp only
  rw [getLsbD_of_clear hrow, show bits k.addr.toNat 37 32 = k.addr.toNat / 2 ^ 32 % 2 ^ 6 from rfl, htaker]
  dsimp only
  rw [if_neg Bool.false_ne_true, hopen, if_neg Bool.false_ne_true, saeriArrive_of_reaches h, hcore]
  refine (requestWake_updCore (by rw [hcluster]; exact hawake)).trans (Dev.updCore_congr ?_)
  rw [hcore]
  show withRow _ (match (s.dev.core x.core).chainParts.find? (peerPartOf (k.addr.toNat / 2 ^ 32 % 2 ^ 6)) with | some p => p | none => _) k.data _ = _
  cases (s.dev.core x.core).chainParts.find? (peerPartOf (k.addr.toNat / 2 ^ 32 % 2 ^ 6)) <;> rfl

end

/-- Settles O60: a partial enters its row on the device that has taken it, and so does a row of weights the tile of its chain. -/
theorem saeriReductions : Obligations.SaeriReductions := by
  unfold Obligations.SaeriReductions
  intro s k hclk d a d1 c
  have htaken := takenFrom_saeriTake s.dev k
  refine ⟨fun h hask hrows => ?_, fun hask hnone => ?_, ?_, fun hreport hnone => ?_, ?_⟩
  · exact onEngine_gives hclk (saeriCarryPartial_ask h hask hrows)
  · exact onEngine_gives hclk (saeriCarryPartial_unawaited hask hnone)
  · intro q j x r h hask hrow hup hint hmore hsent sum
    have hq : q ∈ (s.dev.saeriTake k).saeri.rows := by
      rw [htaken.shape]
      exact mem_rows_of_rowFor hrow
    obtain ⟨hcount, hmem, v, hv, hsame⟩ := saeriCarryPartial_row (w := { q with
      tag := 0
      vals := (List.range 64).map (partialSum (j.width q.blk) q.vals k.data)
      levels := q.levels + 1
      children := q.children ++ [k.snode] }) j.key hq
    refine ⟨_, onEngine_gives hclk (saeriCarryPartial_added h hask hrow hup hint hmore), ?_, hmem.trans htaken.mem, v, hv, ?_⟩
    · rw [hcount, htaken.shape]
      rfl
    · rw [hsame]
      exact ⟨rfl, rfl, rfl, rfl, rfl, rfl, rfl, rfl⟩
  · exact onEngine_gives hclk (saeriWeightRow_untaken hreport hnone)
  · intro x p h hreport htaker hfree hawake mine rest
    have hcore : (s.dev.saeriTake k).core x.core = s.dev.core x.core := by rw [Dev.core, htaken.cores, Dev.core]
    have hgives {f : Core → Core} {b : Option TilePart} (hfind : (s.dev.core x.core).chainParts.find? mine = b)
        (hf : withRow c (b.getD (freshPart x c k.data)) k.data (s.dev.core x.core) = f (s.dev.core x.core)) :
        Gives (.saeriWeightRow k) s (d1.updCore x.core f).settle := by
      refine onEngine_gives hclk ((saeriWeightRow_taken h hreport htaker hfree hawake).trans (Dev.updCore_congr ?_))
      rw [hcore]
      exact hfind ▸ hf
    refine ⟨fun hfind => hgives hfind rfl, fun hfind hnext => ⟨fun hlast => hgives hfind ?_, fun hother => hgives hfind ?_⟩⟩
    · exact withRow_last hlast ..
    · exact withRow_more hnext hother ..

end Sys2Proof.Machine
end

section
/-! What lost packets and departures leave of the ports: the cause that each went down for stays (R267, R284, R289). -/

namespace Sys2Proof.Machine

/-- Each port of `e` has the cause that it has in `d`. -/
structure CausesKept (d e : Dev) : Prop where
  cause : ∀ m, (e.port m).cause = (d.port m).cause

namespace CausesKept

theorem of_ports {d e : Dev} (h : e.ports = d.ports) : CausesKept d e := ⟨fun m => by rw [Dev.port, h, Dev.port]⟩

theorem refl (d : Dev) : CausesKept d d := ⟨fun _ => rfl⟩

theorem trans {d e f : Dev} (h : CausesKept d e) (k : CausesKept e f) : CausesKept d f := ⟨fun m => (k.cause m).trans (h.cause m)⟩

/-- The last operation first, as the definitions are read. -/
theorem after {d e f : Dev} (last : CausesKept e f) (before : CausesKept d e) : CausesKept d f := before.trans last

theorem withSaeri {d e : Dev} {x : Saeri} (before : CausesKept d e) : CausesKept d { e with saeri := x } := before.trans (.of_ports rfl)

theorem foldl_carried {α β : Type} {dev : β → Dev} {g : β → α → β} (kept : ∀ b a, CausesKept (dev b) (dev (g b a))) (l : List α) (b : β) :
    CausesKept (dev b) (dev (l.foldl g b)) := by
  induction l generalizing b with
  | nil => exact .refl _
  | cons a l ih => exact (kept b a).trans (ih _)

theorem foldl {α : Type} {g : Dev → α → Dev} (kept : ∀ e a, CausesKept e (g e a)) (l : List α) (d : Dev) : CausesKept d (l.foldl g d) :=
  foldl_carried (dev := fun e => e) kept l d

end CausesKept

theorem causesKept_updPort {d : Dev} {p : Nat} {f : Port → Port} (h : (f (d.port p)).cause = (d.port p).cause) : CausesKept d (d.updPort p f) := by
  refine ⟨fun m => ?_⟩
  rw [Dev.port_updPort]
  split
  next own => rw [h, own]
  next => rfl

/-! ### Packets sent -/

theorem sendPackets_cause (q : Port) (me : NodeId) (ks : List SaeriPkt) : (q.sendPackets me ks).cause = q.cause := by
  rw [Port.sendPackets]
  generalize framesOf q.txSeq ks = frames
  induction frames generalizing q with
  | nil => rfl
  | cons f frames ih => exact ih _

theorem useCredit_cause (q : Port) (c : Nat) : (q.useCredit c).cause = q.cause := by
  unfold Port.useCredit
  repeat' split
  all_goals rfl

theorem causesKept_freeSlot (d : Dev) (p c : Nat) : CausesKept d (d.freeSlot p c) := causesKept_updPort (by split <;> rfl)

theorem causesKept_leaveTransit (d : Dev) (k : SaeriPkt) : CausesKept d (d.leaveTransit k) := by
  unfold Dev.leaveTransit
  split
  · exact .refl d
  · exact .after (causesKept_freeSlot ..) (.of_ports rfl)

theorem causesKept_pump (d : Dev) : CausesKept d d.pump := by
  have take (e : Dev) (p : Nat) (k : SaeriPkt) : CausesKept e (e.takePacket p k) :=
    CausesKept.trans (e := (e.updPort p fun q => q.useCredit (saeriClass k.op)).leaveTransit k)
      ((causesKept_updPort (useCredit_cause (e.port p) _)).trans (causesKept_leaveTransit ..)) (.of_ports rfl)
  have next (a : PumpAcc) (e : Nat × SaeriPkt) : CausesKept a.dev (a.next e).dev := by
    unfold PumpAcc.next
    extract_lets
    split
    · exact .refl _
    · exact take ..
  have pass (l : List (Nat × SaeriPkt)) : CausesKept d (l.foldl PumpAcc.next { dev := d, taken := [], waits := [], blocked := [] }).dev :=
    CausesKept.foldl_carried next l { dev := d, taken := [], waits := [], blocked := [] }
  have sent (e : Dev) (b : Nat × List SaeriPkt) : CausesKept e (e.updPort b.1 fun q => q.sendPackets e.nodeId b.2) :=
    causesKept_updPort (sendPackets_cause (e.port b.1) ..)
  unfold Dev.pump
  exact .after (CausesKept.foldl sent ..) (pass _).withSaeri

theorem causesKept_sendSaeri (d : Dev) (k : SaeriPkt) : CausesKept d (d.sendSaeri k) := by
  unfold Dev.sendSaeri
  extract_lets held
  split
  · exact .of_ports rfl
  · split
    · split
      · exact .of_ports rfl
      · exact .after (causesKept_pump _) (.of_ports rfl)
    · exact .of_ports rfl

/-! ### Answers to accesses -/

theorem causesKept_injected (d : Dev) (op : BitVec 4) (cmd : FabCmd) (st : Status) : CausesKept d (d.injected op cmd st) := by
  unfold Dev.injected
  split
  · exact .of_ports (Dev.bump_ports ..)
  · exact .refl d

theorem causesKept_failDesc (d : Dev) (k : DescKey) (st : Status) : CausesKept d (d.failDesc k st) := by
  unfold Dev.failDesc
  repeat' split
  all_goals exact .of_ports rfl

theorem causesKept_reply (d : Dev) (a : Access) (st : Status) (data : List Byte) : CausesKept d (d.reply a st data) := by
  unfold Dev.reply
  dsimp only
  split
  case h_1 => exact .of_ports rfl
  case h_2 =>
    split
    · exact (causesKept_injected ..).trans (.of_ports rfl)
    · split
      · exact (causesKept_injected ..).trans (.of_ports rfl)
      · exact .refl d
  case h_3 =>
    unfold Dev.nocSend
    split <;> exact .of_ports rfl
  case h_4 => exact causesKept_sendSaeri ..
  case h_5 =>
    split
    · split
      · split
        · exact causesKept_failDesc ..
        · split <;> exact .of_ports rfl
      · exact .refl d
    · exact .refl d
  case h_6 => exact .of_ports rfl
  case h_7 => split <;> exact .of_ports rfl

theorem causesKept_partDone (d : Dev) (p : Part) (st : Status) (data : List Byte) : CausesKept d (d.partDone p st data) := by
  unfold Dev.partDone
  split
  · exact .refl d
  · dsimp only
    split
    · exact .after (causesKept_reply ..) (.of_ports rfl)
    · exact .of_ports rfl

theorem causesKept_answerPart (d : Dev) (ks : List NocPacket) (p : Part) (st : Status) (data : List Byte) :
    CausesKept d (d.answerPart ks p st data) := by
  have crossed : CausesKept d (d.crossAll (ks.map fun k => nocAnswer k st [])).2 := .of_ports (by rw [crossOnly_crossAll d])
  unfold Dev.answerPart
  dsimp only
  split <;> exact crossed.trans (causesKept_partDone ..)

theorem causesKept_saeriEnd (d : Dev) (r : SaeriReq) (st : Status) (data : List Byte) : CausesKept d (d.saeriEnd r st data) := by
  have ended : CausesKept d { d with saeri := { d.saeri with outstanding := d.saeri.outstanding.filter fun q => q ≠ r } } := .of_ports rfl
  refine ended.trans ?_
  unfold Dev.saeriEnd
  dsimp only
  split
  case h_1 =>
    split
    · exact causesKept_answerPart ..
    · exact .refl _
  case h_2 => exact .of_ports rfl
  case h_3 =>
    split
    · exact .refl _
    · split
      · split
        · exact causesKept_failDesc ..
        · exact .refl _
      · exact .refl _
  all_goals exact .refl _

/-! ### Departures and losses -/

theorem causesKept_bump (d : Dev) (i k n : Nat) : CausesKept d (d.bump i k n) := .of_ports (Dev.bump_ports ..)

theorem causesKept_loseNodes (d : Dev) (through : List SaeriReq) : CausesKept d (d.loseNodes through) := by
  have raised (e : Dev) (n : RoundNo) : CausesKept e (e.raiseHeld n .peerLost .peer []) := .of_ports rfl
  unfold Dev.loseNodes
  exact .after (CausesKept.foldl (fun e q => causesKept_saeriEnd e q .peerLost []) ..) (CausesKept.foldl raised ..)

theorem causesKept_depart (d : Dev) (node : NodeId) (from? : Option Nat) : CausesKept d (d.depart node from?) := by
  have noticed (e : Dev) (p : Nat) : CausesKept e (e.sendNotice p 3 node) :=
    CausesKept.trans (e := e.updPort p fun q => q.sendHeader e.nodeId (BitVec.ofNat 4 3) 0 node) (causesKept_updPort rfl) (.of_ports rfl)
  unfold Dev.depart
  split
  · exact .refl d
  · exact .after (causesKept_loseNodes ..) (.after (causesKept_bump ..) (.after (CausesKept.foldl noticed ..) (.of_ports rfl)))

theorem causesKept_afterDown (d : Dev) (node : NodeId) (port : Nat) (held : List SaeriPkt) : CausesKept d (d.afterDown node port held) := by
  unfold Dev.afterDown
  dsimp only
  split
  · refine .after (CausesKept.foldl causesKept_sendSaeri ..) ?_
    split
    · exact .after (CausesKept.foldl causesKept_sendSaeri ..) (.of_ports rfl)
    · exact CausesKept.withSaeri (.after (CausesKept.foldl causesKept_sendSaeri ..) (.of_ports rfl))
  · exact .after (causesKept_depart ..) (.after (CausesKept.foldl causesKept_leaveTransit ..) (.of_ports rfl))

/-- A port that was up goes down, and stays down for its cause whatever its packets meet. -/
theorem portDown_up {d : Dev} {p cause : Nat} (h : (d.port p).step = 7) :
    ((d.portDown p cause).port p).step = 8 ∧ ((d.portDown p cause).port p).cause = cause := by
  let fallen (q : Port) : Port := { q with step := 8, cause := cause, replay := [], nak := false, inUse := [], owed := [], rxWords := [] }
  have hdown : d.portDown p cause = (d.updPort p fallen).afterDown (d.port p).peerNode p (framePackets (d.port p).replay) := by
    unfold Dev.portDown
    dsimp only
    rw [if_neg (by omega), if_pos h]
  have hport : (d.updPort p fallen).port p = fallen (d.port p) := Dev.port_updPort_same ..
  rw [hdown]
  refine ⟨((portsKept_afterDown ..).step p).trans ?_, ((causesKept_afterDown ..).cause p).trans ?_⟩ <;> rw [hport]

end Sys2Proof.Machine
end

section
/-! The words of packets and of link frames (R282, R285). -/

namespace Sys2Proof.Machine

/-! ### Bytes of words -/

theorem leNat_lt (b : List Byte) : leNat b < 256 ^ b.length := by
  induction b with
  | nil => exact Nat.one_pos
  | cons x b ih =>
    have hx := x.isLt
    rw [leNat, List.length_cons, Nat.pow_succ]
    omega

/-- The bytes of a number are those that it was read of. -/
theorem leBytes_leNat (b : List Byte) : leBytes b.length (leNat b) = b := by
  induction b with
  | nil => rfl
  | cons x b ih =>
    have hx := x.isLt
    rw [leNat, List.length_cons, leBytes, show (x.toNat + 256 * leNat b) / 256 = leNat b by omega, ih]
    congr 1
    rw [← BitVec.toNat_inj, BitVec.toNat_ofNat]
    omega

theorem slice_add (l : List Byte) (i a b : Nat) : slice l i (a + b) = slice l i a ++ slice l (i + a) b := by
  simp [slice, List.range_add, Nat.add_assoc, Function.comp_def]

theorem slice_self (l : List Byte) {n : Nat} (h : l.length ≤ n) : (slice l 0 n).take l.length = l := by
  refine List.ext_getElem (by simp [slice, h]) fun i h1 h2 => ?_
  simp [slice, h2]

/-- A word of sixteen bytes gives them back. -/
theorem leBytes_word (l : List Byte) (i : Nat) : leBytes 16 (BitVec.ofNat 128 (field l i 16)).toNat = slice l i 16 := by
  have hlen : (slice l i 16).length = 16 := slice_length ..
  have hlt : field l i 16 < 2 ^ 128 := by
    have := leNat_lt (slice l i 16)
    rw [hlen] at this
    exact this
  have hback := leBytes_leNat (slice l i 16)
  rw [hlen] at hback
  rw [BitVec.toNat_ofNat, Nat.mod_eq_of_lt hlt]
  exact hback

/-- The data words of a packet hold its bytes. -/
theorem flatMap_words (l : List Byte) (n : Nat) :
    ((List.range n).map fun i => BitVec.ofNat 128 (field l (16 * i) 16)).flatMap (fun x => leBytes 16 x.toNat) = slice l 0 (16 * n) := by
  induction n with
  | zero => rfl
  | succ n ih =>
    rw [List.range_succ, List.map_append, List.flatMap_append, ih, Nat.mul_succ, slice_add, Nat.zero_add, List.map_singleton,
      List.flatMap_singleton, leBytes_word]

/-! ### Packets (R285) -/

/-- The fields of a packet's header word one after another. -/
def packetFields (k : SaeriPkt) : BitVec (12 + 52 + 12 + 12 + 8 + 8 + 6 + 18) :=
  k.dnode ++ k.addr ++ k.snode ++ k.tag ++ k.lenm1 ++ k.status ++ k.op ++ (0 : BitVec 18)

/-- Each field is found again where it stands. -/
theorem extract_packetFields (k : SaeriPkt) :
    (packetFields k).extractLsb' 116 12 = k.dnode ∧ (packetFields k).extractLsb' 64 52 = k.addr ∧ (packetFields k).extractLsb' 52 12 = k.snode ∧
      (packetFields k).extractLsb' 40 12 = k.tag ∧ (packetFields k).extractLsb' 32 8 = k.lenm1 ∧ (packetFields k).extractLsb' 24 8 = k.status ∧
      (packetFields k).extractLsb' 18 6 = k.op := by
  unfold packetFields
  refine ⟨?_, ?_, ?_, ?_, ?_, ?_, ?_⟩ <;> simp [BitVec.extractLsb'_append_eq_ite, -Nat.reduceAdd]

theorem extract_saeriHeader (k : SaeriPkt) :
    (saeriHeader k).extractLsb' 116 12 = k.dnode ∧ (saeriHeader k).extractLsb' 64 52 = k.addr ∧ (saeriHeader k).extractLsb' 52 12 = k.snode ∧
      (saeriHeader k).extractLsb' 40 12 = k.tag ∧ (saeriHeader k).extractLsb' 32 8 = k.lenm1 ∧ (saeriHeader k).extractLsb' 24 8 = k.status ∧
      (saeriHeader k).extractLsb' 18 6 = k.op := extract_packetFields k

/-- The bytes of a packet are as many as its length and its header say. -/
def DataFits (k : SaeriPkt) : Prop :=
  k.data.length = if saeriDataWords k.op k.addr k.lenm1 = 0 then 0
    else k.lenm1.toNat + 1 + 16 * (saeriDataWords k.op k.addr k.lenm1 - (k.lenm1.toNat + 16) / 16)

theorem take_data {k : SaeriPkt} (h : DataFits k) :
    (slice k.data 0 (16 * saeriDataWords k.op k.addr k.lenm1)).take
      (k.lenm1.toNat + 1 + 16 * (saeriDataWords k.op k.addr k.lenm1 - ceilDiv (k.lenm1.toNat + 1) 16)) = k.data := by
  have hwords : saeriDataWords k.op k.addr k.lenm1 = 0 ∨ (k.lenm1.toNat + 16) / 16 ≤ saeriDataWords k.op k.addr k.lenm1 := by
    unfold saeriDataWords ceilDiv
    split
    · right
      omega
    · exact .inl rfl
  have hceil : ceilDiv (k.lenm1.toNat + 1) 16 = (k.lenm1.toNat + 16) / 16 := rfl
  unfold DataFits at h
  rw [hceil]
  split at h
  next hzero => simp [hzero, List.eq_nil_of_length_eq_zero h, slice]
  next hsome =>
    rw [← h]
    exact slice_self _ (by omega)

/-- The data words of a packet. -/
def dataWords (k : SaeriPkt) : List (BitVec 128) :=
  (List.range (saeriDataWords k.op k.addr k.lenm1)).map fun i => BitVec.ofNat 128 (field k.data (16 * i) 16)

theorem dataWords_length (k : SaeriPkt) : (dataWords k).length = saeriDataWords k.op k.addr k.lenm1 := by simp [dataWords]

/-- A packet is found again in its words. -/
theorem packetOf_words {k : SaeriPkt} (h : DataFits k) : packetOf (saeriHeader k) (dataWords k) = k := by
  obtain ⟨hdnode, haddr, hsnode, htag, hlen, hstatus, hop⟩ := extract_saeriHeader k
  unfold packetOf dataWords
  simp only [hdnode, haddr, hsnode, htag, hlen, hstatus, hop, flatMap_words, take_data h]

/-- Packets packed end to end are found again (R285). -/
theorem parsePackets_words {ks : List SaeriPkt} (h : ∀ k ∈ ks, k.op ≠ 0 ∧ DataFits k) (fuel : Nat) (hfuel : ks.length ≤ fuel) :
    parsePackets fuel (ks.flatMap saeriWords) = (ks, []) := by
  induction ks generalizing fuel with
  | nil => cases fuel <;> rfl
  | cons k ks ih =>
    obtain ⟨hop, hfits⟩ := h k (by simp)
    obtain ⟨_, haddr, _, _, hlen, _, hfield⟩ := extract_saeriHeader k
    cases fuel with
    | zero => simp at hfuel
    | succ fuel =>
      have hwords : (k :: ks).flatMap saeriWords = saeriHeader k :: (dataWords k ++ ks.flatMap saeriWords) := rfl
      have hrest := ih (fun q hq => h q (by simp [hq])) fuel (by simpa using hfuel)
      have hlength : ¬(dataWords k ++ ks.flatMap saeriWords).length < saeriDataWords k.op k.addr k.lenm1 := by
        rw [List.length_append, dataWords_length]
        omega
      rw [hwords, parsePackets, hfield, haddr, hlen, if_neg hop]
      dsimp only
      rw [if_neg hlength, List.drop_left' (dataWords_length k), List.take_left' (dataWords_length k), hrest, packetOf_words hfits]

/-! ### The header of a frame (R282) -/

/-- The first two payloads of a frame as one number. -/
def headerPayloads (q : Port) (raw : RawFrame) : Nat := (q.frameBlock raw 0).payload.toNat + 2 ^ 64 * (q.frameBlock raw 1).payload.toNat

theorem headerPayloads_lt (q : Port) (raw : RawFrame) : headerPayloads q raw < 2 ^ 128 := by
  have h0 := (q.frameBlock raw 0).payload.isLt
  have h1 := (q.frameBlock raw 1).payload.isLt
  unfold headerPayloads
  omega

/-- The words of a frame begin with its first two payloads. -/
theorem foldr_payloads (b c : Block) (l : List Block) :
    (b :: c :: l).foldr (fun (b : Block) n => b.payload.toNat + 2 ^ 64 * n) 0 % 2 ^ 128 = b.payload.toNat + 2 ^ 64 * c.payload.toNat := by
  have hb := b.payload.isLt
  have hc := c.payload.isLt
  simp only [List.foldr_cons]
  omega

/-- The header word of a frame that needs no correction. -/
theorem readFrame_word0 (q : Port) {raw : RawFrame} (h : raw.fixes = []) :
    BitVec.ofNat 128 (((List.range 72).map (q.frameBlock raw)).foldr (fun (b : Block) n => b.payload.toNat + 2 ^ 64 * n) 0 / 2 ^ (144 * 0)) ^^^
      (raw.fixes.filter fun e => e.1 == 0).foldl (fun v e => v ^^^ e.2) 0 = BitVec.ofNat 128 (headerPayloads q raw) := by
  have hrange : List.range 72 = 0 :: 1 :: (List.range 70).map (· + 2) := by decide
  rw [h, hrange, List.map_cons, List.map_cons, Nat.mul_zero, Nat.pow_zero, Nat.div_one]
  show BitVec.ofNat 128 _ ^^^ 0#128 = _
  rw [BitVec.xor_zero, ← BitVec.toNat_inj, BitVec.toNat_ofNat, BitVec.toNat_ofNat, foldr_payloads, Nat.mod_eq_of_lt (headerPayloads_lt q raw)]
  rfl

/-- The fields of a frame's header word (R282). -/
theorem readFrame_header (q : Port) {raw : RawFrame} (h : raw.fixes = []) :
    let f := q.readFrame raw
    let w := headerPayloads q raw
    f.type.toNat = w / 2 ^ 124 ∧ f.seq.toNat = w / 2 ^ 112 % 2 ^ 12 ∧ f.ack.toNat = w / 2 ^ 100 % 2 ^ 12 ∧ f.nak = decide (w / 2 ^ 99 % 2 = 1) ∧
      f.srcNode.toNat = w / 2 ^ 80 % 2 ^ 12 ∧ f.crMg.toNat = w / 2 ^ 76 % 16 ∧ f.crWt.toNat = w / 2 ^ 72 % 16 ∧ f.crRs.toNat = w / 2 ^ 68 % 16 ∧
      f.crRq.toNat = w / 2 ^ 64 % 16 ∧ f.departed.toNat = w / 2 ^ 52 % 2 ^ 12 := by
  have hlt := headerPayloads_lt q raw
  have hword : (BitVec.ofNat 128 (headerPayloads q raw)).toNat = headerPayloads q raw := by rw [BitVec.toNat_ofNat, Nat.mod_eq_of_lt hlt]
  have hpart (lo n : Nat) : (BitVec.extractLsb' lo n (BitVec.ofNat 128 (headerPayloads q raw))).toNat = headerPayloads q raw / 2 ^ lo % 2 ^ n := by
    rw [toNat_extractLsb', hword]
  unfold Port.readFrame
  dsimp only
  rw [readFrame_word0 q h]
  refine ⟨?_, hpart .., hpart .., ?_, hpart .., hpart .., hpart .., hpart .., hpart .., hpart ..⟩
  · rw [hpart]
    omega
  · rw [getLsbD_eq_div, hword]

end Sys2Proof.Machine
end

section
/-! What link frames do: their headers, their packets, and the frames that are sent again (R282, R285 to R289). -/

namespace Sys2Proof.Machine

/-! ### The header of a good frame -/

theorem pump_of_empty {d : Dev} (h : d.saeri.queue = []) : d.pump = d := by
  unfold Dev.pump
  simp only [h, List.filter_nil, List.append_nil, List.foldl_nil]
  rw [← h]

theorem recovered_of_none {d : Dev} (node : NodeId) (h : d.saeri.recovering = []) : d.recovered node = d := by
  unfold Dev.recovered
  exact if_pos (.inl (by rw [h]; rfl))

/-- A frame without NAK, where nothing waits to be sent, acts on its own port only. -/
theorem frameHeader_of_quiet {d : Dev} {p : Nat} {f : LinkFrame} (hnak : f.nak = false) (hqueue : d.saeri.queue = []) (hrec : d.saeri.recovering = []) :
    d.frameHeader p f = d.updPort p fun q => q.takeHeader f := by
  unfold Dev.frameHeader
  dsimp only
  rw [hnak, if_neg Bool.false_ne_true, recovered_of_none _ (by exact hrec), pump_of_empty (by exact hqueue)]

theorem ackDrop_of_sent {pre rest : List SentFrame} {e : SentFrame} {ack : BitVec 12} (he : e.seq = ack) (hpre : ∀ g ∈ pre, g.seq ≠ ack) :
    ackDrop (pre ++ e :: rest) ack = rest := by
  have hany : (pre ++ e :: rest).any (fun f => f.seq == ack) = true := by simp [he]
  have hskip : (pre ++ e :: rest).dropWhile (fun f => f.seq != ack) = e :: rest := by
    rw [List.dropWhile_append_of_pos (fun g hg => bne_iff_ne.mpr (hpre g hg))]
    simp [he]
  rw [ackDrop, if_pos hany, hskip]
  rfl

theorem ackDrop_of_unsent {l : List SentFrame} {ack : BitVec 12} (h : ∀ e ∈ l, e.seq ≠ ack) : ackDrop l ack = l := by
  refine if_neg fun hany => ?_
  obtain ⟨e, he, hack⟩ := List.any_eq_true.mp hany
  exact h e he (beq_iff_eq.mp hack)

/-! ### Frames by what the check finds -/

section
variable {d : Dev} {p : Nat} {raw : RawFrame} {type : BitVec 4} {act : LinkFrame → Dev → Dev} (hstep : (d.port p).step = 7) (hlen : raw.blocks.length = 72)
include hstep hlen

theorem withFrame_of_bad (hbad : ((d.port p).readFrame raw).bad = true) :
    d.withFrame p raw type act = d.bump 0x3121 1 ((d.port p).readFrame raw).corrected := by
  unfold Dev.withFrame
  dsimp only
  rw [if_neg (by simp [hstep, hlen]), if_pos hbad]

theorem withFrame_of_good (hbad : ((d.port p).readFrame raw).bad = false) (htype : ((d.port p).readFrame raw).type = type) :
    d.withFrame p raw type act = act ((d.port p).readFrame raw) (d.bump 0x3121 1 ((d.port p).readFrame raw).corrected) := by
  unfold Dev.withFrame
  dsimp only
  rw [if_neg (by simp [hstep, hlen]), if_neg (ne_true_of_eq_false hbad), if_pos htype]

theorem withFrame_of_other (hbad : ((d.port p).readFrame raw).bad = false) (htype : ((d.port p).readFrame raw).type ≠ type) :
    d.withFrame p raw type act = d := by
  unfold Dev.withFrame
  dsimp only
  rw [if_neg (by simp [hstep, hlen]), if_neg (ne_true_of_eq_false hbad), if_neg htype]

theorem dataFrame_of_bad (hbad : ((d.port p).readFrame raw).bad = true) :
    dataFrame p raw d = (d.bump 0x3121 1 ((d.port p).readFrame raw).corrected).updPort p fun q => { q with nak := true } := by
  unfold dataFrame
  dsimp only
  rw [if_pos ⟨hstep, hlen, hbad⟩, withFrame_of_bad hstep hlen hbad]

theorem dataFrame_of_other (hbad : ((d.port p).readFrame raw).bad = false) (htype : ((d.port p).readFrame raw).type ≠ 1) : dataFrame p raw d = d := by
  unfold dataFrame
  dsimp only
  rw [if_neg (by simp [hbad]), withFrame_of_other hstep hlen hbad htype]

theorem dataFrame_of_gap (hbad : ((d.port p).readFrame raw).bad = false) (htype : ((d.port p).readFrame raw).type = 1)
    (hseq : ((d.port p).readFrame raw).seq ≠ (d.port p).rxSeq) :
    dataFrame p raw d = (d.bump 0x3121 1 ((d.port p).readFrame raw).corrected).updPort p fun q => { q with nak := true } := by
  have hport (i k n : Nat) : (d.bump i k n).port p = d.port p := by rw [Dev.port, Dev.bump_ports, Dev.port]
  unfold dataFrame
  dsimp only
  rw [if_neg (by simp [hbad]), withFrame_of_good hstep hlen hbad htype, hport, if_pos hseq]

/-- A data frame in order: the count goes on, the header acts, and its packets are unpacked (R285, R287). -/
theorem dataFrame_in_order (hbad : ((d.port p).readFrame raw).bad = false) (htype : ((d.port p).readFrame raw).type = 1)
    (hseq : ((d.port p).readFrame raw).seq = (d.port p).rxSeq) (hnak : ((d.port p).readFrame raw).nak = false)
    (hqueue : d.saeri.queue = []) (hrec : d.saeri.recovering = []) :
    let packets := parsePackets 32 ((d.port p).rxWords ++ ((d.port p).readFrame raw).words)
    dataFrame p raw d = packets.1.foldl (fun e k => e.unpack p k)
      (((d.bump 0x3121 1 ((d.port p).readFrame raw).corrected).updPort p fun q => { q with rxSeq := q.rxSeq + 1, rxWords := packets.2 }).updPort p
        fun q => q.takeHeader ((d.port p).readFrame raw)) := by
  have hport (i k n : Nat) : (d.bump i k n).port p = d.port p := by rw [Dev.port, Dev.bump_ports, Dev.port]
  unfold dataFrame
  dsimp only
  rw [if_neg (by simp [hbad]), withFrame_of_good hstep hlen hbad htype, hport, if_neg (not_not_intro hseq)]
  exact congrArg (List.foldl _ · _)
    (frameHeader_of_quiet hnak ((congrArg Saeri.queue (Dev.bump_saeri ..)).trans hqueue) ((congrArg Saeri.recovering (Dev.bump_saeri ..)).trans hrec))
end

theorem idleFrame_eq (p : Nat) (raw : RawFrame) (d : Dev) : idleFrame p raw d = d.withFrame p raw 0 fun f e => e.frameHeader p f := rfl

/-- What a leave notice does once its frame is good. -/
def leaveActs (p : Nat) (node : NodeId) (f : LinkFrame) (d : Dev) : Dev := ((d.frameHeader p f).portDown p 10).depart node (some p)

theorem leaveNotice_eq (p : Nat) (raw : RawFrame) (d : Dev) : leaveNotice p raw d = d.withFrame p raw 2 (leaveActs p (d.port p).peerNode) := rfl

/-- What a departure notice does once its frame is good. -/
def departureActs (p : Nat) (f : LinkFrame) (d : Dev) : Dev :=
  let d1 := d.frameHeader p f
  if f.departed = d.nodeId ∨ d.saeri.departed.contains f.departed then d1 else d1.depart f.departed (some p)

theorem departureNotice_eq (p : Nat) (raw : RawFrame) (d : Dev) : departureNotice p raw d = d.withFrame p raw 3 (departureActs p) := rfl

/-! ### Packets of a data frame -/

theorem unpack_of_full {d : Dev} {p : Nat} {k : SaeriPkt} (hstep : (d.port p).step = 7)
    (hfull : 16 ≤ tabGet 0 (d.port p).inUse (saeriClass k.op) + tabGet 0 (d.port p).owed (saeriClass k.op)) : d.unpack p k = d.portDown p 4 := by
  unfold Dev.unpack
  dsimp only
  rw [if_neg (not_not_intro hstep), if_pos hfull]

/-- A packet for this node takes a receive slot and waits for its command. -/
theorem unpack_of_own {d : Dev} {p : Nat} {k : SaeriPkt} (hstep : (d.port p).step = 7)
    (hroom : tabGet 0 (d.port p).inUse (saeriClass k.op) + tabGet 0 (d.port p).owed (saeriClass k.op) < 16) (hown : k.dnode = d.nodeId) :
    d.unpack p k =
      { d.updPort p fun q => { q with inUse := tabSet q.inUse (saeriClass k.op) (tabGet 0 q.inUse (saeriClass k.op) + 1) } with
        saeri := { d.saeri with inbox := d.saeri.inbox ++ [(p, k)] } } := by
  unfold Dev.unpack
  dsimp only
  rw [if_neg (not_not_intro hstep), if_neg (by omega), if_pos hown]
  rfl

/-! ### Frames sent again (R288) -/

/-- `t` is `d` with the frames of `l` sent again on port p. -/
structure SentAgain (d : Dev) (p : Nat) (l : List SentFrame) (t : Dev) : Prop where
  replay : (t.port p).replay = l.map fun e => { e with sends := e.sends + 1 }
  txSeq : (t.port p).txSeq = (d.port p).txSeq
  rxSeq : (t.port p).rxSeq = (d.port p).rxSeq
  step : (t.port p).step = 7
  others : ∀ m, m ≠ p → t.port m = d.port m
  count : t.count 0x3121 2 = (d.count 0x3121 2 + l.length) % 2 ^ 64
  mem : t.mem = d.mem
  saeri : t.saeri = d.saeri

/-- The header word of a frame that is sent leaves the frames and the counts. -/
theorem foldl_sendHeader (me : NodeId) (l : List SentFrame) (q : Port) :
    let t := l.foldl (fun q f => q.sendHeader me 1 f.seq 0) q
    t.replay = q.replay ∧ t.txSeq = q.txSeq ∧ t.rxSeq = q.rxSeq ∧ t.step = q.step := by
  induction l generalizing q with
  | nil => exact ⟨rfl, rfl, rfl, rfl⟩
  | cons f l ih => exact ih (q.sendHeader me 1 f.seq 0)

theorem count_bump_length (d : Dev) (n : Nat) (h : d.count 0x3121 2 < 2 ^ 64) : (d.bump 0x3121 2 n).count 0x3121 2 = (d.count 0x3121 2 + n) % 2 ^ 64 := by
  rcases Nat.eq_zero_or_pos n with rfl | hpos
  · rw [Dev.bump_zero, Nat.add_zero, Nat.mod_eq_of_lt h]
  · exact (Dev.count_bump d _ _ n (0x3121, 2) hpos.ne').trans (if_pos rfl)

theorem replayFrames_gives {d : Dev} {p : Nat} (hstep : (d.port p).step = 7) (hcount : d.count 0x3121 2 < 2 ^ 64)
    (hsends : ∀ e, (d.port p).replay.head? = some e → e.sends < 3) : SentAgain d p (d.port p).replay (d.replayFrames p) := by
  have hport (m n : Nat) : (d.bump 0x3121 2 n).port m = d.port m := by rw [Dev.port, Dev.bump_ports, Dev.port]
  cases hreplay : (d.port p).replay with
  | nil =>
    have hsame : d.replayFrames p = d := by
      unfold Dev.replayFrames
      dsimp only
      rw [hreplay]
      exact Dev.bump_zero ..
    rw [hsame]
    exact ⟨hreplay, rfl, rfl, hstep, fun _ _ => rfl, (Nat.mod_eq_of_lt hcount).symm, rfl, rfl⟩
  | cons e rest =>
    have hfew := hsends e (by rw [hreplay]; rfl)
    let sent := (e :: rest).map fun f : SentFrame => { f with sends := f.sends + 1 }
    let again (q : Port) : Port := sent.foldl (fun q f => q.sendHeader d.nodeId 1 f.seq 0) { q with replay := sent }
    have hgives : d.replayFrames p = (d.bump 0x3121 2 (e :: rest).length).updPort p again := by
      unfold Dev.replayFrames
      dsimp only
      rw [hreplay]
      exact if_neg (by dsimp only; omega)
    obtain ⟨hframes, htx, hrx, hup⟩ := foldl_sendHeader d.nodeId sent { d.port p with replay := sent }
    have hown : (d.replayFrames p).port p = again (d.port p) := by rw [hgives, Dev.port_updPort_same, hport]
    refine ⟨?_, ?_, ?_, ?_, fun m hm => ?_, ?_, ?_, ?_⟩
    · rw [hown]
      exact hframes
    · rw [hown]
      exact htx
    · rw [hown]
      exact hrx
    · rw [hown]
      exact hup.trans hstep
    · rw [hgives, Dev.port_updPort_of_ne _ _ hm, hport]
    · rw [hgives]
      exact count_bump_length d _ hcount
    · rw [hgives]
      exact Dev.bump_mem ..
    · rw [hgives]
      exact Dev.bump_saeri ..

/-- A NAK first takes the frames up to its ACK out of the replay buffer. -/
theorem nakReplay_gives {d : Dev} {p : Nat} {ack : BitVec 12} (hstep : (d.port p).step = 7) (hcount : d.count 0x3121 2 < 2 ^ 64)
    (hsends : ∀ e, (ackDrop (d.port p).replay ack).head? = some e → e.sends < 3) :
    SentAgain d p (ackDrop (d.port p).replay ack) (nakReplay p ack d) := by
  let dropped (q : Port) : Port := { q with replay := ackDrop q.replay ack }
  have hport : (d.updPort p dropped).port p = dropped (d.port p) := Dev.port_updPort_same ..
  have hgives : nakReplay p ack d = (d.updPort p dropped).replayFrames p := if_neg (not_not_intro hstep)
  have hsent := replayFrames_gives (d := d.updPort p dropped) (p := p) (by rw [hport]; exact hstep) hcount (by rw [hport]; exact hsends)
  rw [hport] at hsent
  obtain ⟨hreplay, htx, hrx, hup, hothers, hgrown, hmem, hsaeri⟩ := hsent
  rw [hgives]
  refine ⟨hreplay, htx.trans ?_, hrx.trans ?_, hup, fun m hm => (hothers m hm).trans (Dev.port_updPort_of_ne _ _ hm), hgrown, hmem, hsaeri⟩ <;> rw [hport]

/-! ### A frame sent four times (R289) -/

theorem portsKept_lostNotice (d : Dev) (op : BitVec 6) (a : Nat) : PortsKept d (d.lostNotice op a) := by
  unfold Dev.lostNotice
  dsimp only
  split
  · exact .of_eq rfl rfl rfl
  · exact .refl d

theorem portsKept_lostPacket (d : Dev) (k : SaeriPkt) : PortsKept d (d.lostPacket k) := by
  unfold Dev.lostPacket
  dsimp only
  split
  · exact .after (portsKept_foldl (fun e q => portsKept_saeriEnd e q .linkLost []) _ _) (portsKept_lostNotice ..)
  · exact portsKept_sendSaeri ..

/-- The oldest frame sent a fourth time takes the port down with CAUSE 9. -/
theorem replayFrames_of_fourth {d : Dev} {p : Nat} {e : SentFrame} {rest : List SentFrame} (hstep : (d.port p).step = 7)
    (hreplay : (d.port p).replay = e :: rest) (hsends : 3 ≤ e.sends) :
    ((d.replayFrames p).port p).step = 8 ∧ ((d.replayFrames p).port p).cause = 9 := by
  have hlost : ∃ t : Dev, PortsKept d t ∧ d.replayFrames p = t.portDown p 9 := by
    unfold Dev.replayFrames
    dsimp only
    rw [hreplay]
    refine ⟨_, ?_, if_pos (by dsimp only; omega)⟩
    exact .after (portsKept_foldl portsKept_lostPacket _ _) (.after (portsKept_updPort (fun _ => rfl) (fun _ => rfl))
      (.after (portsKept_bump ..) (portsKept_bump ..)))
  obtain ⟨t, hkept, hgives⟩ := hlost
  rw [hgives]
  exact portDown_up ((hkept.step p).trans hstep)

theorem portTimeout_gives {d : Dev} {p ns : Nat} (hstep : (d.port p).step = 7) (hns : 1000 ≤ ns) :
    portTimeout p ns d = (d.updPort p fun q => { q with step := 8, cause := 8, replay := [], nak := false, inUse := [], owed := [], rxWords := [] }).afterDown
      (d.port p).peerNode p (framePackets (d.port p).replay) := by
  unfold portTimeout Dev.portDown
  dsimp only
  rw [if_neg (by omega), if_neg (by omega), if_pos hstep]

/-! ### The settling -/

/-- Settles O59: a frame acts by what its check finds and by its type; packets packed end to end are found again word for word; and frames sent again keep
their place in the replay buffer until the fourth time. -/
theorem linkFrames : Obligations.LinkFrames := by
  unfold Obligations.LinkFrames
  refine ⟨?_, fun ks hlen hks => parsePackets_words hks 32 hlen, ?_, ?_⟩
  · intro s p raw hclk hstep hlen d n q f counted header packets took
    have hcounted : counted.saeri = d.saeri := Dev.bump_saeri ..
    have hmem : took.mem = d.mem := (Dev.updPort_mem ..).trans ((Dev.updPort_mem ..).trans (Dev.bump_mem ..))
    have hport : counted.port n = q := by rw [Dev.port, Dev.bump_ports]; rfl
    have hnodeCounted : counted.nodeId = d.nodeId := congrArg (fun o => BitVec.ofNat 12 (leNat (objIn o 0x1110 1))) (Dev.bump_objs ..)
    have hnode : took.nodeId = d.nodeId := hnodeCounted
    have hdiscard (type : BitVec 4) (act : LinkFrame → Dev → Dev) (hbad : f.bad = true) : d.withFrame n raw type act = counted :=
      withFrame_of_bad hstep hlen hbad
    have hasked (hbad : f.bad = true) : dataFrame n raw d = counted.updPort n fun q => { q with nak := true } := dataFrame_of_bad hstep hlen hbad
    have hleave (hbad : f.bad = true) : leaveNotice n raw d = counted := (leaveNotice_eq ..).trans (hdiscard _ _ hbad)
    have hdeparture (hbad : f.bad = true) : departureNotice n raw d = counted := (departureNotice_eq ..).trans (hdiscard _ _ hbad)
    have hother {type : BitVec 4} (act : LinkFrame → Dev → Dev) (hbad : f.bad = false) (htype : f.type ≠ type) : d.withFrame n raw type act = d :=
      withFrame_of_other hstep hlen hbad htype
    refine ⟨fun hbad => ?_, fun hbad htype hseq => ?_, fun hbad htype => ?_, fun hbad htype => ?_, fun hbad htype => ?_, fun hbad htype => ?_,
      fun hbad hnak hqueue hrec => ?_, fun hfixes => readFrame_header q hfixes⟩
    · exact ⟨onClock_gives_of_eq (f := dataFrame p.toNat raw) hclk (hasked hbad),
        onClock_gives_of_eq (f := idleFrame p.toNat raw) hclk ((idleFrame_eq ..).trans (hdiscard _ _ hbad)),
        onClock_gives_of_eq (f := leaveNotice p.toNat raw) hclk (hleave hbad),
        onClock_gives_of_eq (f := departureNotice p.toNat raw) hclk (hdeparture hbad)⟩
    · exact onClock_gives_of_eq (f := dataFrame p.toNat raw) hclk (dataFrame_of_gap hstep hlen hbad htype hseq)
    · exact onClock_ignored (f := dataFrame n raw) (dataFrame_of_other hstep hlen hbad htype)
    · exact onClock_ignored (f := idleFrame n raw) ((idleFrame_eq ..).trans (hother _ hbad htype))
    · exact onClock_ignored (f := leaveNotice n raw) ((leaveNotice_eq ..).trans (hother _ hbad htype))
    · exact onClock_ignored (f := departureNotice n raw) ((departureNotice_eq ..).trans (hother _ hbad htype))
    have hheader : counted.frameHeader n f = header counted :=
      frameHeader_of_quiet hnak ((congrArg Saeri.queue hcounted).trans hqueue) ((congrArg Saeri.recovering hcounted).trans hrec)
    have hgood {type : BitVec 4} (act : LinkFrame → Dev → Dev) (htype : f.type = type) : d.withFrame n raw type act = act f counted :=
      withFrame_of_good hstep hlen hbad htype
    have hdata (htype : f.type = 1) (hseq : f.seq = q.rxSeq) : dataFrame n raw d = packets.1.foldl (fun e k => e.unpack n k) took :=
      dataFrame_in_order hstep hlen hbad htype hseq hnak hqueue hrec
    have htook : took.port n = Port.takeHeader { q with rxSeq := q.rxSeq + 1, rxWords := packets.2 } f := by
      rw [Dev.port_updPort_same, Dev.port_updPort_same, hport]
    have hup : (took.port n).step = 7 := by rw [htook]; exact hstep
    refine ⟨fun htype => ?_, fun htype hseq hnone => ?_, fun k htype hseq hone hown hroom => ?_, fun k htype hseq hone hfull => ?_,
      fun htype hgone => ?_, fun htype hself hgone => ?_, fun htype => ?_⟩
    · have hidle : idleFrame n raw d = header counted := by rw [idleFrame_eq, hgood _ htype, hheader]
      exact onClock_gives_of_eq (f := idleFrame p.toNat raw) hclk hidle
    · exact onClock_gives_of_eq (f := dataFrame p.toNat raw) hclk ((hdata htype hseq).trans (by rw [hnone]; rfl))
    · have hpacked := unpack_of_own (d := took) (p := n) (k := k) hup (by rw [htook]; exact hroom) (hown.trans hnode.symm)
      refine ⟨_, onClock_gives_of_eq (f := dataFrame p.toNat raw) hclk ((hdata htype hseq).trans ((congrArg (List.foldl _ took) hone).trans hpacked)), ?_, ?_⟩
      · exact congrArg (fun x : Saeri => { x with inbox := x.inbox ++ [(n, k)] }) hcounted
      · have hfilled := Dev.port_updPort_same took n fun q => { q with inUse := tabSet q.inUse (saeriClass k.op) (tabGet 0 q.inUse (saeriClass k.op) + 1) }
        rw [htook] at hfilled
        have htaken (t : Table Nat) (c v : Nat) : tabGet 0 (tabSet t c v) c = v := (tabGet_tabSet ..).trans (if_pos rfl)
        exact ⟨congrArg Port.rxSeq hfilled, congrArg Port.rxWords hfilled,
          (congrArg (fun x : Port => tabGet 0 x.inUse (saeriClass k.op)) hfilled).trans (htaken ..), hmem⟩
    · have hpacked := unpack_of_full (d := took) (p := n) (k := k) hup (by rw [htook]; exact hfull)
      exact onClock_gives_of_eq (f := dataFrame p.toNat raw) hclk ((hdata htype hseq).trans ((congrArg (List.foldl _ took) hone).trans hpacked))
    · refine onClock_gives_of_eq (f := departureNotice p.toNat raw) hclk ((departureNotice_eq ..).trans ((hgood (departureActs n) htype).trans ?_))
      unfold departureActs
      dsimp only
      rw [hheader]
      refine if_pos (hgone.imp (fun h => h.trans hnodeCounted.symm) fun h => List.contains_iff_mem.mpr ?_)
      exact (congrArg Saeri.departed hcounted).symm ▸ h
    · refine onClock_gives_of_eq (f := departureNotice p.toNat raw) hclk ((departureNotice_eq ..).trans ((hgood (departureActs n) htype).trans ?_))
      unfold departureActs
      dsimp only
      rw [hheader]
      refine if_neg (not_or_intro (fun h => hself (h.trans hnodeCounted)) fun h => hgone ?_)
      exact (congrArg Saeri.departed hcounted) ▸ List.contains_iff_mem.mp h
    · refine onClock_gives_of_eq (f := leaveNotice p.toNat raw) hclk ((leaveNotice_eq ..).trans ((hgood (leaveActs n q.peerNode) htype).trans ?_))
      unfold leaveActs
      rw [hheader]
  · intro q f pre rest e hreplay he hpre
    unfold Port.takeHeader
    rw [hreplay, ackDrop_of_sent he hpre]
  · intro s p ack ns hclk hstep d n q again
    have hagain {l : List SentFrame} {t : Dev} (h : SentAgain d n l t) : again l t :=
      ⟨h.replay, h.txSeq, h.rxSeq, h.step, h.others, h.count, h.mem, h.saeri⟩
    have htimeout (hns : 500 ≤ ns) : replayTimeout n ns d = d.replayFrames n := if_neg (not_or_intro (not_not_intro hstep) (by omega))
    refine ⟨fun hcount => ⟨fun hunsent hfew => ?_, fun e rest hreplay he hfew => ?_, fun e rest hreplay hfew hns => ?_⟩,
      fun e rest hreplay hmany hns => ?_, fun hns => ?_, fun hns => ?_, fun hns => ?_⟩
    · have hdrop := ackDrop_of_unsent hunsent
      have hsent := nakReplay_gives (ack := ack) hstep hcount (by rw [hdrop]; exact hfew)
      rw [hdrop] at hsent
      exact ⟨_, onClock_gives hclk, hagain hsent⟩
    · have hdrop : ackDrop q.replay ack = rest := by
        rw [hreplay]
        exact ackDrop_of_sent (pre := []) he (by simp)
      have hsent := nakReplay_gives (ack := ack) hstep hcount (by rw [hdrop]; exact hfew)
      rw [hdrop] at hsent
      exact ⟨_, onClock_gives hclk, hagain hsent⟩
    · have hsent := replayFrames_gives hstep hcount fun g hg => by
        rw [hreplay] at hg
        exact Option.some.inj hg ▸ hfew
      exact ⟨_, onClock_gives_of_eq (f := replayTimeout p.toNat ns) hclk (htimeout hns), hagain hsent⟩
    · exact ⟨_, onClock_gives_of_eq (f := replayTimeout p.toNat ns) hclk (htimeout hns), replayFrames_of_fourth hstep hreplay hmany⟩
    · exact onClock_ignored (f := replayTimeout n ns) (if_pos (.inr hns))
    · exact onClock_ignored (f := portTimeout n ns) (if_pos (.inr hns))
    · exact onClock_gives_of_eq hclk (portTimeout_gives hstep hns)

end Sys2Proof.Machine
end

section
/-! A refused write of an octet string over the mailbox (R357, R359). -/

namespace Sys2Proof.Machine

/-- HandleRings of core 64, which lies on die 1 (R14, R162): 128 bytes of zeros. -/
def handleRingsZero : List Byte := List.replicate 128 0

/-- With every link of the network removed, the write of HandleRings of core 64 is refused. -/
theorem linklessState_seamCauses : linklessState.dev.seamCauses (0x4071 : BitVec 16).toNat (65 : Byte).toNat ≠ [] := by decide +kernel

/-- The refusal leaves LastMirrorAbort: an octet string is not written through the mirror, so no code is kept. -/
theorem linklessState_ringsWrite :
    (match exec (.stagedWrite .pcie 0x4071 65 handleRingsZero) linklessState with
      | .next t => t.dev.dict.lastAbort
      | _ => 1) = 0 := by decide +kernel

/-- Refutes O43: the staged fields that lie over the seam include HandleRings, an octet string that PCIe reaches by mailbox only, so its refusal with
0x06000001 is answered in an abort frame and LastMirrorAbort stays 0 (R359). -/
theorem not_dictionaryObjects : ¬ Obligations.DictionaryObjects := by
  unfold Obligations.DictionaryObjects
  intro h
  obtain ⟨_, _, _, _, _, _, hseam, _⟩ := h linklessState .pcie 0x4071 65 handleRingsZero ⟨rfl, rfl⟩
  have hrefused := hseam { type := .octets 128, access := .staged, dflt := List.replicate 128 0 } (by decide +kernel) rfl (by decide +kernel)
    linklessState_seamCauses
  have hkept := linklessState_ringsWrite
  rw [hrefused] at hkept
  exact absurd hkept (by decide +kernel)

end Sys2Proof.Machine
end

section
/-! A write of a port's or a cluster's object numbered like a core of die 0 (R13, R14). -/

namespace Sys2Proof.Machine

/-- A state with its clocks running and nothing else. -/
def clockedState : State := { State.reset with dev := { Dev.reset with pins := { Pins.reset with clocks := true } } }

/-- PortEnable of port 8 lies on die 1, and a write of it enters the record of the seam's master (R238). -/
theorem clockedState_crossing : (clockedState.dev.overSeam true 0x2120 ((8 : CoreId).toNat + 1) 1).noc.stats.length = 1 := by decide +kernel

/-- Refutes O45: core 8 lies on die 0, but not every object numbered like it does: subindex 9 of 0x2120 is port 8, of die 1, so that a write of it
crosses the seam and is counted there (R13, R14). -/
theorem not_dictionaryControls : ¬ Obligations.DictionaryControls := by
  unfold Obligations.DictionaryControls
  intro h
  obtain ⟨hnear, _⟩ := h clockedState .pcie 8 [] 0 ⟨rfl, rfl⟩ (.inl (by decide))
  have hsame : (clockedState.dev.overSeam true 0x2120 ((8 : CoreId).toNat + 1) 1).noc.stats.length = clockedState.dev.noc.stats.length :=
    congrArg (fun d : Dev => d.noc.stats.length) (hnear (by decide) 0x2120)
  rw [clockedState_crossing] at hsame
  exact absurd hsame (by decide)

end Sys2Proof.Machine
end

section
/-! The transfer protocol and the mailbox (R360, R363, R364): what each frame does to the transfer that it names. -/

namespace Sys2Proof.Machine

/-! ### Transfers of a device -/

/-- Where no transfer has this transport and identifier, to drop one changes nothing. -/
theorem dropTransfer_of_none {d : Dev} {t : Transfer} (h : d.findTransfer t.via t.tid = none) (hstream : t.isStream = false) : d.dropTransfer t = d := by
  have hall : (d.dict.transfers.filter fun u => u ≠ t) = d.dict.transfers := by
    refine List.filter_eq_self.mpr fun u hu => decide_eq_true fun heq => ?_
    exact absurd (decide_eq_true (⟨congrArg Transfer.via heq, congrArg Transfer.tid heq⟩ : u.via = t.via ∧ u.tid = t.tid)) (List.find?_eq_none.mp h u hu)
  unfold Dev.dropTransfer
  dsimp only
  rw [hstream, if_neg Bool.false_ne_true, hall]

theorem dropTransfer_of_object {d : Dev} {t : Transfer} (hstream : t.isStream = false) :
    d.dropTransfer t = { d with dict := { d.dict with transfers := d.dict.transfers.filter fun u => u ≠ t } } := by
  unfold Dev.dropTransfer
  dsimp only
  rw [hstream, if_neg Bool.false_ne_true]

theorem isStream_of_object {t : Transfer} (h : ¬(t.index.toNat = 0x2140 ∧ t.sub.toNat = 2)) : t.isStream = false := by
  refine Bool.eq_false_iff.mpr fun hstream => h ?_
  simp only [Transfer.isStream, Bool.and_eq_true, beq_iff_eq] at hstream
  obtain ⟨⟨_, hindex⟩, hsub⟩ := hstream
  rw [hindex, hsub]
  exact ⟨rfl, rfl⟩

theorem transfers_overSeam (d : Dev) (w : Bool) (i k n : Nat) : (d.overSeam w i k n).dict = d.dict := by
  unfold Dev.overSeam Dev.seam
  split
  · rfl
  · dsimp only
    rw [crossOnly_crossAll d]
    rfl

/-- A read of one segment on the management bus is over with its frame. -/
theorem readBatch_of_one {d : Dev} {t : Transfer} (hvia : t.via = .mgmt) (hnext : t.next = 0) (hwrite : t.write = false)
    (hlen : 4 + t.data.length ≤ 56) (hnone : d.findTransfer t.via t.tid = none) :
    d.readBatch t = d.sendFrame t.via
      { cmd := 0x81, tid := t.tid, index := t.index, sub := t.sub, flags := 1, seq := 0, data := leBytes 4 t.data.length ++ t.data } := by
  have hwhole : (leBytes 4 t.data.length ++ t.data).length = 4 + t.data.length := by rw [List.length_append, leBytes_length]
  have htotal : ceilDiv (leBytes 4 t.data.length ++ t.data).length (segMax t.via) = 1 := by
    rw [hwhole, hvia, ceilDiv, segMax]
    omega
  have htake : ((leBytes 4 t.data.length ++ t.data).drop (0 * segMax t.via)).take (segMax t.via) = leBytes 4 t.data.length ++ t.data := by
    rw [Nat.zero_mul, List.drop_zero, List.take_of_length_le]
    rw [hwhole, hvia, segMax]
    omega
  have hstream : t.isStream = false := by rw [Transfer.isStream, hwrite, Bool.false_and, Bool.false_and]
  unfold Dev.readBatch
  dsimp only
  rw [htotal, hnext]
  rw [if_pos (by decide)]
  show (Dev.sendFrame d t.via
    { cmd := 0x81, tid := t.tid, index := t.index, sub := t.sub, flags := 1, seq := 0
      data := ((leBytes 4 t.data.length ++ t.data).drop (0 * segMax t.via)).take (segMax t.via) }).dropTransfer t = _
  rw [htake]
  refine dropTransfer_of_none ?_ hstream
  rw [hvia] at hnone ⊢
  exact hnone

/-! ### Frames -/

section
variable {fz : Fuses} {d : Dev} {f : TFrame}

/-- A read command for which there is room. -/
theorem frameIn_read (hcmd : f.cmd = 1) (hflags : f.flags.toNat < 4) (hold : d.findTransfer .mgmt f.tid = none)
    (hroom : (d.dict.transfers.filter fun t => sameBus t.via .mgmt).length < 4) : frameIn fz d .mgmt f = (fz, d.readInit fz .mgmt f) := by
  unfold frameIn
  dsimp only
  rw [if_neg (by omega), hcmd, hold, if_neg (by decide), if_pos (.inl (by decide)), if_neg (by rw [if_neg (by decide)]; omega), if_pos (by decide)]

theorem frameIn_busy (hcmd : f.cmd = 1) (hflags : f.flags.toNat < 4) (hold : d.findTransfer .mgmt f.tid = none)
    (hroom : ¬(d.dict.transfers.filter fun t => sameBus t.via .mgmt).length < 4) : frameIn fz d .mgmt f = (fz, d.sendAbort .mgmt f abBusy) := by
  unfold frameIn
  dsimp only
  rw [if_neg (by omega), hcmd, hold, if_neg (by decide), if_pos (.inl (by decide)), if_pos (by rw [if_neg (by decide)]; omega)]

/-- The first segment of a write for which there is room. -/
theorem frameIn_write (hcmd : f.cmd = 2) (hflags : f.flags.toNat < 4) (hseq : f.seq = 0) (hold : d.findTransfer .mgmt f.tid = none)
    (hroom : (d.dict.transfers.filter fun t => sameBus t.via .mgmt).length < 4) :
    frameIn fz d .mgmt f = writeSegment fz d
      { via := .mgmt, tid := f.tid, index := f.index, sub := f.sub, write := true, len := 0, data := [], next := 0 } f := by
  unfold frameIn
  dsimp only
  rw [if_neg (by omega), hcmd, hold, if_neg (by decide), if_pos (.inr ⟨by decide, hseq, rfl⟩), if_neg (by rw [if_neg (by decide)]; omega), if_neg (by decide)]

theorem frameIn_acknowledge {t : Transfer} (hcmd : f.cmd = 4) (hflags : f.flags.toNat < 4) (hold : d.findTransfer .mgmt f.tid = some t)
    (hread : t.write = false) (hseq : f.seq.toNat + 1 = t.next) : frameIn fz d .mgmt f = (fz, d.readBatch t) := by
  unfold frameIn
  dsimp only
  rw [if_neg (by omega), hcmd, hold, if_neg (by decide), if_neg (by simp), if_neg (by decide), if_pos (by decide)]
  dsimp only
  rw [hread, hseq, if_pos ⟨rfl, rfl⟩]

theorem frameIn_abort {via : Transport} {t : Transfer} (hcmd : f.cmd = 5) (hflags : f.flags.toNat < 4) (hold : d.findTransfer via f.tid = some t) :
    frameIn fz d via f = (fz, d.dropTransfer t) := by
  unfold frameIn
  dsimp only
  rw [if_neg (by omega), hcmd, hold, if_pos (by decide)]

theorem frameIn_abort_of_none {via : Transport} (hcmd : f.cmd = 5) (hflags : f.flags.toNat < 4) (hold : d.findTransfer via f.tid = none) :
    frameIn fz d via f = (fz, d) := by
  unfold frameIn
  dsimp only
  rw [if_neg (by omega), hcmd, hold, if_pos (by decide)]

/-- A write of one segment acts as a write of its object, and is acknowledged. -/
theorem writeSegment_of_one {t : Transfer} {v : List Byte} {fz' : Fuses} {d' : Dev} (hvia : t.via = .mgmt) (hnext : t.next = 0) (hdata : t.data = [])
    (hstream : t.isStream = false) (hnone : d.findTransfer t.via t.tid = none) (hflags : f.flags.toNat = 1) (hseq : f.seq = 0)
    (hbody : f.data = leBytes 4 v.length ++ v) (hlen : v.length ≤ 52)
    (hok : dictWrite fz d t.via t.index.toNat t.sub.toNat v = .ok (fz', d')) :
    writeSegment fz d t f = (fz', d'.sendFrame t.via
      { cmd := 0x82, tid := t.tid, index := t.index, sub := t.sub, flags := 1, seq := 0, data := [] }) := by
  have hlast : f.flags.getLsbD 0 = true := by rw [getLsbD_eq_div, hflags]; rfl
  have hfour : f.data.length = 4 + v.length := by rw [hbody, List.length_append, leBytes_length]
  have hfield : field f.data 0 4 = v.length := by
    rw [hbody]
    show leNat [BitVec.ofNat 8 v.length, BitVec.ofNat 8 (v.length / 256), BitVec.ofNat 8 (v.length / 256 / 256), BitVec.ofNat 8 (v.length / 256 / 256 / 256)] = _
    simp only [leNat, BitVec.toNat_ofNat]
    omega
  have hdrop : f.data.drop 4 = v := by rw [hbody]; rfl
  unfold writeSegment
  dsimp only
  rw [hlast, hfield, hdrop, hnext, hdata, if_neg (by simp; omega), if_pos rfl, if_pos rfl, if_pos (⟨rfl, hvia⟩ : true = true ∧ t.via = .mgmt)]
  rw [show v.take (v.length - ([] : List Byte).length) = v from List.take_of_length_le (by simp), List.nil_append, if_neg (by omega), hstream,
    if_neg Bool.false_ne_true]
  dsimp only
  rw [if_neg (by decide), if_neg Bool.false_ne_true, dropTransfer_of_none hnone hstream, hok]
  dsimp only
  rw [if_pos rfl, hseq]
end

/-! ### The mailbox -/

theorem fill_of_empty {k : Dict} (hout : k.out = []) : k.fill = k := by
  unfold Dict.fill
  rw [hout]
  split <;> rfl

theorem fill_of_pcie {k : Dict} {g : TFrame} {rest : List (Transport × TFrame)} (hfree : k.response = []) (hout : k.out = (.pcie, g) :: rest) :
    k.fill = { k with response := frameBytes g, out := rest } := by
  unfold Dict.fill
  rw [if_pos hfree, hout, List.find?_cons_of_pos (by simp)]
  dsimp only
  rw [List.erase_cons_head]

/-! ### The settling -/

theorem dictRuns_mgmt {d : Dev} (hclk : d.pins.clocks = true) (haddr : d.pins.straps.mgtAddr ≠ 0) : d.dictRuns .mgmt = true := by
  unfold Dev.dictRuns Dev.served
  dsimp only
  rw [hclk, Bool.true_or, Bool.true_and, bne_iff_ne]
  exact haddr

/-- A frame with the CMD that its command names is taken. -/
theorem transfer_gives {s : State} {f : TFrame} {cmd : Byte} {fz : Fuses} {t : Dev} (hclk : s.dev.pins.clocks = true)
    (haddr : s.dev.pins.straps.mgtAddr ≠ 0) (hcmd : f.cmd = cmd) (h : frameIn s.fuses s.dev .mgmt f = (fz, t)) :
    s.transfer .mgmt f cmd = .next (State.withDev { s with fuses := fz } t) := by
  unfold State.transfer
  rw [if_pos ⟨dictRuns_mgmt hclk haddr, hcmd⟩]
  dsimp only
  rw [h]
  rfl

/-- Settles O47: a frame acts by its command and by the transfer that it finds; one segment is a whole transfer, which leaves none behind. -/
theorem transfers : Obligations.Transfers := by
  unfold Obligations.Transfers
  intro s f v tid ms hclk haddr d via old room
  refine ⟨fun hcmd hflags hold hroom hlen hread => ?_, fun code hcmd hflags hold hroom hread => ?_, fun hcmd hflags hold hroom => ?_,
    fun fz' d' hcmd hflags hseq hold hroom hdata hlen hobject hok => ?_, fun t hcmd hflags hold hread hseq => ?_, fun t hcmd hflags hold hobject => ?_,
    fun hcmd hflags hold => ?_, fun t hold hobject hms => ?_, fun hms => ?_, fun len hlen => ?_, fun len hlo hhi => ?_, fun hout => ?_, fun g rest hout => ?_⟩
  · have hnone : (d.overSeam false f.index.toNat f.sub.toNat v.length).findTransfer .mgmt f.tid = none := by
      rw [Dev.findTransfer, transfers_overSeam]
      exact hold
    refine transfer_gives hclk haddr hcmd ((frameIn_read hcmd hflags hold hroom).trans (congrArg (Prod.mk s.fuses) ?_))
    unfold Dev.readInit
    rw [hread]
    exact readBatch_of_one rfl rfl rfl hlen hnone
  · refine transfer_gives hclk haddr hcmd ((frameIn_read hcmd hflags hold hroom).trans (congrArg (Prod.mk s.fuses) ?_))
    unfold Dev.readInit
    rw [hread]
    rfl
  · exact transfer_gives hclk haddr hcmd (frameIn_busy hcmd hflags hold hroom)
  · refine transfer_gives hclk haddr hcmd ((frameIn_write hcmd (by omega) hseq hold hroom).trans ?_)
    exact writeSegment_of_one rfl rfl rfl (isStream_of_object hobject) hold hflags hseq hdata hlen hok
  · exact transfer_gives hclk haddr hcmd (frameIn_acknowledge hcmd (by omega) hold hread hseq)
  · refine transfer_gives hclk haddr hcmd ((frameIn_abort hcmd (by omega) hold).trans (congrArg (Prod.mk s.fuses) ?_))
    exact dropTransfer_of_object (isStream_of_object hobject)
  · exact transfer_gives hclk haddr hcmd (frameIn_abort_of_none hcmd (by omega) hold)
  · have hdrop : transferTimeout .mgmt tid ms d = d.failTransfer t
        { cmd := 0, tid := tid, index := t.index, sub := t.sub, flags := 0, seq := 0, data := [] } abTimeout := by
      unfold transferTimeout
      rw [show d.findTransfer .mgmt tid = some t from hold]
      exact if_pos hms
    rw [Dev.failTransfer, dropTransfer_of_object (isStream_of_object hobject)] at hdrop
    exact onDev_gives ((if_pos (dictRuns_mgmt hclk haddr)).trans hdrop)
  · have hkept : transferTimeout .mgmt tid ms d = d := by
      unfold transferTimeout
      split
      · exact if_neg (by omega)
      · rfl
    exact onDev_gives ((if_pos (dictRuns_mgmt hclk haddr)).trans hkept)
  · exact onClock_gives_of_eq hclk (by rw [reqlenWrite, if_pos hlen]; rfl)
  · exact onClock_gives_of_eq hclk (by rw [reqlenWrite, if_neg (by omega)])
  · exact onClock_gives_of_eq hclk (congrArg (fun k : Dict => { d with dict := k }) (fill_of_empty (k := { d.dict with response := [] }) hout))
  · exact onClock_gives_of_eq hclk (congrArg (fun k : Dict => { d with dict := k }) (fill_of_pcie (k := { d.dict with response := [] }) rfl hout))

end Sys2Proof.Machine
end

section
/-! Profiles (R356): a write of 0 commits the defaults of its groups together. -/

namespace Sys2Proof.Machine

/-! ### The default values -/

/-- What a profile commits to a field of a group. -/
def defaultOf (g k : Nat) : List Byte := objDefault (okey g k)

/-- The groups whose checks look at the value alone. -/
def plainGroups : List Nat := [0x4020, 0x4031, 0x4040, 0x4041, 0x4070, 0x4090, 0x4100, 0x4120, 0x4140, 0x4160, 0x4161, 0x4410]

theorem fieldBad_of_plain {d e : Dev} {g : Nat} (hg : g ∈ plainGroups) (k : Nat) (val : Nat → Nat → List Byte) :
    d.fieldBad g k val = e.fieldBad g k val := by
  simp only [plainGroups, List.mem_cons, List.not_mem_nil, or_false] at hg
  rcases hg with rfl | rfl | rfl | rfl | rfl | rfl | rfl | rfl | rfl | rfl | rfl | rfl <;> rfl

theorem fieldBad_plain_default : ∀ g ∈ plainGroups, ∀ k ∈ groupSubs g, Dev.reset.fieldBad g k defaultOf = false := by decide +kernel

theorem default_rings : ∀ k ∈ groupSubs 0x4071, ringsOk (defaultOf 0x4071 k) = true := by decide +kernel

theorem default_members : ∀ k ∈ groupSubs 0x4112, defaultOf 0x4112 k = [0, 0] := by decide +kernel
theorem default_neighbours : ∀ k ∈ groupSubs 0x4113, defaultOf 0x4113 k = [0xFF, 0xFF, 0xFF, 0xFF] := by decide +kernel
theorem default_peers : ∀ k ∈ groupSubs 0x4114, defaultOf 0x4114 k = [0] := by decide +kernel
theorem default_fabric : ∀ k ∈ groupSubs 0x4130, k = 1 ∨ k = 2 := by decide +kernel

/-- The groups that profiles reset. -/
def profiledGroups : List Nat := plainGroups ++ [0x4071, 0x4112, 0x4113, 0x4114, 0x4130]

/-- The default of a field passes its owning rule's check. -/
theorem fieldBad_default {d : Dev} (hidle : ∀ e ∈ d.streams, e.2.enable = false) {g k : Nat} (hg : g ∈ profiledGroups) (hk : k ∈ groupSubs g) :
    d.fieldBad g k defaultOf = false := by
  rcases List.mem_append.mp hg with hplain | hother
  · rw [fieldBad_of_plain (e := Dev.reset) hplain]
    exact fieldBad_plain_default g hplain k hk
  · simp only [List.mem_cons, List.not_mem_nil, or_false] at hother
    rcases hother with rfl | rfl | rfl | rfl | rfl
    · show (defaultOf 0x4071 k != d.obj 0x4071 k && !ringsOk (defaultOf 0x4071 k)) = false
      rw [default_rings k hk, Bool.not_true, Bool.and_false]
    · unfold Dev.fieldBad
      rw [default_members k hk]
      rfl
    · unfold Dev.fieldBad
      rw [default_neighbours k hk]
      rfl
    · unfold Dev.fieldBad
      rw [default_peers k hk]
      rfl
    · rcases default_fabric k hk with rfl | rfl
      · refine List.any_eq_false.mpr fun e he => ?_
        rw [hidle e he, Bool.false_and]
        exact Bool.false_ne_true
      · rfl

theorem profileGroups_profiled {i : Nat} {gs : List Nat} (h : profileGroups i = some gs) : ∀ g ∈ gs, g ∈ profiledGroups := by
  unfold profileGroups at h
  split at h
  all_goals cases h <;> decide

/-- Where no round is open, no ring holds a buffer and no stream is enabled, nothing speaks against the defaults. -/
theorem commitCauses_default {d : Dev} (hrounds : d.rounds = []) (hfree : ∀ n, d.ringsBusy n = false) (hidle : ∀ e ∈ d.streams, e.2.enable = false)
    {g : Nat} (hg : g ∈ profiledGroups) : d.commitCauses g defaultOf = [] := by
  have hopen : d.anyOpen = false := by rw [Dev.anyOpen, hrounds]; rfl
  have hgood : (groupSubs g).filter (fun k => d.fieldBad g k defaultOf) = [] :=
    List.filter_eq_nil_iff.mpr fun k hk => ne_true_of_eq_false (fieldBad_default hidle hg hk)
  have hbusy : ((groupSubs g).any fun k => defaultOf g k != d.obj g k && d.ringsBusy (k - 1)) = false :=
    List.any_eq_false.mpr fun k _ => by rw [hfree, Bool.and_false]; exact Bool.false_ne_true
  unfold Dev.commitCauses
  dsimp only
  rw [hgood, hbusy, hopen]
  split
  · rfl
  · split <;> rfl

/-! ### What a commit sets and what it keeps -/

/-- What a commit of a group other than its fields keeps. -/
def bookkeeping (d : Dev) : List Round × List Desc × Table Word × Table Nat := (d.rounds, d.descs, d.flags, d.counters)

theorem commitEffect_keeps (d : Dev) (g : Nat) (val : Nat → Nat → List Byte) :
    ((d.commitEffect g val).objs, bookkeeping (d.commitEffect g val)) = (d.objs, bookkeeping d) := by
  unfold Dev.commitEffect
  split
  · refine foldl_kept (view := fun e => (e.objs, bookkeeping e)) (fun e k => ?_) _ d
    split <;> rfl
  · split
    · refine foldl_kept (view := fun e => (e.objs, bookkeeping e)) (fun e k => ?_) _ d
      dsimp only
      split <;> rfl
    · split <;> rfl

theorem groupSubs_lt {g k : Nat} (hk : k ∈ groupSubs g) : k < 256 := by
  obtain ⟨row, hrow, hsub⟩ := List.mem_flatMap.mp hk
  obtain ⟨j, hj, rfl⟩ := List.mem_map.mp hsub
  have hhi : ∀ r ∈ rowsExpert, r.hi < 256 := by decide +kernel
  have := hhi row (List.mem_of_mem_filter hrow)
  have := List.mem_range.mp hj
  omega

theorem okey_inj {g k h j : Nat} (hk : k < 256) (hj : j < 256) (heq : okey g k = okey h j) : g = h ∧ k = j := by
  unfold okey at heq
  omega

/-- The fields of a group as they are set one after another. -/
theorem obj_foldl_setObj {g : Nat} (val : Nat → Nat → List Byte) {subs : List Nat} (hsubs : ∀ k ∈ subs, k < 256) (d : Dev) {h j : Nat} (hj : j < 256) :
    (subs.foldl (fun e k => if val g k = e.obj g k then e else e.setObj g k (val g k)) d).obj h j = if h = g ∧ j ∈ subs then val g j else d.obj h j := by
  induction subs generalizing d with
  | nil => simp
  | cons k subs ih =>
    have hstep : ((if val g k = d.obj g k then d else d.setObj g k (val g k)) : Dev).obj h j = if h = g ∧ j = k then val g j else d.obj h j := by
      by_cases hown : h = g ∧ j = k
      · rw [if_pos hown, hown.1, hown.2]
        by_cases heq : val g k = d.obj g k
        · rw [if_pos heq, heq]
        · rw [if_neg heq, Dev.obj_setObj]
      · rw [if_neg hown]
        by_cases heq : val g k = d.obj g k
        · rw [if_pos heq]
        · rw [if_neg heq]
          exact Dev.obj_setObj_of_ne _ _ _ _ _ _ fun hkey => hown (okey_inj hj (hsubs k (by simp)) hkey)
    rw [List.foldl_cons, ih (fun q hq => hsubs q (by simp [hq])), hstep]
    by_cases hg : h = g <;> by_cases hin : j ∈ subs <;> by_cases heq : j = k <;> simp [hg, hin, heq]

theorem setObj_bookkeeping (d : Dev) (g k : Nat) (v : List Byte) : bookkeeping (d.setObj g k v) = bookkeeping d := rfl

/-- A group that is applied has its values in force, and every other object reads as before. -/
theorem applyGroup_obj (d : Dev) (g : Nat) (val : Nat → Nat → List Byte) {h j : Nat} (hj : j < 256) :
    (d.applyGroup g val).obj h j = if h = g ∧ j ∈ groupSubs g then val g j else d.obj h j := by
  have hobjs : (d.commitEffect g val).objs = d.objs := congrArg Prod.fst (commitEffect_keeps d g val)
  have hset := obj_foldl_setObj (g := g) (subs := groupSubs g) (h := h) val (fun k hk => groupSubs_lt hk) (d.commitEffect g val) hj
  rw [show (d.commitEffect g val).obj h j = d.obj h j from congrArg (objIn · h j) hobjs] at hset
  exact hset

theorem applyGroup_bookkeeping (d : Dev) (g : Nat) (val : Nat → Nat → List Byte) : bookkeeping (d.applyGroup g val) = bookkeeping d := by
  have hset : bookkeeping ((groupSubs g).foldl (fun e k => if val g k = e.obj g k then e else e.setObj g k (val g k)) (d.commitEffect g val)) =
      bookkeeping (d.commitEffect g val) :=
    foldl_kept (view := bookkeeping) (fun e k => by split <;> rfl) _ _
  exact hset.trans (congrArg Prod.snd (commitEffect_keeps d g val))

theorem applyGroups_obj (gs : List Nat) (d : Dev) (val : Nat → Nat → List Byte) {h j : Nat} (hj : j < 256) :
    (gs.foldl (fun e g => e.applyGroup g val) d).obj h j = if h ∈ gs ∧ j ∈ groupSubs h then val h j else d.obj h j := by
  induction gs generalizing d with
  | nil => simp
  | cons g gs ih =>
    rw [List.foldl_cons, ih, applyGroup_obj _ _ _ hj]
    by_cases hg : h = g
    · subst hg
      by_cases hin : h ∈ gs <;> by_cases hk : j ∈ groupSubs h <;> simp [hin, hk]
    · simp [hg]

/-! ### Profiles -/

/-- A device with the defaults of some groups in force. -/
structure Profiled (d : Dev) (gs : List Nat) (t : Dev) : Prop where
  fields : ∀ g ∈ gs, ∀ k ∈ groupSubs g, t.obj g k = defaultOf g k
  books : bookkeeping t = bookkeeping d

/-- Objects that lie in no group may be set as well. -/
theorem Profiled.setObj {d t : Dev} {gs : List Nat} (h : Profiled d gs t) {i k : Nat} (v : List Byte) (hk : k < 256) (hi : i ∉ gs) :
    Profiled d gs (t.setObj i k v) := by
  refine ⟨fun g hg j hj => ?_, h.books⟩
  refine (Dev.obj_setObj_of_ne _ _ _ _ _ _ fun heq => hi ?_).trans (h.fields g hg j hj)
  exact (okey_inj (groupSubs_lt hj) hk heq).1 ▸ hg

section
variable {d : Dev} (hrounds : d.rounds = []) (hfree : ∀ n, d.ringsBusy n = false) (hidle : ∀ e ∈ d.streams, e.2.enable = false)
include hrounds hfree hidle

theorem commitGroups_default {gs : List Nat} (hgs : ∀ g ∈ gs, g ∈ profiledGroups) :
    ∃ t, d.commitGroups gs defaultOf = .ok t ∧ Profiled d gs t := by
  have hnone : gs.flatMap (fun g => d.commitCauses g defaultOf) = [] :=
    List.flatMap_eq_nil_iff.mpr fun g hg => commitCauses_default hrounds hfree hidle (hgs g hg)
  refine ⟨gs.foldl (fun e g => e.applyGroup g defaultOf) d, ?_, fun g hg k hk => ?_, ?_⟩
  · unfold Dev.commitGroups
    rw [hnone]
    rfl
  · rw [applyGroups_obj _ _ _ (groupSubs_lt hk), if_pos ⟨hg, hk⟩]
  · exact foldl_kept (view := bookkeeping) (fun e g => applyGroup_bookkeeping e g _) _ _

variable (hbudget : budgetOk (topoOf (d.obj 0x4111 1)) d.saeri.departed.contains (d.objNat 0x1110 1) 4000 = true)
include hbudget

theorem profile_gives {i : Nat} {gs : List Nat} (hprofile : profileGroups i = some gs) (hgs : ∀ g ∈ gs, g ∈ profiledGroups) :
    ∃ t, d.profile i = .ok t ∧ Profiled d gs t := by
  obtain ⟨t, hok, hset⟩ := commitGroups_default hrounds hfree hidle hgs
  have hlow {i : Nat} (hi : i < 0x4000) : i ∉ gs := fun hin => by
    have hhigh : ∀ g ∈ profiledGroups, 0x4000 ≤ g := by decide
    exact absurd (hhigh i (hgs i hin)) (by omega)
  have hopen : d.anyOpen = false := by rw [Dev.anyOpen, hrounds]; rfl
  unfold Dev.profile
  rw [hprofile]
  dsimp only
  rw [if_neg (by rintro ⟨_, hbad⟩; rw [hopen, hbudget] at hbad; simp at hbad)]
  have hcommit : d.commitGroups gs (fun g k => objDefault (okey g k)) = .ok t := hok
  rw [hcommit]
  dsimp only
  by_cases hfabric : i = 0x2110
  · rw [if_pos hfabric]
    exact ⟨_, rfl, hset.setObj _ (by decide) (hlow (by decide))⟩
  · rw [if_neg hfabric]
    by_cases hpower : i = 0x2160
    · rw [if_pos hpower]
      exact ⟨_, rfl, (hset.setObj _ (by decide) (hlow (by decide))).setObj _ (by decide) (hlow (by decide))⟩
    · rw [if_neg hpower]
      exact ⟨t, rfl, hset⟩
end

/-- A write of 0 to a profile goes through the dictionary without a cause against it. -/
theorem dict_profile {s : State} {via : Transport} {i : Nat} {gs : List Nat} {t : Dev} (reaches : Reaches s via)
    (row : objInfo i 1 = some (byteInfo .rw)) (hprofile : profileGroups i = some gs) (htranslator : i ≠ 0x4110) (near : s.dev.objDie i 1 = 0)
    (owner : s.dev.ownerCauses s.fuses via i 1 [0] = []) (hok : s.dev.profile i = .ok t) : s.dict via i 1 [0] = .next (s.withDev t) := by
  refine dict_of_ok (fz := s.fuses) reaches.1 ?_
  have rights : ¬s.dev.rights via < 2 := by rw [reaches.2]; decide
  have typed : typeCauses (byteInfo .rw) [0] = [] := rfl
  have staged : (byteInfo .rw).access ≠ .staged := by decide
  have some' : (profileGroups i).isSome = true ∧ 1 = 1 := ⟨by rw [hprofile]; rfl, rfl⟩
  simp only [dictWrite, Dev.objWrite, row, typed, owner, seamCauses_of_reached (.inl near), overSeam_of_near true _ near, cause, rights, decide_false,
    Bool.false_eq_true, ite_self, if_false, List.append_nil, lowest, Nat.one_ne_zero, false_and, staged, htranslator, some', and_self, if_true, hok]
  simp

/-- Settles O44: the defaults pass every check where no round is open, no ring holds a buffer and no stream is enabled, so each profile commits the
defaults of its groups together. -/
theorem profilesRestoreDefaults : Obligations.ProfilesRestoreDefaults := by
  unfold Obligations.ProfilesRestoreDefaults
  intro s via reaches hrounds hfree hidle hbudget p hp
  have write {i : Nat} {gs : List Nat} (row : objInfo i 1 = some (byteInfo .rw)) (hprofile : profileGroups i = some gs) (htranslator : i ≠ 0x4110)
      (near : s.dev.objDie i 1 = 0) (owner : s.dev.ownerCauses s.fuses via i 1 [0] = []) :
      ∃ t, s.dict via i 1 [0] = .next (s.withDev t) ∧ (∀ g ∈ gs, ∀ e ∈ groupSubs g, t.obj g e = objDefault (okey g e)) ∧
        t.rounds = [] ∧ t.descs = s.dev.descs ∧ t.flags = s.dev.flags ∧ t.counters = s.dev.counters := by
    obtain ⟨t, hok, hset⟩ := profile_gives hrounds hfree hidle hbudget hprofile (profileGroups_profiled hprofile)
    have hbooks := hset.books
    simp only [bookkeeping, Prod.mk.injEq] at hbooks
    obtain ⟨hr, hdescs, hflags, hcounters⟩ := hbooks
    exact ⟨t, dict_profile reaches row hprofile htranslator near owner hok, hset.fields, hr.trans hrounds, hdescs, hflags, hcounters⟩
  simp only [List.mem_cons, List.not_mem_nil, or_false] at hp
  rcases hp with rfl | rfl | rfl | rfl | rfl | rfl | rfl | rfl | rfl | rfl | rfl | rfl
  all_goals exact write (by decide +kernel) rfl (by decide) rfl rfl

end Sys2Proof.Machine
end

section
/-! A frame record of a plain full load whose GHASH value does not stand at 0 (R320, R321). -/

namespace Sys2Proof.Machine

/-- A plain full load of one frame with a GHASH value left in it. -/
def hashedLoad : Load :=
  { src := .flash, feeder := none, kind := 0, keySrc := 0, partition := 0, frames := 1, die := 0, region := 0, colLo := 0, colHi := 0, iv := [],
    header := [], designId := 0, clearing := false, taken := 0, failed := 0, hash := 1, written := [] }

/-- The fallback stream of the flash brings that load. -/
def hashedState : State :=
  { State.reset with dev := { Dev.reset with
      pins := { Pins.reset with clocks := true }
      cfg := { Cfg.reset with state := 1, started := true, second := true, load := some hashedLoad } } }

/-- Frame 0, all zeros, with the CRC of zeros. -/
def zeroRecord : List Byte := List.replicate 576 0

theorem zeroRecord_address : field (slice zeroRecord 0 576) 0 3 % 2 ^ 18 = 0 := by decide +kernel
theorem zeroRecord_ok : recordOk (slice zeroRecord 0 576) = true := by decide +kernel

/-- What stands of the GHASH value after the record. -/
theorem hashedState_record :
    (match exec (.frameRecord zeroRecord) hashedState with
      | .next t => (t.dev.cfg.load.map Load.hash).getD 1
      | _ => 1) = 0 := by decide +kernel

/-- Refutes O39: a load without a key keeps no GHASH, and its next record writes 0 there, so the load after a record is not the load before it with
one more frame where the value stood at 1. -/
theorem not_configurationAndStartUp : ¬ Obligations.ConfigurationAndStartUp := by
  unfold Obligations.ConfigurationAndStartUp
  intro h
  obtain ⟨_, _, hunits, _⟩ := h
  obtain ⟨hrecord, _⟩ := hunits hashedState hashedLoad zeroRecord rfl rfl rfl rfl rfl rfl (.inr rfl)
  obtain ⟨hgood, _⟩ := hrecord (by decide +kernel) rfl (by decide)
  obtain ⟨t, hgives, hcfg, _⟩ := hgood (by rw [zeroRecord_address]; decide) zeroRecord_ok (.inl (by rw [zeroRecord_address]; decide))
  have hhash := hashedState_record
  rw [hgives] at hhash
  have hkept : (t.cfg.load.map Load.hash).getD 1 = 1 := by rw [hcfg]; rfl
  exact absurd (hkept.symm.trans hhash) (by decide)

end Sys2Proof.Machine
end
